-- ==== Sys2Proof/Word.lean ====
section
/-! DEFINITION. The words of the device: a register word is 32 bits (R7), a memory cell 8 bits. -/
namespace Sys2Proof

/-- A register word (R7). -/
abbrev Word := BitVec 32

/-- The smallest addressable unit of the memory banks (R98). -/
abbrev Byte := BitVec 8

end Sys2Proof
end

