-- ==== Sys2Proof/Syntax.lean ====
section
/-! DEFINITION. The commands of the device: one constructor per row of spec/opcode_table.json. An operand is a fact the
environment supplies with the event (a level, a measured value, a received word) or the word and initiator of a write. -/
namespace Sys2Proof

/-- Outcome of an input calibration (R196). -/
inductive CalResult where
  | pass | adcFault | gainFault
deriving DecidableEq, Repr

/-- Where the board connects a strap ball (R34, R35). -/
inductive StrapTie where
  | vss | vddIo33
  /-- Left open. -/
  | nc
deriving DecidableEq, Repr

/-- Who writes a lane's delay target (R225). -/
inductive DelayWriter where
  | engine | cascade
  /-- The host, through X_DELAY, as initiator level `lvl`. -/
  | host (lvl : Fin 4)
deriving DecidableEq, Repr


/-- A frequency signalled for service following (R350): SOURCE, bearer, frequency in Hz, the PI (SOURCE 3) or SId (SOURCE 5) it is
signalled for, and for a method B pair the frequency it is paired with. -/
structure AfEntry where
  source : Fin 8
  bearer : Fin 7
  freq : BitVec 32
  ident : BitVec 32
  pair : BitVec 32
deriving DecidableEq, Repr

/-- A lane sample that stands out: on branch 1 or on branch 0, its magnitude, and the mean magnitude over the last 1 ms
(R279). -/
structure Peak where
  second : Bool
  mag : Nat
  mean : Nat
deriving DecidableEq, Repr

/-- What an analogue engine finds in one window of 2 ms (R269, R272, R275, R278, R279). -/
structure AnaWin where
  /-- The window counts: no sample was UNSETTLED or INVALID. -/
  counted : Bool
  /-- CNR in quarter dB. -/
  cnr4 : Int
  /-- FM multipath indicator, 0 to 100. -/
  mp : Fin 101
  /-- Carrier level at the balls of branch 0 and strongest adjacent level relative to it, in quarter dB. -/
  level4 : Int
  adj4 : Int
  /-- A pilot measurement of 10 ms ended in the window, with this outcome. -/
  pilot : Option Bool
  /-- The AM carrier PLL is locked. -/
  pll : Bool
  /-- Every branch has been INVALID for 10 ms. -/
  invalid : Bool
  /-- The weight of branch 0 and of branch 1 has stayed 0 for 10 ms. -/
  out0 : Bool
  out1 : Bool
  /-- Shares of the branches in units of 1/255. -/
  w0 : BitVec 8
  w1 : BitVec 8
  /-- Samples of the lanes that stand out in the window, in order (R279). -/
  peaks : List Peak
  /-- Lengths of the runs of marked samples that ended in the window, in samples of the bridge buffer (R278). -/
  runs : List Nat
deriving DecidableEq, Repr

/-- The offset word a block carried (R284). -/
inductive RdsOffset where
  | a | b | c | cPrime | d
deriving DecidableEq, Repr

/-- One RDS block as an engine received it (R283 to R288). -/
structure RdsBlock where
  stream : Fin 4
  offset : RdsOffset
  /-- Length in bits of the error burst that the syndrome matches, 0 for none; above 5 it matches no correctable burst. -/
  burst : Nat
  info : BitVec 16
  /-- Number of the bit of the stream at which the block begins. -/
  bit : Nat
  /-- Time of its first bit, in microseconds of the time base. -/
  start : BitVec 32
  /-- Frequencies that this block completes in an AF list. -/
  afs : List AfEntry
  /-- Whole seconds of UTC that this block completes in a group 4A. -/
  clock : Option Nat
deriving DecidableEq, Repr

/-- A complex number in steps of an engine's arithmetic. -/
structure Cx where
  re : Int
  im : Int
deriving DecidableEq, Repr

/-- One branch in one symbol (R305, R306), carrier by carrier. -/
structure BranchCells where
  /-- The received cells. -/
  cells : List Cx
  /-- The tap that the training of this symbol gives a carrier, where it has some there. -/
  taps : List (Option Cx)
  /-- The noise variance in steps, less one step. -/
  noise : Nat
deriving DecidableEq, Repr

/-- The sums of R306 for one cell: Y_k is `num` / `den` and CSI_k is `den` / `all`. -/
structure Cell where
  num : Cx
  den : Nat
  all : Nat
deriving DecidableEq, Repr

/-- No cell: CSI_k is 0. -/
def Cell.none : Cell := { num := { re := 0, im := 0 }, den := 0, all := 1 }

/-- What an OFDM engine finds in one symbol; bit b of a mask is branch b (R296, R301, R306 to R310). -/
structure OfdmSym where
  /-- The branch's window holds an UNSETTLED or INVALID sample. -/
  marked : BitVec 4
  /-- Its weight has been 0 for 10 ms. -/
  out : BitVec 4
  /-- Neither condition of exclusion has held for 100 ms. -/
  back : BitVec 4
  /-- A training symbol ends with which the branch may enter the sums. -/
  train : BitVec 4
  /-- Mean SNR of each branch over 100 ms, one byte each, in quarter dB. -/
  snr : BitVec 32
  /-- MER of the symbol in quarter dB. -/
  mer4 : Int
  /-- Energy outside the guard interval in -1 dB. -/
  beyond : Fin 61
  /-- Frequency error that remains, in 1/1024 subcarrier spacing; symbol-rate error in 0.1 ppm. -/
  freqErr : Int
  rateErr : BitVec 16
  /-- Where the estimated impulse response would have the FFT window, relative to where it is, in lane output samples. -/
  timeErr : Int
  /-- Common phase error that the continual pilots show, in 2^-20 of a turn. -/
  cpe : BitVec 20
  /-- In DAB, the phases of a phase reference symbol in eighths of a turn; none for another symbol. -/
  prs : Option (List (Fin 8))
  /-- Symbols from one pilot of a carrier to its next, less one (Dy in T2-Lite). -/
  span : Fin 17
  /-- The cells of each branch. -/
  br : List BranchCells
  /-- The sums of an export, by its entry of XREQ, that have come in time for the symbol now combined (R531). -/
  exports : List (Fin 8 × List Cell)
  /-- The frequency residual is inside the tracking limit. -/
  resid : Bool
deriving DecidableEq, Repr

/-- A P1 symbol of a T2 signal (R293): T2-Lite SISO with its FFT size, or one that is ignored. -/
inductive P1Symbol where
  | lite (fft : Fin 4) | base | miso | unknown
deriving DecidableEq, Repr

/-- What an OFDM engine finds in one frame (R297, R302). -/
structure OfdmFrame where
  /-- The training symbol is not marked on every branch. -/
  counted : Bool
  /-- Correlation peak over the floor at the tracked position, in 0.5 dB. -/
  peak2 : Int
  /-- DRM robustness mode identified, A to E. -/
  drmMode : Option (Fin 5)
  p1 : Option P1Symbol
  /-- Carrier offset in 1/1024 subcarrier spacing. -/
  ofs : Int
  /-- Arrival of the frame start in microseconds of the time base. -/
  time : BitVec 32
  resid : Bool
  /-- Other peaks: excess over the current one in 0.5 dB, and timing relative to it in lane output samples. -/
  peaks : List (Nat × Int)
  /-- Every branch has been INVALID for 10 ms. -/
  invalid : Bool
deriving DecidableEq, Repr

/-- An identity that signalling resolves for a Hamper (R319, R326): SId or DRM service ID, and in DAB the EId. -/
structure Resolved where
  ham : Fin 128
  id0 : BitVec 32
  eid : BitVec 16
deriving DecidableEq, Repr

/-- A hard link of FIG 0/6 between a service and one of another bearer (R351). -/
structure HardLink where
  sid : BitVec 32
  bearer : Fin 7
  ident : BitVec 32
deriving DecidableEq, Repr

/-- Signalling that a decoder reads from a block that passed its checks: identities it resolves, frequencies for service following,
hard links, and a broadcast time in whole seconds of UTC (R318, R319, R326, R350, R351, R439). -/
structure Signalling where
  resolves : List Resolved
  afs : List AfEntry
  links : List HardLink
  clock : Option Nat
deriving DecidableEq, Repr

/-- What re-encoding a decoded block shows (R342): the bits of its input, and the hard decisions that differ. -/
structure Flips where
  bits : Nat
  wrong : Nat
deriving DecidableEq, Repr

/-- A FIB (R318): its eight words and CIF count. -/
structure Fib where
  words : List (BitVec 32)
  cif : BitVec 16
  erased : Bool
  flips : Flips
  sig : Signalling
  /-- The CRC-32C of the block holds at the next stage. -/
  intact : Bool
deriving DecidableEq, Repr

/-- A part of the service that a decoder delivers: one block's payload for the Hampers resolved to it (R339). -/
structure Service where
  /-- SubChId, DRM stream or PLP. -/
  stream : BitVec 8
  hams : List (Fin 128)
  /-- A packet of packet-mode data instead of a frame. -/
  packet : Bool
  erased : Bool
  /-- Some correction was needed. -/
  corrected : Bool
  words : List (BitVec 32)
  pad : Fin 4
  /-- The audio frames the block holds, each with the outcome of the check that the decoder makes, if it makes one. -/
  aus : List (Option Bool)
  flips : Flips
  intact : Bool
deriving DecidableEq, Repr

/-- A DAB logical frame (R320); `plus`: it belongs to a DAB+ superframe and is gathered only; `single`: one leg of a
combining pair did not deliver its CIF. -/
structure LogicalFrame where
  cif : BitVec 16
  plus : Bool
  single : Bool
  service : Service
deriving DecidableEq, Repr

/-- A codeword after a Viterbi pass (R322, R323): per byte whether it is in error, and the reliability of its weakest bit. -/
abbrev Codeword := List (Bool × Nat)

/-- One pass over a superframe (R323): its codewords as the Viterbi decoder leaves them, and whether the fire code passes. -/
structure VrsPass where
  words : List Codeword
  fire : Bool
deriving DecidableEq, Repr

/-- A DAB+ superframe (R322 to R325): the passes that would run. -/
structure Superframe where
  cif : BitVec 16
  passes : List VrsPass
  single : Bool
  service : Service
deriving DecidableEq, Repr

/-- A DRM frame (R326): the bits of FAC and SDC, the MSC blocks, occupancy, constellation (1 4-QAM, 2 16-QAM, 3 64-QAM) and
interleaving span in frames that the FAC signals; `erased`: FAC or SDC cells came from an erased symbol. -/
structure DrmFrame where
  frame : BitVec 16
  fac : List Bool
  sdc : Option (List Bool)
  occ : Fin 6
  qam : Fin 4
  span : Nat
  services : List Service
  erased : Bool
  flips : Flips
  sig : Signalling
  intact : Bool
deriving DecidableEq, Repr

/-- The L1 signalling of a T2-Lite frame (R327). -/
structure T2L1 where
  frame : BitVec 16
  preOk : Bool
  postOk : Bool
  fft : Fin 4
  gi : Fin 7
  pp : Fin 8
  ext : Bool
  /-- Densest constellation of the PLPs: 1 4-QAM to 4 256-QAM. -/
  qam : Fin 5
  /-- L1-post content: the change counter announces a change; the content changed with this frame. -/
  announced : Bool
  changed : Bool
  words : List (BitVec 32)
  pad : Fin 4
  /-- Iterations that the decoding of L1-post took, and whether the BCH decoder declared it uncorrectable. -/
  iter : Fin 51
  uncorr : Bool
  /-- PLPs with the common PLP of their group. -/
  common : List (BitVec 8 × BitVec 8)
  flips : Flips
  /-- Cells of it came from an erased symbol. -/
  erased : Bool
  /-- FEC blocks of the frame per Hamper. -/
  blocks : List (Fin 128 × Nat)
  sig : Signalling
  intact : Bool
deriving DecidableEq, Repr

/-- The end of an FEC block in an LDPC/BCH unit (R329, R330): iterations after which every parity equation holds, the bit errors
that are left for the BCH decoder, the ten bytes of the BBFRAME header, and the packets of the BBFRAME, one to a block; a TS packet
begins with the byte in the place of its sync byte, in normal mode its CRC-8. -/
structure LdpcResult where
  parity : Option Nat
  bitErrors : Nat
  header : List (BitVec 8)
  flips : Flips
  gse : Bool
  frame : BitVec 16
  packets : List Service
deriving DecidableEq, Repr

/-- What a combining pair finds in one CIF (R335 to R337): the CSI-weighted soft values of primary and secondary; the skew is
secondary minus primary in 0.1 ms. -/
structure CifPair where
  soft : List (Int × Int)
  sameEid : Bool
  sameFig : Bool
  skew : Int
  complete : Bool
  frameEnd : Bool
  share : BitVec 8
deriving DecidableEq, Repr

/-- Result of a measurement (R353, R354): `wins` holds CNR or MER in quarter dB and the multipath indicator of each window or symbol
counted, `level4` and `snr4` are in quarter dB, `ident` is the identity found, 0 for none, in DAB beside the EId `eid`. -/
structure MeasResult where
  valid : Bool
  detected : Bool
  wins : List (Int × Fin 101)
  level4 : Int
  snr4 : Int
  ident : BitVec 32
  eid : BitVec 16
deriving DecidableEq, Repr

/-- One transmitter of a Beacon measurement (R375); `arrival` in 0.1 microseconds. -/
structure BeaconEntry where
  ident : BitVec 32
  level4 : Int
  snr4 : Int
  arrival : Int
deriving DecidableEq, Repr

/-- A correlation window of 2 s between the two streams of a blend (R362, R363): its normalised peak in 0.01, none when it
holds muted samples; the offset in samples; the level ratio of the streams in 0.1 dB. -/
structure AlignWin where
  peak : Option Nat
  ofs : Int
  ratio : Int
deriving DecidableEq, Repr

/-- A coded audio frame (R367, R370, R372): the outcome of its own check, none without one; whether it can be parsed; its
format, channels, sampling rate code and bit rate; whether it holds dynamic range control data. -/
structure AudioFrame where
  check : Option Bool
  parses : Bool
  format : Fin 6
  channels : Fin 4
  srIn : Fin 4
  kbps : BitVec 16
  drc : Bool
deriving DecidableEq, Repr

/-- What a stream has for the router sample at work (R386, R392): the sound of Hamper `ham` from the chain that supplies it, or, with
`second`, from the chain that a blend fades in. -/
structure PcmIn where
  ham : Fin 128
  second : Bool
  ch0 : BitVec 24
  ch1 : BitVec 24
deriving DecidableEq, Repr

/-- A decoded block that reaches object assembly (R400 to R402, R424): the object it belongs to, where its bytes go in it,
and the announced size; `complete`: the last segment has arrived; `bcheck`: 0 none, 1 passed, 2 failed; `intact`: the
CRC-32C of the block holds; `bad`: the block has UNCORR at 1 or CHECK at 2 (R340). -/
structure AssyBlock where
  bad : Bool
  src : Fin 5
  id : BitVec 32
  offset : Nat
  bytes : List (BitVec 8)
  announced : Option Nat
  complete : Bool
  bcheck : Fin 3
  intact : Bool
deriving DecidableEq, Repr

/-- What an eMMC command was for (R403). -/
inductive EmmcUse where
  | other | objectWrite | envelopeWrite | storeCmd
deriving DecidableEq, Repr

/-- How a mount ends (R404): mounted, or without a valid journal, on an eMMC with this much space for Baskets in MiB, or a
failure state. -/
inductive MountResult where
  | mounted (mib : Fin 16369)
  | noJournal (mib : Fin 16369)
  | noDevice | failed | otherKey
deriving DecidableEq, Repr


/-- Output powers of lanes over the last 1 ms, referred to the input balls, in quarter dBm (R483). -/
abbrev Powers := List (Fin 24 × Int)

/-- What a word of bank 49 behind the Hamper table holds (R508). -/
inductive Bank49 where
  | itin (bank : Fin 2) (entry : Fin 64)
  | queue (n : Fin 128)
  | basket (b : Fin 16)
deriving DecidableEq, Repr

/-- What a read or a write of a memory word meets (R498, R500): a single-bit error, an uncorrectable error with the word
as stored (and, in bank 49, what the word belongs to), a write of the same word by port A in the cycle of the write, or one in
the cycle of the read (R499). -/
inductive MemKind where
  | corrected
  | uncorrectable (stored : BitVec 64) (holds : Option Bank49)
  | collide (data : BitVec 64)
  | portA (data : BitVec 64)
deriving DecidableEq, Repr

/-- One such event, at a byte address of the SRAM window. -/
structure MemHit where
  addr : BitVec 24
  kind : MemKind
deriving DecidableEq, Repr

/-- A block that a Viterbi/RS unit had partly decoded for a Hamper, with its KIND and STREAM (R62, R345). -/
structure VrsCut where
  ham : Fin 128
  kind : Fin 11
  stream : BitVec 8
deriving DecidableEq, Repr

/-- What a register access may depend on outside the device's own state: lane powers for a probe command that it starts,
the devices of the cascade (bit d) whose CAL_INPUT page is enabled (R532), the memory errors that its words meet, and the
blocks that a Viterbi/RS unit has partly decoded (R345). -/
structure Facts where
  pow : Powers
  rfin : BitVec 4
  hits : List MemHit
  /-- A QSPI frame is in progress as the access is performed (R145). -/
  frame : Bool
  vrs : List VrsCut
deriving DecidableEq, Repr

/-- What the measurement of a probe point finds (R490): return loss in 0.1 dB, phase in 360/1024 degrees, forward and
reflected level in quarter dB. -/
structure ProbeReading where
  rl10 : Fin 401
  phase : BitVec 10
  fwd : BitVec 16
  refl : BitVec 16
deriving DecidableEq, Repr

/-- A bin of a spectrum of the loopback ADC (R487): close-in or wideband, its edges in Hz, and its level against the total probe
power in quarter dB. -/
structure SpecBin where
  close : Bool
  lo : Nat
  hi : Nat
  level : Int
deriving DecidableEq, Repr

/-- What a reading of OTP finds (R84, R128): fuse fences per cluster, a word corrected, a word uncorrectable. -/
structure OtpRead where
  fuses : BitVec 4
  corrected : Bool
  failed : Bool
  badKeys : List (Fin 8 × Fin 4)
deriving DecidableEq, Repr

/-- The header of a QSPI frame as received (R135). -/
structure FrameHead where
  cmd : BitVec 8
  addr : BitVec 24
  len : BitVec 16
  hcrc : BitVec 16
deriving DecidableEq, Repr

/-- A target transaction up to the point where it is abandoned (R169): the bytes written after the address byte, or how many
data bytes were delivered, with the words that were not ready. -/
inductive TwiPart where
  | write (bytes : List (BitVec 8))
  | read (n : BitVec 16) (late : List Nat)
deriving DecidableEq, Repr

/-- One constructor per row of spec/opcode_table.json. `lvl` is the initiator level of a register access (R113), `i`, `n`,
`c` and `q` are instances (input, lane or Hamper, cluster, queue). -/
inductive Instr where
  /-- All five rails have stayed at or above their brown-out thresholds for 1 ms without interruption, and the internal power-on reset releases (R70). -/
  | powerOnResetRelease
  /-- At the later of power-on-reset release and RESET_N recognised high, the straps are sampled once into the AON island and the cold boot begins (R36). The operands are the connections of the strap balls. -/
  | strapSample (role1 : StrapTie) (role0 : StrapTie) (addr1 : StrapTie) (addr0 : StrapTie) (bootSrc : StrapTie) (testen : StrapTie)
  /-- RESET_N is low after its glitch filter and causes a cold reset recorded as PIN (R89). -/
  | resetNLow
  /-- A rail stays below its brown-out threshold for 2 µs or is removed, causing a cold reset recorded as BOR with the rail named (R71). Rail `r`; `coreLost`: VDD_CORE fell below its power-on threshold. -/
  | brownOut (r : Fin 5) (coreLost : Bool)
  /-- A rail stays below its warning threshold for 2 µs; its SUPPLY_LOW bit is set and PWR cause SUPPLY_LOW is raised (R71). Rail `r`. -/
  | supplyLow (r : Fin 5)
  /-- The amplitude detector has reported valid swing for 2048 XO cycles, the XO is declared stable, and XO-derived clocks and the root PLL may start (R50). `rc` is the time without XO in RC cycles, `o` what a reading of OTP finds. -/
  | xoStable (rc : Nat) (o : OtpRead)
  /-- While watched, no XO edge arrives within 2 RC cycles; AON switches to the RC, other domains stop and INT_N is driven low until the XO returns and a warm reset follows (R51). -/
  | xoFail
  /-- An unwatched XO start has not reached its stable declaration within 20 ms; INT_N is driven low and the oscillator is restarted for another attempt (R560). -/
  | xoStartTimeout
  /-- The patch image has been read from the eMMC boot partition and its signature verification begins (R557). -/
  | patchImageReadDone
  /-- The eMMC has not become ready within 1 s during boot; the device sets WAIT_HOST and waits for an image through the host port (R93). -/
  | emmcReadyTimeout
  /-- Verification of a patch image ends; on success READY is set and BOOT_DONE raised, and on failure PATCH_FAIL is set (R93). `ver` is the version of the image. -/
  | patchVerifyDone (ok : Bool) (ver : BitVec 16)
  /-- A write of 0x5A to SYS.RESET_CMD.CMD starts a warm reset that stops all activity and reboots from the retained patch image (R89). -/
  | warmResetCmd (lvl : Fin 4)
  /-- A write of 0xA5 to SYS.RESET_CMD.CMD restarts the host watchdog count (R94). -/
  | watchdogRestart (lvl : Fin 4)
  /-- The host watchdog count expires and causes a warm reset recorded as WDOG (R94). -/
  | watchdogExpiry
  /-- The host watchdog reaches 75 % of TIMEOUT since its last restart and raises WDOG_WARN (R127). -/
  | wdogWarn
  /-- The management controller's internal watchdog expires and causes a warm reset recorded as MGMT_WDOG (R509). -/
  | mgmtWatchdogExpiry
  /-- Boot after a warm reset completes, either from the retained patch image or, if its CRC fails, from BOOT_SRC (R92). `ok` says that the CRC-32C of the retained image holds, `o` is what the reading of the fuses finds. -/
  | warmBootDone (ok : Bool) (o : OtpRead)
  /-- The lock detector declares loss of the root PLL; root-derived domains move to fallback or stop, datapath units halt and ROOT_LOSS is raised (R62). `cut` are the blocks that a Viterbi/RS unit has partly decoded. -/
  | rootLockLoss (cut : List VrsCut)
  /-- At t0 + k × 1 ms a relock attempt starts, reloading the dither seed and recalibrating the VCO (R63). -/
  | relockAttempt
  /-- A relock attempt has not locked within 180 µs; RELOCK_TRY is raised, and RELOCK_FAIL is raised after FAIL_THR consecutive failures (R63). -/
  | relockAttemptFail
  /-- The phase error has stayed within PHASE_THR for QUAL_CYCLES XO cycles; lock is qualified and RELOCK is raised (R64). -/
  | relockQualified
  /-- At the next common boundary after relock, domains return to the root, held commits apply, RETURN is raised and inputs recalibrate (R64). -/
  | rootReturn
  /-- A write of 1 to CLK.DIV_COMMIT.COMMIT requests the staged SAMP rates to be applied at the next common boundary (R58). -/
  | divCommit (lvl : Fin 4)
  /-- At a common boundary the staged SAMP rates are taken into use, lanes on changed inputs restart, and DIV_APPLIED is raised (R58). -/
  | divApply
  /-- A change of DITHER_EN takes effect at the next common boundary without changing any domain frequency (R53). -/
  | ditherEnApply
  /-- Every 100 µs the crystal drive moves one step towards a newly written DRIVE value (R68). -/
  | xoDriveStep
  /-- A write of 1 to CLK.XO_STAT.CLEAR clears XO_FAIL (R68). -/
  | xoFailClear (lvl : Fin 4)
  /-- The count of XO cycles over 1024 RC cycles ends; the ratio is stored or rejected with RC_CAL_FAIL, and Standby → Sleep may follow (R59). `count` is the number of XO cycles over 1024 RC cycles. -/
  | rcCalibrationDone (count : BitVec 24)
  /-- A write of PWR.STATE_REQ.HOST_REQ changes the resolved target state and starts a transition towards it (R74). -/
  | stateRequestWrite (lvl : Fin 4) (req : Fin 4)
  /-- A radio-state transition completes; the device compares the state reached with the target and either continues or raises STATE_DONE (R75). `pow` serves a probe command that begins with it; `imgOk` is the CRC-32C check of the patch image at a wake. -/
  | stateTransitionDone (pow : Powers) (imgOk : Bool)
  /-- The signature engine and object assembly have drained, so the descent from Synth On to Standby proceeds (R77). -/
  | drainDone
  /-- The descent wait reaches 200 ms; pending work is discarded and counted, and the descent proceeds (R77). -/
  | drainTimeout
  /-- A falling edge on QSPI_CS_N in Sleep wakes the device; the frame is not answered (R80). `others` are the flags of further sources of R80 in the same AON cycle. -/
  | wakeQspi (others : BitVec 4)
  /-- The Sleep matcher recognises START and the port's own address, leaves it unacknowledged and wakes the device (R176). `others` as for WAKE_QSPI. -/
  | wakeTwi (others : BitVec 4)
  /-- PWR.WAKE_TIMER AON periods have elapsed since Sleep entry and the device wakes (R80). `others` as for WAKE_QSPI. -/
  | wakeTimer (others : BitVec 4)
  /-- A masked GPIO ball holds its wake level for 2 AON cycles and the device wakes (R80). Ball `g` at `level`; `others` as for WAKE_QSPI. -/
  | wakeGpio (g : Fin 8) (level : Bool) (others : BitVec 4)
  /-- Standby → Synth On fails to lock within 180 µs; the device stays in Standby and raises STATE_FAIL once per failed sequence (R81). -/
  | synthLockFail
  /-- 1 ms after a failed lock, with the target still at Synth On or above, Standby → Synth On is tried again (R81). -/
  | synthLockRetry
  /-- A cluster leaving idle-off or fence finishes its 20 µs power-up, and bank initialisation or self-test begins (R83). -/
  | clusterPowerUpDone (c : Fin 4)
  /-- Every word of a cluster's 12 banks has been written with zero and valid ECC (R83). -/
  | bankInitDone (c : Fin 4)
  /-- At the next common boundary after bank initialisation, a cluster's clocks start and pending lane applications take effect (R83). -/
  | clusterClockStart (c : Fin 4)
  /-- By t0 + 10 µs after a fence decision, power is removed from the fenced cluster (R85). -/
  | fencePowerOff (c : Fin 4)
  /-- The cluster clock monitor finds a cluster clock stopped while ungated, and the cluster is fenced for Fault (R84). -/
  | clusterClockStopped (c : Fin 4)
  /-- A write of 1 to a PWR.CLUS_CTRL.UNFENCE bit judges each fence reason, lifts those allowed, and starts the unfence sequence if no reason remains (R86). `mask` has a bit per cluster; IDLE_OFF keeps its value. -/
  | unfenceRequest (lvl : Fin 4) (mask : BitVec 4)
  /-- A cluster's 200 µs self-test ends; on pass, bank initialisation follows, and on failure the cluster is fenced for Fault (R86). -/
  | selftestDone (c : Fin 4) (pass : Bool)
  /-- Every 1 ms the five temperature sensors are sampled and the warning, fence, critical-hold and unfence thresholds are judged (R88). The readings, in degrees plus 64. -/
  | tempSample (t0 : BitVec 8) (t1 : BitVec 8) (t2 : BitVec 8) (t3 : BitVec 8) (centre : BitVec 8)
  /-- A write to a register without behaviour of its own is checked for alignment, address, rights, lock and range, then stored or rejected (R110). `lvl` is the initiator level of R113, `x` what the world contributes to the effect. -/
  | registerWrite (lvl : Fin 4) (a : BitVec 24) (w : Word) (x : Facts)
  /-- A write of 1 to PAGE_CTRL.SOFT_RST starts a page reset, or is refused on the protected or locked pages (R105). `page` is the index of R98. -/
  | pageSoftReset (lvl : Fin 4) (page : Fin 78) (x : Facts)
  /-- A page reset completes within 64 PER cycles and raises SYS cause PAGE_RESET (R105). `page` is the index of R98. -/
  | pageResetDone (page : Fin 78)
  /-- A change of PAGE_CTRL.LEVEL switches a page between Basic and Expert, re-deriving fields where needed, and raises LEVEL_CHANGED (R109). EN keeps its value. -/
  | pageLevelWrite (lvl : Fin 4) (page : Fin 78) (expert : Bool)
  /-- A write to PAGE_CTRL.EN enables or disables a block, with the effect stated in the block's chapter (R106). LEVEL keeps its value. -/
  | pageEnableWrite (lvl : Fin 4) (page : Fin 78) (on : Bool) (x : Facts)
  /-- A write to PAGE_LOCK sets or clears LOCK or sets PERM, with clearing writes checked against KEY (R107). `w` is the word written to PAGE_LOCK. -/
  | pageLockWrite (lvl : Fin 4) (page : Fin 78) (w : Word)
  /-- A W1C write to a page's CAUSE clears latched causes, updating IRQ.SUMMARY and possibly releasing INT_N (R123). `m` is the byte written to CAUSE. -/
  | causeClear (lvl : Fin 4) (page : Fin 78) (m : BitVec 8)
  /-- A write of 1 to a CAUSE_FORCE bit sets the cause as if its event had occurred (R106). `m` is the byte written. -/
  | causeForce (lvl : Fin 4) (page : Fin 78) (m : BitVec 8)
  /-- A write to CAUSE_EN decides which set causes reach IRQ.SUMMARY, asserting INT_N at once for bits already set (R106). `m` is the byte written. -/
  | causeEnableWrite (lvl : Fin 4) (page : Fin 78) (m : BitVec 8)
  /-- A write to PROT.ART changes access rights at the end of its PER cycle and raises ART_CHANGED (R115). Word `k` of the table. -/
  | artWrite (lvl : Fin 4) (k : Fin 21) (w : Word)
  /-- A write of 1 to PROT.CTRL.CLR_COUNT clears both fields of PROT.COUNT (R131). -/
  | protCountClear (lvl : Fin 4)
  /-- A write to IRQ.INT_CFG changes the INT_N enable, output mode or edge-gap behaviour within one PER cycle (R124). -/
  | intCfgWrite (lvl : Fin 4) (w : Word)
  /-- The 1 µs release of INT_N under EDGE_GAP ends and INT_N is asserted again (R124). -/
  | intEdgeGapEnd
  /-- A QSPI read frame (command 0x10, 0x14 or 0x18) is checked and its words are fetched and returned with STATUS and SCRC (R142). `late` are the words not ready at their first bit, `x` what the words met. -/
  | qspiRead (h : FrameHead) (late : List (Fin 4096)) (x : Facts)
  /-- A QSPI write frame (command 0x20, 0x24 or 0x28) is collected into a free buffer after DCRC verifies, or discarded with BUSY (R143). `data` are the words clocked in, `dcrc` the check that follows them. -/
  | qspiWrite (h : FrameHead) (data : List Word) (dcrc : BitVec 16)
  /-- A buffered write frame's words are presented to the register bus one per PER cycle, and HOST.LAST_WR is updated (R144). The oldest buffered frame. -/
  | writeFramePerform (x : Facts)
  /-- QSPI_CS_N rises before a frame is complete; a write frame is discarded and CMD_ERR is raised (R146). `got` header bytes were received; of a read `words` words were clocked whole, `ahead` more fetched ahead, and those of `late` not ready at their first bit. -/
  | qspiTruncated (h : FrameHead) (got : Fin 9) (words : Fin 4097) (ahead : Fin 9) (late : List (Fin 4096)) (x : Facts)
  /-- No SCK edge arrives for HOST.CFG.TIMEOUT while CS_N is low; the frame is abandoned and TIMEOUT is raised (R146). As for QSPI_TRUNCATED. -/
  | qspiSckTimeout (h : FrameHead) (got : Fin 9) (words : Fin 4097) (ahead : Fin 9) (late : List (Fin 4096)) (x : Facts)
  /-- A written HOST.CFG takes effect at the end of the QSPI frame in progress and MODE_CHANGED is raised (R145). -/
  | hostCfgApply
  /-- A write of 1 to HOST.CTRL.CLR_COUNT clears both fields of HOST.COUNT (R157). -/
  | hostCountClear (lvl : Fin 4)
  /-- A write of c to QW[n].RELEASE removes the first c published words of queue n if they end a packet (R152). -/
  | queueRelease (lvl : Fin 4) (n : Fin 128) (c : BitVec 16)
  /-- A write of 1 to HOST.IMG_CTRL.START begins reception of a patch image through the image FIFO (R153). -/
  | imgStart (lvl : Fin 4)
  /-- A write of 1 to HOST.IMG_CTRL.ABORT discards the image being received, or is rejected while verifying (R154). -/
  | imgAbort (lvl : Fin 4)
  /-- A word written into the image FIFO is appended to the patch image being received (R153). The word at offset 0x800 + 4 `k`. -/
  | imgFifoWrite (lvl : Fin 4) (k : Fin 512) (w : Word)
  /-- A Two-Wire transaction of address + W and three pointer bytes loads TGT_PTR (R163). `bytes` follow the address byte. -/
  | twiPointerWrite (bytes : List (BitVec 8)) (x : Facts)
  /-- A Two-Wire transaction writes data bytes assembled into words and presents each word to the register bus, with optional PEC (R164). `bytes` follow the address byte: three pointer bytes, data bytes, and PEC bytes where they are due. -/
  | twiRegisterWrite (bytes : List (BitVec 8)) (x : Facts)
  /-- A Two-Wire read transaction delivers bytes from TGT_PTR onward, fetching words ahead, until the controller NACKs (R165). `n` data bytes are delivered; `late` are the words not ready, counted from the first. -/
  | twiRegisterRead (n : BitVec 16) (late : List Nat) (x : Facts)
  /-- A START arrives in the ACK slot of a byte the port sent as target; the pointer steps back and SR_AT_ACK is raised (R168). `n` data bytes were delivered before the byte that was not. -/
  | srAtAck (n : BitVec 16) (late : List Nat) (x : Facts)
  /-- SCL stays low or high beyond SCL_TO during a target transaction; the port releases SDA and abandons the transaction (R169). -/
  | twiSclTimeout (t : TwiPart) (x : Facts)
  /-- A write of TWI.CTL_CMD with START at 1 requests a controller transfer, or ends it at once with RESULT 7 while STUCK (R170). `w` is the word written to CTL_CMD; START is 1. -/
  | ctlStart (lvl : Fin 4) (w : Word)
  /-- The bus is free and the port issues START for a waiting controller transfer or retry (R171). -/
  | ctlTransferBegin
  /-- The bus has not become free within SCL_TO and the controller transfer ends with RESULT 6 (R171). -/
  | ctlBusNotFree
  /-- The port sees SDA differ from the bit it drives, releases the bus, continues as target and schedules a retry (R173). `ibr`: an In-Band Request lost it; otherwise `wrote` bytes were written and `rx` read in the lost try. -/
  | arbLost (ibr : Bool) (wrote : Fin 33) (rx : List (BitVec 8))
  /-- A controller transfer receives a NACK on an address or written data byte and ends with STOP and RESULT 2 or 3 (R174). `addr`: on an address byte; `wrote` bytes were written and acknowledged. -/
  | ctlNack (addr : Bool) (wrote : Fin 33)
  /-- SCL has been held low beyond SCL_TO during a controller transfer; the port releases both lines and ends with RESULT 5 (R172). `wrote` bytes were written, `rx` read. -/
  | ctlSclHeld (wrote : Fin 33) (rx : List (BitVec 8))
  /-- A controller transfer ends and CTL_DONE is set with its result, byte counts and tries (R174). `rx` are the bytes read. -/
  | ctlDone (rx : List (BitVec 8))
  /-- A write of 1 to TWI.RECOVER.RECOVER, or the end of a reset, makes the port watch the lines and run a recovery attempt if SDA is stuck low (R175). `lvl` writes RECOVER; none for the end of a reset. `stuck` is what the 10 us of watching find. -/
  | busRecover (lvl : Option (Fin 4)) (stuck : Bool)
  /-- A recovery attempt of up to nine SCL pulses ends with STOP or with SDA still low, raising BUS_STUCK and possibly setting STUCK (R175). `freed`: SDA read high. -/
  | recoveryAttemptDone (pulses : Fin 10) (freed : Bool)
  /-- 10 ms after a failed recovery attempt the port tries again, up to three retries (R175). -/
  | recoveryRetry
  /-- With a request queued and the bus free for IDLE, the port issues START and sends its address and the request byte (R180). `ack`: the controller accepts in the ninth clock; it clocks `extra` bytes beyond the request byte. -/
  | ibrSend (ack : Bool) (extra : BitVec 8)
  /-- The controller does not clock SCL within IBR_CFG.TIMEOUT; the port releases SDA and keeps the request queued (R180). -/
  | ibrSclTimeout
  /-- After a declined, timed-out or lost In-Band Request, the RETRY interval elapses and the request is tried again (R180). -/
  | ibrRetry
  /-- An Alert Response Address read arrives while ALERT_N is asserted; the port arbitrates its address and, on a win, releases ALERT_N (R182). `win`: the port wins the arbitration of its address. -/
  | araRead (win : Bool)
  /-- A 4096-sample RMS window gives its result at a common boundary, updating RFIN.LEVEL and applying the Fast gain step (R561). `rms4` is the RMS level of the window in quarter dBFS. -/
  | agcWindowEnd (i : Fin 4) (rms4 : Int)
  /-- A Frozen-state step slot falls due and G changes if the measured level differs from TARGET by more than HYST (R191). `rms4` is the RMS level since the previous slot in quarter dBFS. -/
  | agcStepSlot (i : Fin 4) (rms4 : Int)
  /-- More than OVL_COUNT full-scale samples fall in a 1024-sample window; OVERLOAD is raised and a negative gain step is scheduled (R192). `full` is the number of full-scale samples of one window of 1024, `recent` says that an extra slot occurred in the last 100 microseconds. -/
  | overload (i : Fin 4) (full : Nat) (recent : Bool)
  /-- A change of G takes effect at a common boundary, compensated in each lane and marked as a gain step (R187). -/
  | gainStepApply (i : Fin 4)
  /-- A write changing MODE to 1, MAN_LNA or MAN_ATT requests a compensated manual step at the next common boundary (R194). `w` is the word written to GAIN_CTRL. -/
  | manualGainWrite (lvl : Fin 4) (i : Fin 4) (w : Word)
  /-- A write of 1 to RFIN.CAL.RECAL requests an input calibration (R195). -/
  | recal (lvl : Fin 4) (i : Fin 4)
  /-- A 40 µs input calibration ends with pass (CAL_DONE, AGC restart) or failure (CAL_FAIL, input powered down and unavailable) (R196). `res` is the outcome. -/
  | calibrationDone (i : Fin 4) (res : CalResult)
  /-- A new FILT_SEL code is applied at a common boundary and the following SETTLE µs of samples are marked unsettled (R199). -/
  | filtSelChange (i : Fin 4)
  /-- The FILT_CTRL.SETTLE interval after a filter change ends and lanes run the final marked count (R199). -/
  | filtSettleEnd (i : Fin 4)
  /-- Every 100 µs ANT_ISENSE is read and judged for short, open or clear conditions (R203). `mv` is the reading in millivolts. -/
  | antSenseSample (i : Fin 4) (mv : Nat)
  /-- RETRY_MS after a short, the antenna supply is switched on again and RETRY_LEFT is decremented (R203). -/
  | antRetry (i : Fin 4)
  /-- BLANK_MS after ANT_PWR_EN rises, sense readings begin to be judged (R203). -/
  | antBlankEnd (i : Fin 4)
  /-- A write of 1 to ANT_CTRL.REARM sets FAULT 0, reloads RETRY_LEFT and drives the output as MODE selects (R203). `w` is the word written to ANT_CTRL, with REARM at 1. -/
  | antRearm (lvl : Fin 4) (i : Fin 4) (w : Word)
  /-- At a common boundary a Basic PLACE update or staged Expert fields are applied to a lane, raising RETUNED if anything changed (R211). -/
  | laneApply (n : Fin 24)
  /-- A write of 1 to LANE.X_APPLY.APPLY requests the staged Expert fields to be applied at the next common boundary (R211). -/
  | laneXApply (lvl : Fin 4) (n : Fin 24)
  /-- A write of 1 to LANE.X_APPLY.SWAP requests an FIR bank swap at the next common boundary (R220). -/
  | laneSwap (lvl : Fin 4) (n : Fin 24)
  /-- The FIR bank swap takes effect at the first FIR output after the boundary and BANK_SWAPPED is raised (R220). -/
  | bankSwap (n : Fin 24)
  /-- An engine, the cascade or the host writes a lane delay target in jump or slew mode (R225). `who` writes it; `target` is in 1/64 output samples. -/
  | delayTargetWrite (n : Fin 24) (who : DelayWriter) (slew : Bool) (target : BitVec 14)
  /-- A jump-mode delay target applies at the first output after the next common boundary, marking the sample and raising DELAY_SET (R225). -/
  | delayJump (n : Fin 24)
  /-- Every 64 output samples a slewing delay moves 1/64 sample towards its target, raising DELAY_SET when reached (R225). -/
  | delaySlewStep (n : Fin 24)
  /-- The fed engine requests a resampler ratio trim, which is clamped and applied at the next output sample (R224). `trim` is in units of 2^-32. -/
  | trimRequest (n : Fin 24) (trim : Int)
  /-- The last UNSETTLED sample of a run leaves the lane and SETTLED is raised (R235). -/
  | settled (n : Fin 24)
  /-- A 1 ms window ends and the level-type SATURATED cause and SAT_EVENTS count are updated (R230). `sat` says that the window held a saturated sample. -/
  | satWindow (n : Fin 24) (sat : Bool)
  /-- A write through the Hamper table window stores a range-checked request word, or is rejected in the report section (R237). Word `k` of Hamper `n`. -/
  | hamperWrite (lvl : Fin 4) (n : Fin 128) (k : Fin 128) (w : Word) (x : Facts)
  /-- A write of 1 to a PLACE.COMMIT bit marks a Hamper for take-up by the next pass (R245). `w` is written to COMMIT[k]. -/
  | placeCommit (lvl : Fin 4) (k : Fin 4) (w : Word)
  /-- Within 2 µs of a trigger, PLACE starts a pass on a snapshot of committed requests and available resources (R244). -/
  | passStart
  /-- A pass ends by publishing every decision into the Hamper reports, setting EVENT bits, raising SERVICE causes and staging rates (R262). -/
  | passPublish
  /-- A Hamper's QUAL has stayed below MIN_QUAL for ADD_DWELL, triggering a pass that seeks more branches (R251). -/
  | qualityTrigger (n : Fin 128)
  /-- At most once per second, with HOT_SHED at 1, PLACE moves the lowest-priority movable chain out of a hot cluster (R255). -/
  | hotShed
  /-- A 2 ms analogue window ends and CNR and QUAL drive the Search, Detected, Locked and LOST transitions (R269). -/
  | anaWindow (e : Fin 16) (w : AnaWin)
  /-- ACQ_TIMEOUT elapses in Search without DETECTED and TIMEOUT is raised once (R269). -/
  | anaAcqTimeout (e : Fin 16)
  /-- At each bandwidth dwell the engine moves the channel filter one code narrower or wider, swapping lane banks and raising CFG_CHANGE (R281). `adj4` is ADJ_DBC in quarter dB. -/
  | anaBwDecision (e : Fin 16) (adj4 : Int)
  /-- An RDS block is received and corrected, updating block sync, PI confirmation and group completion (R284). -/
  | rdsBlock (e : Fin 16) (b : RdsBlock)
  /-- An OFDM symbol is processed on each branch, equalised and combined, and its cells are passed to the FEC unit (R296). -/
  | ofdmSymbol (e : Fin 8) (y : OfdmSym)
  /-- A frame's training is correlated and frame sync, detection, locking, capture and loss are judged (R297). -/
  | ofdmFrame (e : Fin 8) (f : OfdmFrame)
  /-- The bearer's search timeout elapses without DETECTED and TIMEOUT is raised once (R297). -/
  | ofdmAcqTimeout (e : Fin 8)
  /-- A FIB is decoded and CRC-checked, feeding LOCKED, identity resolution and signalling (R318). -/
  | fibDecoded (e : Fin 8) (f : Fib)
  /-- A DAB logical frame leaves the time deinterleaver and is Viterbi-decoded and delivered (R320). -/
  | logicalFrameDecoded (e : Fin 8) (f : LogicalFrame)
  /-- Iterative decoding of a DAB+ superframe ends and the superframe is delivered, flagged UNCORR if needed (R325). -/
  | superframeDecoded (e : Fin 8) (f : Superframe)
  /-- At the signalled CIF count a multiplex reconfiguration takes effect and changed subchannels restart their deinterleavers (R321). `subs` are the subchannels whose organisation changes, `gone` the Hampers whose component is removed. -/
  | reconfigApply (e : Fin 8) (subs : List (Fin 64)) (gone : List (Fin 128))
  /-- A DRM frame's FAC, SDC and MSC streams are decoded by multilevel decoding and delivered (R326). -/
  | drmFrameDecoded (e : Fin 8) (f : DrmFrame)
  /-- A T2-Lite frame's L1-pre and L1-post are decoded before its PLP blocks (R327). -/
  | t2L1Decoded (e : Fin 8) (f : T2L1)
  /-- An FEC block reaches its Hamper's FIFO at an LDPC/BCH unit, or is discarded at a full FIFO with OVERRUN (R333). `who` is the Hamper of the block, none for L1; `common` marks a block of a common PLP. -/
  | ldpcBlockArrive (e : Fin 8) (who : Option (Fin 128)) (plp : BitVec 8) (common : Bool)
  /-- A free LDPC/BCH unit takes the next block by L1 first, priority, then round robin, applying the load cap (R332). -/
  | ldpcBlockStart (u : Fin 2)
  /-- LDPC and BCH decoding of a block end, and mode adaptation delivers its packets or discards it (R329). -/
  | ldpcBlockDone (u : Fin 2) (r : LdpcResult)
  /-- A block waits longer than WAIT_US before starting and POOL_WAIT is raised (R333). `who` names the FIFO, none for L1. -/
  | poolWait (u : Fin 2) (who : Option (Fin 128))
  /-- Both legs' deinterleaved CIFs of one count are summed and decoded once, with combining turned on or off as its conditions require (R335). -/
  | cifCombine (u : Fin 4) (c : CifPair)
  /-- A 1 s window ends and each engine's BER estimate and the BER_WARN condition are updated (R342). -/
  | berWindow
  /-- A Rambler, Scan or Beacon lane is retuned to a candidate, borrows an engine and begins a measurement (R353). -/
  | measureStart (w : Fin 128)
  /-- A measurement waiting for a free engine retries after 10 ms (R354). -/
  | measureEngineRetry (w : Fin 128)
  /-- A measurement ends at its dwell, records its result, returns the engine and updates candidate qualification (R353). -/
  | measureDone (w : Fin 128) (r : MeasResult)
  /-- An FM Verify measurement ends on a confirmed PI or after 300 ms, leading to a follow request or AF_FAIL (R359). -/
  | verifyDone (w : Fin 128) (r : MeasResult)
  /-- FEC.FOUND has not set within 2 s of a DAB or DRM follow publication; the switch is undone and AF_FAIL is raised (R359). -/
  | foundTimeout (n : Fin 128)
  /-- The BAD_HOLD time of a candidate that failed identity verification ends and it may be switched to again (R352). `bearer` and `freq` name the candidate of Hamper `w`. -/
  | badHoldExpiry (w : Fin 128) (bearer : Fin 7) (freq : Word)
  /-- A 2 s correlation window between old and new streams ends and may fix the blend offset or fail alignment (R362). -/
  | alignWindow (n : Fin 128) (win : AlignWin)
  /-- The crossfade ends at a zero crossing; the old chain is released and BLEND_DONE is raised (R364). -/
  | blendDone (n : Fin 128)
  /-- A standing delay is removed by speeding up, and the blend region is released when it reaches 0 (R365). -/
  | standingDelayRemoved (n : Fin 128)
  /-- An audio decode engine decodes a ready frame, concealing or muting bad frames and detecting format changes (R369). -/
  | audioFrameDecode (e : Fin 6) (f : AudioFrame)
  /-- Every BEACON_CFG.PERIOD_S a Beacon lane measures and writes a header and transmitter entries, raising BEACON (R375). `entries` are the transmitters found. -/
  | beaconPeriod (w : Fin 128) (r : MeasResult) (entries : List BeaconEntry)
  /-- At each 48 kHz frame sync a port sends a frame, applying a staged mask and handling underrun and rejoin (R381). `pcm` holds what the streams have for the router sample that is due. -/
  | audFrameSync (n : Fin 4) (pcm : List PcmIn)
  /-- A write to SLOT_MASK.MASK stages a mask to be taken into use at the next frame sync (R389). -/
  | audMaskWrite (lvl : Fin 4) (n : Fin 4) (w : Word)
  /-- A write of 1 to AUD.CTRL.START starts the port at its next frame sync (R390). `w` is the word written to CTRL, with START at 1. -/
  | audStart (lvl : Fin 4) (n : Fin 4) (w : Word)
  /-- A write of 1 to AUD[0].GROUP.GO starts every armed port together (R390). -/
  | audGroupGo (lvl : Fin 4)
  /-- A write of 1 to AUD.CTRL.STOP ends the port after its current frame (R391). `w` is the word written to CTRL, with STOP at 1. -/
  | audStop (lvl : Fin 4) (n : Fin 4) (w : Word)
  /-- A target port receives an FSYNC period other than N × W BCLKs, re-frames and raises CLK_ERR (R385). `pcm` as for AUD_FRAME_SYNC, in the frame of this port that begins. -/
  | audFsyncError (n : Fin 4) (pcm : List PcmIn)
  /-- No BCLK edge arrives for 83.3 µs at a target port; CLK_ERR is raised and DOUT holds (R385). -/
  | audBclkLoss (n : Fin 4)
  /-- The target elastic buffer comes within one frame of an end, and the port drops or repeats a frame with CLK_ERR (R384). `drop`: the buffer is full, else empty. -/
  | audSlip (n : Fin 4) (drop : Bool)
  /-- A requested mute, unmute, route change or crossfade end is made on a channel at its first zero crossing (R394). -/
  | zcChange (n : Fin 4) (p : Fin 8) (right : Bool)
  /-- A channel has not crossed zero within ZC.TIMEOUT_MS; the change is made by a 64-sample ramp (R394). -/
  | zcTimeout (n : Fin 4) (p : Fin 8)
  /-- A write to AUD.MUTE requests a mute or unmute of pairs at a zero crossing (R394). -/
  | audMuteWrite (lvl : Fin 4) (n : Fin 4) (w : Word)
  /-- A decoded block reaches object assembly and is added to an object in the Hamper's assembly region (R400). -/
  | assyBlock (h : Fin 128) (b : AssyBlock)
  /-- An object in assembly receives no new segment for ASSY_TO_S and is discarded (R402). `src` and `id` name the object. -/
  | assyTimeout (h : Fin 128) (src : Fin 5) (id : BitVec 32)
  /-- An eMMC command fails its CRC or times out and is retried, counting a final failure after three retries (R403). `final` marks the failure after three retries, `use` what the command was for. -/
  | emmcCommandFail (final : Bool) (use : EmmcUse)
  /-- The store mount ends with the journal read and Basket metadata rebuilt, or in a failure state (R404). -/
  | storeMountDone (r : MountResult)
  /-- An object's journal record is written after its data blocks, committing it to its Basket (R405). -/
  | objectCommit
  /-- STORE.CMD OP 1 fills the read window with 2048 bytes of an object and loads OBJ_META (R410). -/
  | storeRead (lvl : Fin 4) (w : Word)
  /-- STORE.CMD OP 2 loads OBJ_META with the next committed object of a Basket (R410). -/
  | storeNext (lvl : Fin 4) (w : Word)
  /-- STORE.CMD OP 3 deletes an object (R410). -/
  | storeDelete (lvl : Fin 4) (w : Word)
  /-- STORE.CMD OP 4 deletes the oldest or all objects of a Basket, keeping unacknowledged notices (R410). -/
  | storeTrim (lvl : Fin 4) (w : Word)
  /-- STORE.CMD OP 5 with KEY 0xA5 writes a new journal and disables every Basket (R410). -/
  | storeFormat (lvl : Fin 4) (w : Word)
  /-- A store command ends and RESULT.DONE is set with its code (R410). `intact` says that the CRC-32C of an object read holds. -/
  | storeCmdDone (intact : Bool)
  /-- A write to STORE.BASKET.CFG changes enable, flags or quota, possibly entering or leaving OVER (R409). -/
  | basketCfgWrite (lvl : Fin 4) (b : Fin 16) (w : Word)
  /-- The signature engine ends its checks of a CSE envelope, accepting, repeating or rejecting it (R414). `intact` says that the CRC-32C of the object holds at the signature engine. -/
  | envelopeVerifyDone (intact : Bool)
  /-- An accepted envelope is committed, the slot's high-water is advanced and NOTICE is raised for a Fleet Notice (R417). -/
  | envelopeCommit
  /-- DATA.KEY_PROG OP 1 burns KEY_BUF as generation 0 of a slot (R419). -/
  | keyBurnKey (lvl : Fin 4) (w : Word)
  /-- DATA.KEY_PROG OP 2 burns the LOCK bit of a programmed slot (R419). -/
  | keyBurnLock (lvl : Fin 4) (w : Word)
  /-- DATA.KEY_PROG OP 3 burns the ADMIN bit of an unlocked slot (R419). -/
  | keyBurnAdmin (lvl : Fin 4) (w : Word)
  /-- An OTP burn ends, OTP_BUSY clears and KEY_UPDATE is raised (R419). -/
  | otpBurnDone
  /-- A write of the head's object number to NTC_ACK acknowledges the notice and advances the pending list (R423). -/
  | noticeAck (lvl : Fin 4) (w : Word)
  /-- A write of NTC_OFS starts a refill of the notice window at the new offset (R422). -/
  | noticeOfsWrite (lvl : Fin 4) (w : Word)
  /-- The notice window is filled with the head's payload and READY goes to 1 (R422). -/
  | noticeWindowFilled
  /-- A read of TIME.NOW_NS latches the seconds of the same instant for the reading initiator level (R433). -/
  | timeNowRead (lvl : Fin 4)
  /-- A PPS_IN edge is captured, validated and used to qualify, discipline, slew or step the time base (R435). `rising` is the edge at the ball; `writes` counts the writes of SYS.PIN_FILT0 performed while it was in the filter (R42). -/
  | ppsEdge (rising : Bool) (writes : Fin 16)
  /-- No valid PPS edge arrives for LOSS_S; REF_LOST and THERMOS are raised and the time base coasts (R435). -/
  | ppsLoss
  /-- SET_CMD MODE 1 loads SET_SEC and SET_NS into the time base at once and raises STEP (R438). `unc` is UNC_MS. -/
  | timeSetNow (lvl : Fin 4) (unc : BitVec 16)
  /-- SET_CMD MODE 2 arms a load of SET_SEC at the next valid PPS edge (R438). `unc` is UNC_MS. -/
  | timeSetAtPps (lvl : Fin 4) (unc : BitVec 16)
  /-- A MODE 2 load still pending after 2 s is discarded (R438). -/
  | timeSetDiscard
  /-- At the first second at or after UTC_AT, OFS takes NEXT_OFS and UTC_CHANGE is raised (R432). -/
  | utcChange
  /-- After 64 s locked within one sensor range, the Thermos table entry is updated and LEARNED is set (R441). `avg` is the average of the correction over the 64 s, in ppb, two's complement. -/
  | thermosLearn (avg : BitVec 24)
  /-- An armed time step is applied at the next cycle boundary or valid edge, raising STEP and skipping or holding Itinerary entries (R445). -/
  | timeStepApply
  /-- An Itinerary entry's window starts, changing gate states and the power request (R448). -/
  | itinWindowStart
  /-- A write of RUN 1 to ITIN_CTRL starts the Itinerary in bank START_BANK (R449). -/
  | itinRun (lvl : Fin 4) (bank : Fin 2)
  /-- A write of RUN 0 to ITIN_CTRL stops the Itinerary at once (R449). -/
  | itinStop (lvl : Fin 4)
  /-- A write of 1 to ITIN_CTRL.SWITCH requests the other bank at the next cycle boundary (R449). -/
  | itinSwitch (lvl : Fin 4)
  /-- The time base reaches ALARM_SEC with EN at 1 and ALARM is raised (R453). -/
  | timeAlarm
  /-- A slave receives the master's seconds marker and uses it as time source 2 (R527). `sec` and `uncert` are what the marker carries, `delayNs` is half the round trip in ns. -/
  | cascadeMarker (sec : BitVec 48) (uncert : BitVec 32) (delayNs : Nat)
  /-- A complete packet is judged for length, gate, quota and credit, then admitted, refused or policed (R460). `broken` says that the CRC recomputed at the publication of the packet does not match. -/
  | packetAdmit (n : Fin 128) (broken : Bool)
  /-- Every 1 ms a queue's credit grows by RATE_KBPS bits up to its burst cap (R461). -/
  | creditTick (n : Fin 128)
  /-- SCHED.CMD OP 1 deletes packets from a queue's head until USED is within quota (R463). -/
  | schedTrim (lvl : Fin 4) (n : Fin 128)
  /-- A trim completes, deleted packets are counted and OUTPUT is raised with code 7 (R463). -/
  | schedTrimDone
  /-- SCHED.CMD OP 2 clears the latency high-water mark of one queue (R476). -/
  | schedHwmClear (lvl : Fin 4) (n : Fin 128)
  /-- SCHED.CMD OP 3 clears the latency high-water marks of all queues (R476). -/
  | schedHwmClearAll (lvl : Fin 4)
  /-- The idle Stream Port chooses the next eligible packet by priority and round robin (R465). -/
  | streamSelect
  /-- The last nibble of a packet is sent; it is removed or published as DEST decides (R469). `broken` says that the CRC recomputed at read-out does not match. -/
  | streamPacketSent (broken : Bool)
  /-- STRM_READY is sampled low and the port holds VALID low from the next word boundary (R470). -/
  | streamReadyLow
  /-- STRM_READY is sampled high and the port resumes at the next word boundary (R470). -/
  | streamReadyHigh
  /-- READY stays low within a packet for READY_TO_US; the send is abandoned and OUTPUT is raised (R471). `words` is the number of words of the packet already sent. -/
  | streamReadyTimeout (words : BitVec 16)
  /-- A written STRM.CFG takes effect at the next packet boundary (R472). -/
  | strmCfgApply
  /-- A write of 1 to PROBE.CMD.GO starts a probe sweep command (R484). `pow` as for all probe rows: the lane powers of R483. -/
  | probeGo (lvl : Fin 4) (pow : Powers)
  /-- A write of 1 to PROBE.CMD.ABORT aborts the running command (R488). -/
  | probeAbort (lvl : Fin 4)
  /-- A point's settling, listen and channel calibration end and emission begins, or the point is found occupied (R484). `listen` is the power found in the listen of R483 in quarter dBm. -/
  | probeSettleDone (listen : Option Int) (pow : Powers)
  /-- A point's dwell ends, its result is written, and the next point settles or the command completes with PROBE_DONE (R484). `onsets` are the onsets detected by the devices of a calibration, in ns on one scale (R532). -/
  | probeDwellEnd (r : ProbeReading) (onsets : List (Fin 4 × Int)) (pow : Powers)
  /-- A spectrum window shows a judged bin above its mask limit and the command is aborted (R487). `bins` is the spectrum of the window that ends. -/
  | probeMaskViolation (bins : List SpecBin)
  /-- A lane reports an overlapping carrier during emission; the emission is muted and the point reads occupied (R483). Lane `n` reports the carrier. -/
  | probeOccupancy (n : Fin 24) (pow : Powers)
  /-- Settling is not complete within TX_WAIT_MAX; the command ends and TX_LATE is raised (R486). -/
  | probeTxLate
  /-- The probe synthesiser loses lock while settling or emitting and the command is aborted (R488). -/
  | probeLockLoss
  /-- A corrected word is written back on port B in the next free port-B cycle (R498). `w` is the word, 32768 x bank + word; `reader` the port of the data-path read that met the error. -/
  | scrubWriteback (w : Fin 1638400) (reader : Option (Fin 2))
  /-- At each INTERVAL_US slot the background test starts a march or read scrub of the next region (R501). -/
  | testSlot
  /-- A region's march or scrub completes; a failing region is withdrawn and a sweep end may raise TEST_PASS (R502). `corr` and `bad` are the words of the region found with errors, `fail` a failed march. -/
  | marchDone (fail : Bool) (corr : List (Fin 512)) (bad : List (Fin 512 × BitVec 64 × Option Bank49))
  /-- An access to a region under march aborts it and serves accesses from the save buffer (R503). `fail`: the march had failed before. -/
  | marchAbort (fail : Bool)
  /-- The save buffer has been copied back to an aborted region (R503). -/
  | restoreDone
  /-- A 1 s corrected-error window of a bank ends and ERR_LIMIT warns if the count exceeded CORR_WARN (R507). -/
  | corrWindow (b : Fin 50)
  /-- A cluster's uncorrectable-error count returns to 0 after 10 s without such an event (R507). -/
  | uncorrQuietReset (c : Fin 4)
  /-- A Triuc port completes training with index exchange and latency measurement, raising LINK_UP or ROLE_CONFLICT (R521). Port `p`; `chain`: the chain upstream reaches the master; `reach`: devices the master now reaches, bit d. -/
  | linkTrained (p : Fin 2) (peer : Fin 4) (rtt : BitVec 12) (bnd : Fin 480) (chain : Bool) (reach : BitVec 4)
  /-- A Triuc link goes down on root loss, frame errors, signal loss, disable or Standby entry, raising LINK_DOWN (R521). `code` and `crc` are errors met on the port. -/
  | linkDown (p : Fin 2) (code : BitVec 8) (crc : BitVec 8)
  /-- A port that failed to train tries again after 1 ms (R521). As for LINK_DOWN. -/
  | linkTrainRetry (p : Fin 2) (code : BitVec 8) (crc : BitVec 8)
  /-- A write of 1 to CASC.TUN_CMD.GO sends a tunnel packet to a slave (R524). `w` is the word written to TUN_CMD; GO is 1. -/
  | tunnelGo (lvl : Fin 4) (w : Word)
  /-- A slave receives a whole tunnel packet and performs it as one level-1 transaction (R524). `len` + 1 words from `addr`; `data` of a write. -/
  | tunnelPacketReceived (write : Bool) (addr : BitVec 24) (len : Fin 16) (data : List Word) (x : Facts)
  /-- No acknowledgement arrives within 20 µs and the packet is resent, ending with RESULT 3 after three retries (R525). -/
  | tunnelRetry
  /-- The master receives the acknowledgement and records TUN_STAT.RESULT and read data (R525). `refused` words, and the data of a read. -/
  | tunnelAck (refused : Fin 17) (data : List Word)
  /-- A slave's IRQ.PENDING.GROUP change arrives as a control frame and is shown in CASC.REMOTE (R526). Device `d`; `xs`: XREQ entries it exports for (true) or that wait (false). -/
  | remoteIrqFrame (d : Fin 4) (group : BitVec 16) (xs : List (Fin 8 × Bool))
  /-- A write to CASC.XREQ requests antennas of a slave for a master Hamper (R529). -/
  | xreqWrite (lvl : Fin 4) (k : Fin 8) (w : Word)
  /-- An export's sums have not arrived 4 symbols after their symbol; the symbol is combined without them and LATE counts (R531). -/
  | exportLate (k : Fin 8)
  /-- A write of 1 to CASC.CAL_CTRL.GO runs a probe tone and measures each device's onset offset (R532). `input` is CAL_INPUT. -/
  | cascCalGo (lvl : Fin 4) (input : Fin 4) (x : Facts)
  /-- A slave loses its chain to the master; MASTER_OK goes to 0, exports are released and MASTER_LOST is raised (R533). -/
  | masterLost
  /-- A rail that was below its warning threshold rises back above it, and its bit in PWR.STATE_STAT.SUPPLY_LOW clears (R71). Rail `r`. -/
  | supplyRecovered (r : Fin 5)
  /-- HOLDOFF has run out after a switch or a blend end, and R358 is applied again to candidates that were waiting (R366). -/
  | holdoffExpiry (n : Fin 128)
  /-- A slave has received no master marker for LOSS_S; the cascade time source is lost, REF_LOST is raised and the time base coasts (R527). -/
  | markerLoss
  /-- A slew has removed the phase error, the rate offset ends and STAT.SLEWING returns to 0 (R444). -/
  | slewEnd
  /-- A slave receives the master's export request as a control frame and serves it with a PLACE pass as a chain at Hamper n's priority (R529). Entry `k` of the master's XREQ table and what its Hamper asks for; `ofs` is the CAL_OFS.NS of this device on the master. -/
  | exportRequestReceived (k : Fin 8) (en : Bool) (hamper : Fin 128) (prio : Fin 256) (bearer : Fin 7) (freq : Word) (mask : BitVec 4) (branches : Fin 5) (ofs : BitVec 24)
  /-- A management controller task exceeds its time limit, is abandoned, and MGMT_FAULT is raised with code 2 (R128). `consistency`: the task is abandoned because an internal consistency check failed, which is code 3 (R128). -/
  | mgmtTaskTimeout (consistency : Bool)
deriving DecidableEq, Repr

end Sys2Proof
end

