-- ==== Sys2Proof/Decode.lean ====
section
/-! DEFINITION. Words that spell a command: spec/opcode_table.json gives no row of this device a bit pattern, since its
commands are events and register accesses, so no word spells one. -/
namespace Sys2Proof

/-- The command that a word spells by the bits of the table: none, for the table gives no row any bits. -/
def decodeTableWord (_nbits _w : Nat) : Option Instr := none

end Sys2Proof
end

