-- ==== Sys2Proof/Config.lean ====
section
/-! DEFINITION. What spec/ leaves open: constants without a body. No proof can see a value of one of them, so a
statement that mentions one holds whatever its value. Each has an entry in notes/assumptions/. -/
namespace Sys2Proof

/-- A free value: entry `n` of an unconstrained sequence of 32-bit words. The counter of State says which entries are
used up. (assumption 1) -/
opaque Config.freeWord : Nat → BitVec 32

/-- A word of the 192 KiB of bank 49 above the Hamper table, whose layout R100 calls internal and undefined, by byte
offset in the bank. (assumption 2) -/
opaque Config.internalWord : Nat → BitVec 32

/-- Latency of a lane chain from ADC to output in 1/64 output samples, which spec/ prints for three chains only, by
K, H, F = 2 and RATIO. (assumption 11) -/
opaque Config.latency : Nat → Nat → Bool → Nat → BitVec 24

/-- A coefficient of a preset filter table in Q1.17, which spec/ does not print: by preset, channel bandwidth code and tap
(R219, R220, R281). (assumption 1) -/
opaque Config.coef : Nat → Nat → Nat → BitVec 18

/-- The stored calibration value of input `i`: the level at the balls at ADC full scale and 0 dB gain, as steps of 0.25 dB
above -3 dBm, used modulo 9 (R201, section 22: within 1 dB of -2 dBm). (assumption 1) -/
opaque Config.fullScale : Nat → BitVec 8

/-- How an entry of the cosine and of the sine table of the NCO is rounded, which spec/ does not say: used modulo 3, less 1, in
units of 2^-17, by the top 20 bits of the phase (R215). (assumption 96) -/
opaque Config.cosRound : Nat → BitVec 8
opaque Config.sinRound : Nat → BitVec 8

/-- The fixed coefficients of a half-band stage, which spec/ does not print: by tap, in units of 2^-23 (R218). (assumption 96) -/
opaque Config.halfBand : Nat → BitVec 24

/-- The prototype filter of the resampler, which spec/ does not print: by phase, 64 standing for phase 0 of the next input, and
tap, in Q1.17 (R222). (assumption 96) -/
opaque Config.prototype : Nat → Nat → BitVec 18

/-- The factor 10^(-d / 20000) of a gain compensation of `d` thousandths of a dB, in units of 2^-32, whose rounding spec/ does
not give (R188, R217). (assumption 96) -/
opaque Config.gainFactor : Int → BitVec 48

/-- The number of soft-value steps for a unit of a metric (R317). (assumption 118) -/
opaque Config.softScale : BitVec 16

/-- The value the demapper gives bit `i` of a QAM cell of `bits` bits at (`re` + j `im`) / `den` (R317). (assumption 118) -/
opaque Config.demap : Nat → Nat → Int → Int → Nat → Int

/-- A sample of the crossfade of a blend, from the old stream and the new one; spec/ gives the fade and not its arithmetic (R364).
(assumption 129) -/
opaque Config.crossfade : Nat → BitVec 24 → BitVec 24 → BitVec 24

end Sys2Proof
end

