-- ==== Sys2Proof/Machine/Fields.lean ====
section
/-! DEFINITION. The fields of the registers, by the names of spec/: address of the register, top bit, bottom bit.
`i` is the instance of the page (R98), `k` the element of a register array. -/
namespace Sys2Proof.Machine

/-- A field of a register: byte address, top bit and bottom bit. -/
structure Fld where
  addr : Nat
  hi : Nat
  lo : Nat
deriving DecidableEq, Repr

/-! Fields of the SYS page. -/
def F.SYS_STRAP_SAMPLED : Fld := ⟨0x48, 15, 15⟩
def F.SYS_STRAP_TWI_TADDR : Fld := ⟨0x48, 14, 8⟩
def F.SYS_STRAP_BOOT_SRC : Fld := ⟨0x48, 4, 4⟩
def F.SYS_STRAP_TWI_ADDR : Fld := ⟨0x48, 3, 2⟩
def F.SYS_STRAP_CASC_ROLE : Fld := ⟨0x48, 1, 0⟩
def F.SYS_PIN_FILT0_RESET_FLT : Fld := ⟨0x50, 27, 24⟩
def F.SYS_PIN_FILT0_PPS_FLT : Fld := ⟨0x50, 23, 20⟩
def F.SYS_PIN_FILT0_TWI_FLT : Fld := ⟨0x50, 15, 12⟩
def F.SYS_PIN_FILT0_GPIO_FLT : Fld := ⟨0x50, 11, 8⟩
def F.SYS_PIN_FILT1_CS_FLT : Fld := ⟨0x54, 19, 16⟩
def F.SYS_PIN_FILT1_SCK_FLT : Fld := ⟨0x54, 15, 12⟩
def F.SYS_PIN_FILT1_BCLK_FLT : Fld := ⟨0x54, 11, 8⟩
def F.SYS_PIN_FILT1_EMMC_FLT : Fld := ⟨0x54, 7, 4⟩
def F.SYS_PIN_FILT1_READY_FLT : Fld := ⟨0x54, 3, 0⟩
def F.SYS_RESET_CMD_CMD : Fld := ⟨0x60, 7, 0⟩
def F.SYS_RESET_CAUSE_BOR_RAIL : Fld := ⟨0x64, 14, 12⟩
def F.SYS_RESET_CAUSE_XO_FAIL : Fld := ⟨0x64, 7, 7⟩
def F.SYS_RESET_CAUSE_MGMT_WDOG : Fld := ⟨0x64, 6, 6⟩
def F.SYS_RESET_CAUSE_WDOG : Fld := ⟨0x64, 5, 5⟩
def F.SYS_RESET_CAUSE_HOST_CMD : Fld := ⟨0x64, 4, 4⟩
def F.SYS_RESET_CAUSE_BOR : Fld := ⟨0x64, 2, 2⟩
def F.SYS_RESET_CAUSE_PIN : Fld := ⟨0x64, 1, 1⟩
def F.SYS_RESET_CAUSE_POR : Fld := ⟨0x64, 0, 0⟩
def F.SYS_WDOG_EN : Fld := ⟨0x68, 16, 16⟩
def F.SYS_WDOG_TIMEOUT : Fld := ⟨0x68, 15, 0⟩
def F.SYS_BOOT_STAT_PATCH_VER : Fld := ⟨0x6C, 31, 16⟩
def F.SYS_BOOT_STAT_PATCH_FAIL : Fld := ⟨0x6C, 5, 5⟩
def F.SYS_BOOT_STAT_PATCH_SRC : Fld := ⟨0x6C, 4, 4⟩
def F.SYS_BOOT_STAT_WAIT_HOST : Fld := ⟨0x6C, 3, 3⟩
def F.SYS_BOOT_STAT_WARM : Fld := ⟨0x6C, 1, 1⟩
def F.SYS_BOOT_STAT_READY : Fld := ⟨0x6C, 0, 0⟩
def F.SYS_MGMT_FAULT_CODE : Fld := ⟨0x70, 31, 24⟩
def F.SYS_MGMT_FAULT_ADDR : Fld := ⟨0x70, 23, 0⟩
def F.SYS_EVENT_PAGE_LEVEL_INIT : Fld := ⟨0x74, 25, 24⟩
def F.SYS_EVENT_PAGE_LEVEL_PAGE : Fld := ⟨0x74, 23, 16⟩
def F.SYS_EVENT_PAGE_RESET_PAGE : Fld := ⟨0x74, 7, 0⟩
def F.SYS_OTP_STAT_FAIL : Fld := ⟨0x78, 8, 8⟩
def F.SYS_OTP_STAT_CORRECTED : Fld := ⟨0x78, 0, 0⟩
/-! Fields of the CLK page. -/
def F.CLK_ROOT_CTRL_DITHER_EN : Fld := ⟨0x1040, 0, 0⟩
def F.CLK_ROOT_STAT_FAIL_SRC : Fld := ⟨0x1044, 4, 4⟩
def F.CLK_ROOT_STAT_SEED_LOADED : Fld := ⟨0x1044, 3, 3⟩
def F.CLK_ROOT_STAT_ATTEMPTING : Fld := ⟨0x1044, 2, 2⟩
def F.CLK_ROOT_STAT_ON_FALLBACK : Fld := ⟨0x1044, 1, 1⟩
def F.CLK_ROOT_STAT_LOCKED : Fld := ⟨0x1044, 0, 0⟩
def F.CLK_DITHER_SEED_SEED : Fld := ⟨0x1048, 22, 0⟩
def F.CLK_SAMP_STAGE_RATE3 : Fld := ⟨0x1050, 7, 6⟩
def F.CLK_SAMP_STAGE_RATE2 : Fld := ⟨0x1050, 5, 4⟩
def F.CLK_SAMP_STAGE_RATE1 : Fld := ⟨0x1050, 3, 2⟩
def F.CLK_SAMP_STAGE_RATE0 : Fld := ⟨0x1050, 1, 0⟩
def F.CLK_SAMP_ACTIVE_RATE3 : Fld := ⟨0x1054, 7, 6⟩
def F.CLK_SAMP_ACTIVE_RATE2 : Fld := ⟨0x1054, 5, 4⟩
def F.CLK_SAMP_ACTIVE_RATE1 : Fld := ⟨0x1054, 3, 2⟩
def F.CLK_SAMP_ACTIVE_RATE0 : Fld := ⟨0x1054, 1, 0⟩
def F.CLK_DIV_COMMIT_COMMIT : Fld := ⟨0x1058, 0, 0⟩
def F.CLK_RELOCK_CFG_FAIL_THR : Fld := ⟨0x105C, 7, 0⟩
def F.CLK_RELOCK_COUNT_FAILED : Fld := ⟨0x1060, 31, 16⟩
def F.CLK_RELOCK_COUNT_LOSSES : Fld := ⟨0x1060, 15, 0⟩
def F.CLK_XO_STAT_CLEAR : Fld := ⟨0x1064, 1, 1⟩
def F.CLK_XO_STAT_XO_FAIL : Fld := ⟨0x1064, 0, 0⟩
def F.CLK_RC_CAL_XO_PER_1024 : Fld := ⟨0x1068, 23, 0⟩
def F.CLK_XO_CFG_DRIVE : Fld := ⟨0x106C, 2, 0⟩
def F.CLK_LOCK_DET_QUAL_CYCLES : Fld := ⟨0x1400, 31, 24⟩
def F.CLK_LOCK_DET_LOSS_CYCLES : Fld := ⟨0x1400, 15, 8⟩
def F.CLK_LOCK_DET_PHASE_THR : Fld := ⟨0x1400, 7, 0⟩
/-! Fields of the PWR page. -/
def F.PWR_STATE_REQ_HOST_REQ : Fld := ⟨0x2040, 1, 0⟩
def F.PWR_STATE_STAT_SUPPLY_LOW : Fld := ⟨0x2044, 24, 20⟩
def F.PWR_STATE_STAT_WAKE_SRC : Fld := ⟨0x2044, 19, 16⟩
def F.PWR_STATE_STAT_THERM_HOLD : Fld := ⟨0x2044, 15, 15⟩
def F.PWR_STATE_STAT_DRAINING : Fld := ⟨0x2044, 14, 14⟩
def F.PWR_STATE_STAT_BUSY : Fld := ⟨0x2044, 11, 11⟩
def F.PWR_STATE_STAT_TARGET : Fld := ⟨0x2044, 10, 8⟩
def F.PWR_STATE_STAT_ITIN_REQ : Fld := ⟨0x2044, 6, 4⟩
def F.PWR_STATE_STAT_STATE : Fld := ⟨0x2044, 2, 0⟩
def F.PWR_WAKE_CFG_GPIO_POL : Fld := ⟨0x2048, 23, 16⟩
def F.PWR_WAKE_CFG_GPIO_MASK : Fld := ⟨0x2048, 15, 8⟩
def F.PWR_WAKE_CFG_TIMER_EN : Fld := ⟨0x2048, 2, 2⟩
def F.PWR_WAKE_CFG_TWI_EN : Fld := ⟨0x2048, 1, 1⟩
def F.PWR_WAKE_CFG_QSPI_EN : Fld := ⟨0x2048, 0, 0⟩
def F.PWR_WAKE_TIMER_PERIODS : Fld := ⟨0x204C, 31, 0⟩
def F.PWR_TEMP_CLUS3 : Fld := ⟨0x2054, 31, 24⟩
def F.PWR_TEMP_CLUS2 : Fld := ⟨0x2054, 23, 16⟩
def F.PWR_TEMP_CLUS1 : Fld := ⟨0x2054, 15, 8⟩
def F.PWR_TEMP_CLUS0 : Fld := ⟨0x2054, 7, 0⟩
def F.PWR_TEMP_SYS_PEAK : Fld := ⟨0x2058, 15, 8⟩
def F.PWR_TEMP_SYS_CENTRE : Fld := ⟨0x2058, 7, 0⟩
def F.PWR_THERM_CFG_AUTO_UNFENCE : Fld := ⟨0x205C, 16, 16⟩
def F.PWR_THERM_CFG_UNFENCE : Fld := ⟨0x205C, 15, 8⟩
def F.PWR_THERM_CFG_WARN : Fld := ⟨0x205C, 7, 0⟩
def F.PWR_FENCE_THERM : Fld := ⟨0x2060, 19, 16⟩
def F.PWR_FENCE_FAULT : Fld := ⟨0x2060, 15, 12⟩
def F.PWR_FENCE_FUSE : Fld := ⟨0x2060, 11, 8⟩
def F.PWR_FENCE_IDLE_OFF : Fld := ⟨0x2060, 7, 4⟩
def F.PWR_FENCE_FENCED : Fld := ⟨0x2060, 3, 0⟩
def F.PWR_CLUS_CTRL_UNFENCE : Fld := ⟨0x2064, 7, 4⟩
def F.PWR_CLUS_CTRL_IDLE_OFF : Fld := ⟨0x2064, 0, 0⟩
/-! Fields of the IRQ page. -/
def F.IRQ_SUMMARY_GROUP : Fld := ⟨0x3040, 15, 0⟩
def F.IRQ_GROUP_EN_EN : Fld := ⟨0x3044, 15, 0⟩
def F.IRQ_INT_CFG_EDGE_GAP : Fld := ⟨0x3048, 2, 2⟩
def F.IRQ_INT_CFG_MODE : Fld := ⟨0x3048, 1, 1⟩
def F.IRQ_INT_CFG_EN : Fld := ⟨0x3048, 0, 0⟩
def F.IRQ_PENDING_PIN : Fld := ⟨0x304C, 16, 16⟩
def F.IRQ_PENDING_GROUP : Fld := ⟨0x304C, 15, 0⟩
def F.IRQ_SRC_PAGE (k : Nat) : Fld := ⟨0x3100 + 4 * k, 23, 0⟩
/-! Fields of the TIME page. -/
def F.TIME_NOW_NS_NS : Fld := ⟨0x4040, 29, 0⟩
def F.TIME_NOW_SEC_LO_SEC_LO : Fld := ⟨0x4044, 31, 0⟩
def F.TIME_NOW_SEC_HI_SEC_HI : Fld := ⟨0x4048, 15, 0⟩
def F.TIME_STAT_STATE : Fld := ⟨0x404C, 31, 30⟩
def F.TIME_STAT_SET : Fld := ⟨0x404C, 29, 29⟩
def F.TIME_STAT_COARSE : Fld := ⟨0x404C, 28, 28⟩
def F.TIME_STAT_SRC : Fld := ⟨0x404C, 27, 25⟩
def F.TIME_STAT_STEP_PEND : Fld := ⟨0x404C, 24, 24⟩
def F.TIME_STAT_SLEWING : Fld := ⟨0x404C, 23, 23⟩
def F.TIME_STAT_ITIN_RUN : Fld := ⟨0x404C, 22, 22⟩
def F.TIME_STAT_ITIN_BANK : Fld := ⟨0x404C, 21, 21⟩
def F.TIME_STAT_ITIN_WAIT : Fld := ⟨0x404C, 20, 20⟩
def F.TIME_STAT_SWITCH_PEND : Fld := ⟨0x404C, 19, 19⟩
def F.TIME_STAT_ENTRY : Fld := ⟨0x404C, 5, 0⟩
def F.TIME_UNCERT_US : Fld := ⟨0x4050, 31, 0⟩
def F.TIME_PHASE_E_NS : Fld := ⟨0x4054, 31, 0⟩
def F.TIME_FREQ_PPB : Fld := ⟨0x4058, 23, 0⟩
def F.TIME_SET_NS_NS : Fld := ⟨0x4060, 29, 0⟩
def F.TIME_SET_SEC_LO_SEC_LO : Fld := ⟨0x4064, 31, 0⟩
def F.TIME_SET_SEC_HI_SEC_HI : Fld := ⟨0x4068, 15, 0⟩
def F.TIME_SET_CMD_UNC_MS : Fld := ⟨0x406C, 23, 8⟩
def F.TIME_SET_CMD_MODE : Fld := ⟨0x406C, 1, 0⟩
def F.TIME_UTC_NEXT_EN : Fld := ⟨0x4070, 31, 31⟩
def F.TIME_UTC_NEXT_OFS : Fld := ⟨0x4070, 15, 8⟩
def F.TIME_UTC_OFS : Fld := ⟨0x4070, 7, 0⟩
def F.TIME_UTC_AT_LO_SEC : Fld := ⟨0x4074, 31, 0⟩
def F.TIME_UTC_AT_HI_SEC : Fld := ⟨0x4078, 15, 0⟩
def F.TIME_CFG_PPS_EN : Fld := ⟨0x407C, 31, 31⟩
def F.TIME_CFG_CASC_EN : Fld := ⟨0x407C, 30, 30⟩
def F.TIME_CFG_BCAST_EN : Fld := ⟨0x407C, 29, 29⟩
def F.TIME_CFG_PPS_POL : Fld := ⟨0x407C, 28, 28⟩
def F.TIME_CFG_LOSS_S : Fld := ⟨0x407C, 15, 8⟩
def F.TIME_CFG_QUAL_EDGES : Fld := ⟨0x407C, 3, 0⟩
def F.TIME_BCAST_SRC : Fld := ⟨0x4080, 26, 24⟩
def F.TIME_BCAST_DIFF_MS : Fld := ⟨0x4080, 23, 0⟩
def F.TIME_ALARM_LO_SEC : Fld := ⟨0x4084, 31, 0⟩
def F.TIME_ALARM_HI_EN : Fld := ⟨0x4088, 31, 31⟩
def F.TIME_ALARM_HI_SEC : Fld := ⟨0x4088, 15, 0⟩
def F.TIME_COUNT_PPS_BAD : Fld := ⟨0x408C, 31, 16⟩
def F.TIME_COUNT_STEPS : Fld := ⟨0x408C, 15, 0⟩
def F.TIME_ITIN_CTRL_RUN : Fld := ⟨0x4090, 31, 31⟩
def F.TIME_ITIN_CTRL_START_BANK : Fld := ⟨0x4090, 8, 8⟩
def F.TIME_ITIN_CTRL_SWITCH : Fld := ⟨0x4090, 0, 0⟩
def F.TIME_ITIN_REMAIN_US : Fld := ⟨0x4094, 31, 0⟩
def F.TIME_ANCHOR_NS_NS (k : Nat) : Fld := ⟨0x40A0 + 16 * k, 29, 0⟩
def F.TIME_ANCHOR_SEC_LO_SEC_LO (k : Nat) : Fld := ⟨0x40A4 + 16 * k, 31, 0⟩
def F.TIME_ANCHOR_SEC_HI_SEC_HI (k : Nat) : Fld := ⟨0x40A8 + 16 * k, 15, 0⟩
def F.TIME_LEN (k : Nat) : Fld := ⟨0x40AC + 16 * k, 6, 0⟩
def F.TIME_X_LOOP_RAW_PPM : Fld := ⟨0x4400, 31, 24⟩
def F.TIME_X_LOOP_SLEW_PPM : Fld := ⟨0x4400, 23, 16⟩
def F.TIME_X_LOOP_SLEW_MAX_US : Fld := ⟨0x4400, 15, 8⟩
def F.TIME_X_LOOP_LOOP_TC : Fld := ⟨0x4400, 7, 0⟩
def F.TIME_ITIN0_CTRL_GATES (k : Nat) : Fld := ⟨0x4800 + 8 * k, 31, 16⟩
def F.TIME_ITIN0_CTRL_POWER (k : Nat) : Fld := ⟨0x4800 + 8 * k, 1, 0⟩
def F.TIME_ITIN0_DUR_US (k : Nat) : Fld := ⟨0x4804 + 8 * k, 31, 0⟩
def F.TIME_ITIN1_CTRL_GATES (k : Nat) : Fld := ⟨0x4A00 + 8 * k, 31, 16⟩
def F.TIME_ITIN1_CTRL_POWER (k : Nat) : Fld := ⟨0x4A00 + 8 * k, 1, 0⟩
def F.TIME_ITIN1_DUR_US (k : Nat) : Fld := ⟨0x4A04 + 8 * k, 31, 0⟩
def F.TIME_THERMOS_LEARNED (k : Nat) : Fld := ⟨0x4C00 + 4 * k, 31, 31⟩
def F.TIME_THERMOS_PPB (k : Nat) : Fld := ⟨0x4C00 + 4 * k, 15, 0⟩
/-! Fields of the PROT page. -/
def F.PROT_RANGE_CAPT_VALID : Fld := ⟨0x5040, 31, 31⟩
def F.PROT_RANGE_CAPT_REASON : Fld := ⟨0x5040, 29, 26⟩
def F.PROT_RANGE_CAPT_INIT : Fld := ⟨0x5040, 25, 24⟩
def F.PROT_RANGE_CAPT_ADDR : Fld := ⟨0x5040, 23, 0⟩
def F.PROT_RANGE_DATA_DATA : Fld := ⟨0x5044, 31, 0⟩
def F.PROT_ACCESS_CAPT_VALID : Fld := ⟨0x5048, 31, 31⟩
def F.PROT_ACCESS_CAPT_WRITE : Fld := ⟨0x5048, 30, 30⟩
def F.PROT_ACCESS_CAPT_KIND : Fld := ⟨0x5048, 29, 27⟩
def F.PROT_ACCESS_CAPT_INIT : Fld := ⟨0x5048, 25, 24⟩
def F.PROT_ACCESS_CAPT_ADDR : Fld := ⟨0x5048, 23, 0⟩
def F.PROT_COUNT_RANGE : Fld := ⟨0x504C, 31, 16⟩
def F.PROT_COUNT_ACCESS : Fld := ⟨0x504C, 15, 0⟩
def F.PROT_CTRL_CLR_COUNT : Fld := ⟨0x5050, 0, 0⟩
def F.PROT_ART_ENTRIES (k : Nat) : Fld := ⟨0x5800 + 4 * k, 31, 0⟩
/-! Fields of the MEM page. -/
def F.MEM_CFG_SCRUB_EN : Fld := ⟨0x6040, 31, 31⟩
def F.MEM_CFG_TEST_EN : Fld := ⟨0x6040, 30, 30⟩
def F.MEM_CFG_FENCE_COUNT : Fld := ⟨0x6040, 23, 16⟩
def F.MEM_CFG_CORR_WARN : Fld := ⟨0x6040, 15, 0⟩
def F.MEM_TEST_CFG_INTERVAL_US : Fld := ⟨0x6044, 15, 0⟩
def F.MEM_STAT_TEST_STATE : Fld := ⟨0x6048, 31, 30⟩
def F.MEM_STAT_BANK : Fld := ⟨0x6048, 29, 24⟩
def F.MEM_STAT_REGION : Fld := ⟨0x6048, 23, 18⟩
def F.MEM_STAT_BAD_REGIONS : Fld := ⟨0x6048, 7, 0⟩
def F.MEM_CORR_CAPT_VALID : Fld := ⟨0x604C, 31, 31⟩
def F.MEM_CORR_CAPT_PORT : Fld := ⟨0x604C, 30, 30⟩
def F.MEM_CORR_CAPT_BANK : Fld := ⟨0x604C, 29, 24⟩
def F.MEM_CORR_CAPT_WORD : Fld := ⟨0x604C, 14, 0⟩
def F.MEM_UNCORR_CAPT_VALID : Fld := ⟨0x6050, 31, 31⟩
def F.MEM_UNCORR_CAPT_PORT : Fld := ⟨0x6050, 30, 30⟩
def F.MEM_UNCORR_CAPT_BANK : Fld := ⟨0x6050, 29, 24⟩
def F.MEM_UNCORR_CAPT_WORD : Fld := ⟨0x6050, 14, 0⟩
def F.MEM_COLLIDE_CAPT_VALID : Fld := ⟨0x6054, 31, 31⟩
def F.MEM_COLLIDE_CAPT_PORT : Fld := ⟨0x6054, 30, 30⟩
def F.MEM_COLLIDE_CAPT_BANK : Fld := ⟨0x6054, 29, 24⟩
def F.MEM_COLLIDE_CAPT_WORD : Fld := ⟨0x6054, 14, 0⟩
def F.MEM_COUNT_CORRECTED : Fld := ⟨0x6058, 31, 16⟩
def F.MEM_COUNT_UNCORR : Fld := ⟨0x6058, 15, 0⟩
def F.MEM_COLLIDE_COUNT_COUNT : Fld := ⟨0x605C, 15, 0⟩
def F.MEM_TEST_COUNT0_SWEEPS : Fld := ⟨0x6060, 31, 16⟩
def F.MEM_TEST_COUNT0_ABORTS : Fld := ⟨0x6060, 15, 0⟩
def F.MEM_TEST_COUNT1_SKIPPED : Fld := ⟨0x6064, 31, 16⟩
def F.MEM_TEST_COUNT1_FAILS : Fld := ⟨0x6064, 15, 0⟩
def F.MEM_TEST_CAPT_VALID : Fld := ⟨0x6068, 31, 31⟩
def F.MEM_TEST_CAPT_KIND : Fld := ⟨0x6068, 30, 30⟩
def F.MEM_TEST_CAPT_BANK : Fld := ⟨0x6068, 29, 24⟩
def F.MEM_TEST_CAPT_REGION : Fld := ⟨0x6068, 5, 0⟩
def F.MEM_LIMIT_CAPT_VALID : Fld := ⟨0x606C, 31, 31⟩
def F.MEM_LIMIT_CAPT_KIND : Fld := ⟨0x606C, 30, 30⟩
def F.MEM_LIMIT_CAPT_BANK : Fld := ⟨0x606C, 29, 24⟩
def F.MEM_LIMIT_CAPT_CLUSTER : Fld := ⟨0x606C, 1, 0⟩
def F.MEM_BAD_MAP_LO_REGIONS (k : Nat) : Fld := ⟨0x6800 + 8 * k, 31, 0⟩
def F.MEM_BAD_MAP_HI_REGIONS (k : Nat) : Fld := ⟨0x6804 + 8 * k, 31, 0⟩
/-! Fields of the TWI page. -/
def F.TWI_CFG_SCL_TO : Fld := ⟨0x7040, 31, 24⟩
def F.TWI_CFG_PEC_EN : Fld := ⟨0x7040, 8, 8⟩
def F.TWI_STAT_BUS_BUSY : Fld := ⟨0x7044, 4, 4⟩
def F.TWI_STAT_CTL_ACTIVE : Fld := ⟨0x7044, 3, 3⟩
def F.TWI_STAT_ALERT : Fld := ⟨0x7044, 2, 2⟩
def F.TWI_STAT_IBR_PEND : Fld := ⟨0x7044, 1, 1⟩
def F.TWI_TGT_PTR_PTR : Fld := ⟨0x7048, 23, 0⟩
def F.TWI_TGT_ERR_VALID : Fld := ⟨0x704C, 31, 31⟩
def F.TWI_TGT_ERR_CODE : Fld := ⟨0x704C, 26, 24⟩
def F.TWI_TGT_ERR_PTR : Fld := ⟨0x704C, 23, 0⟩
def F.TWI_TGT_COUNT_TRANSFERS : Fld := ⟨0x7050, 31, 16⟩
def F.TWI_TGT_COUNT_ERRORS : Fld := ⟨0x7050, 15, 0⟩
def F.TWI_CTL_CMD_START : Fld := ⟨0x7060, 31, 31⟩
def F.TWI_CTL_CMD_ADDR : Fld := ⟨0x7060, 22, 16⟩
def F.TWI_CTL_CMD_RD_LEN : Fld := ⟨0x7060, 13, 8⟩
def F.TWI_CTL_CMD_WR_LEN : Fld := ⟨0x7060, 5, 0⟩
def F.TWI_CTL_CFG_RETRY : Fld := ⟨0x7064, 10, 8⟩
def F.TWI_CTL_CFG_SPEED : Fld := ⟨0x7064, 1, 0⟩
def F.TWI_CTL_STAT_BUSY : Fld := ⟨0x7068, 31, 31⟩
def F.TWI_CTL_STAT_RESULT : Fld := ⟨0x7068, 30, 28⟩
def F.TWI_CTL_STAT_WR_DONE : Fld := ⟨0x7068, 21, 16⟩
def F.TWI_CTL_STAT_RD_DONE : Fld := ⟨0x7068, 13, 8⟩
def F.TWI_CTL_STAT_TRIES : Fld := ⟨0x7068, 3, 0⟩
def F.TWI_CTL_TXBUF_BYTES (k : Nat) : Fld := ⟨0x7070 + 4 * k, 31, 0⟩
def F.TWI_CTL_RXBUF_BYTES (k : Nat) : Fld := ⟨0x7090 + 4 * k, 31, 0⟩
def F.TWI_RECOVER : Fld := ⟨0x70B0, 0, 0⟩
def F.TWI_RECOV_STAT_ATTEMPTS : Fld := ⟨0x70B4, 31, 24⟩
def F.TWI_RECOV_STAT_PULSES : Fld := ⟨0x70B4, 19, 16⟩
def F.TWI_RECOV_STAT_STUCK : Fld := ⟨0x70B4, 0, 0⟩
def F.TWI_IBR_CFG_EN : Fld := ⟨0x70C0, 31, 31⟩
def F.TWI_IBR_CFG_TIMEOUT : Fld := ⟨0x70C0, 23, 16⟩
def F.TWI_IBR_CFG_RETRY : Fld := ⟨0x70C0, 15, 8⟩
def F.TWI_IBR_CFG_IDLE : Fld := ⟨0x70C0, 7, 0⟩
def F.TWI_IBR_STAT_SENT : Fld := ⟨0x70C4, 31, 16⟩
def F.TWI_IBR_STAT_DROPPED : Fld := ⟨0x70C4, 15, 8⟩
def F.TWI_IBR_STAT_DEPTH : Fld := ⟨0x70C4, 3, 0⟩
def F.TWI_IBR_LAST_BYTE : Fld := ⟨0x70C8, 7, 0⟩
def F.TWI_ALERT_CFG_EN : Fld := ⟨0x70D0, 0, 0⟩
def F.TWI_IBR_MASK_CAUSES (k : Nat) : Fld := ⟨0x70E0 + 4 * k, 31, 0⟩
def F.TWI_ALERT_MASK_CAUSES (k : Nat) : Fld := ⟨0x70F0 + 4 * k, 31, 0⟩
def F.TWI_ALERT_PEND_CAUSES (k : Nat) : Fld := ⟨0x7100 + 4 * k, 31, 0⟩
def F.TWI_SCL_TIMING_SCL_LOW : Fld := ⟨0x7400, 24, 16⟩
def F.TWI_SCL_TIMING_SCL_HIGH : Fld := ⟨0x7400, 8, 0⟩
/-! Fields of the HOST page. -/
def F.HOST_CFG_DRIVE : Fld := ⟨0x8040, 25, 24⟩
def F.HOST_CFG_TIMEOUT : Fld := ⟨0x8040, 23, 8⟩
def F.HOST_CFG_DUMMY : Fld := ⟨0x8040, 7, 0⟩
def F.HOST_STAT_LAST_STATUS : Fld := ⟨0x8044, 31, 24⟩
def F.HOST_STAT_WR_BUF : Fld := ⟨0x8044, 17, 16⟩
def F.HOST_ERR_CAPT_VALID : Fld := ⟨0x8048, 31, 31⟩
def F.HOST_ERR_CAPT_CODE : Fld := ⟨0x8048, 30, 28⟩
def F.HOST_ERR_CAPT_ADDR : Fld := ⟨0x8048, 23, 0⟩
def F.HOST_ERR_HDR_CMD : Fld := ⟨0x804C, 31, 24⟩
def F.HOST_ERR_HDR_LEN : Fld := ⟨0x804C, 23, 8⟩
def F.HOST_COUNT_FRAMES : Fld := ⟨0x8050, 31, 16⟩
def F.HOST_COUNT_ERRORS : Fld := ⟨0x8050, 15, 0⟩
def F.HOST_CTRL_CLR_COUNT : Fld := ⟨0x8054, 0, 0⟩
def F.HOST_LAST_WR_REFUSED : Fld := ⟨0x8058, 24, 16⟩
def F.HOST_LAST_WR_DONE : Fld := ⟨0x8058, 8, 0⟩
def F.HOST_IMG_LEN_BYTES : Fld := ⟨0x8060, 17, 0⟩
def F.HOST_IMG_CTRL_ABORT : Fld := ⟨0x8064, 1, 1⟩
def F.HOST_IMG_CTRL_START : Fld := ⟨0x8064, 0, 0⟩
def F.HOST_IMG_STAT_STATE : Fld := ⟨0x8068, 31, 29⟩
def F.HOST_IMG_STAT_RX_BYTES : Fld := ⟨0x8068, 17, 0⟩
def F.HOST_IMG_FIFO_WORD (k : Nat) : Fld := ⟨0x8800 + 4 * k, 31, 0⟩
/-! Fields of the SCHED page. -/
def F.SCHED_CFG_LAT_WARN_MS : Fld := ⟨0x9040, 31, 16⟩
def F.SCHED_STAT_BUSY : Fld := ⟨0x9044, 31, 31⟩
def F.SCHED_STAT_OVER : Fld := ⟨0x9044, 23, 16⟩
def F.SCHED_STAT_GATES : Fld := ⟨0x9044, 15, 0⟩
def F.SCHED_SKIP_COUNT_COUNT : Fld := ⟨0x9048, 15, 0⟩
def F.SCHED_CMD_OP : Fld := ⟨0x904C, 31, 28⟩
def F.SCHED_CMD_QUEUE : Fld := ⟨0x904C, 22, 16⟩
def F.SCHED_EVENT_VALID : Fld := ⟨0x9050, 31, 31⟩
def F.SCHED_EVENT_CODE : Fld := ⟨0x9050, 26, 24⟩
def F.SCHED_EVENT_QUEUE : Fld := ⟨0x9050, 22, 16⟩
def F.SCHED_COUNT_STANDBY_LOST : Fld := ⟨0x9054, 31, 16⟩
def F.SCHED_COUNT_TRIMMED : Fld := ⟨0x9054, 15, 0⟩
def F.SCHED_QCFG_GATED (k : Nat) : Fld := ⟨0x9800 + 4 * k, 7, 7⟩
def F.SCHED_QCFG_GATE_ADMIT (k : Nat) : Fld := ⟨0x9800 + 4 * k, 6, 6⟩
def F.SCHED_QCFG_GATE (k : Nat) : Fld := ⟨0x9800 + 4 * k, 3, 0⟩
def F.SCHED_QLAT_HWM_US (k : Nat) : Fld := ⟨0x9A00 + 4 * k, 31, 0⟩
def F.SCHED_QSTAT0_OVER (k : Nat) : Fld := ⟨0x9C00 + 8 * k, 31, 31⟩
def F.SCHED_QSTAT0_OPEN (k : Nat) : Fld := ⟨0x9C00 + 8 * k, 30, 30⟩
def F.SCHED_QSTAT0_USED_KIB (k : Nat) : Fld := ⟨0x9C00 + 8 * k, 27, 16⟩
def F.SCHED_QSTAT0_PKTS (k : Nat) : Fld := ⟨0x9C00 + 8 * k, 15, 0⟩
def F.SCHED_QSTAT1_POLICED (k : Nat) : Fld := ⟨0x9C04 + 8 * k, 31, 16⟩
def F.SCHED_QSTAT1_REFUSED (k : Nat) : Fld := ⟨0x9C04 + 8 * k, 15, 0⟩
/-! Fields of the STRM page. -/
def F.STRM_CFG_READY_TO_US : Fld := ⟨0xA040, 31, 16⟩
def F.STRM_CFG_DIV : Fld := ⟨0xA040, 9, 8⟩
def F.STRM_CFG_CLK_INV : Fld := ⟨0xA040, 1, 1⟩
def F.STRM_CFG_READY_EN : Fld := ⟨0xA040, 0, 0⟩
def F.STRM_STAT_RUN : Fld := ⟨0xA044, 31, 31⟩
def F.STRM_STAT_READY : Fld := ⟨0xA044, 30, 30⟩
def F.STRM_STAT_FALLBACK : Fld := ⟨0xA044, 29, 29⟩
def F.STRM_STAT_SENDING : Fld := ⟨0xA044, 28, 28⟩
def F.STRM_STAT_QUEUE : Fld := ⟨0xA044, 22, 16⟩
def F.STRM_COUNT_PKTS : Fld := ⟨0xA048, 31, 16⟩
def F.STRM_COUNT_ABORTS : Fld := ⟨0xA048, 15, 0⟩
def F.STRM_WORDS : Fld := ⟨0xA04C, 31, 0⟩
def F.STRM_ERR_VALID : Fld := ⟨0xA050, 31, 31⟩
def F.STRM_ERR_CODE : Fld := ⟨0xA050, 26, 24⟩
def F.STRM_ERR_QUEUE : Fld := ⟨0xA050, 22, 16⟩
/-! Fields of the STORE page. -/
def F.STORE_STAT_STATE : Fld := ⟨0xB040, 31, 29⟩
def F.STORE_STAT_BUSY : Fld := ⟨0xB040, 28, 28⟩
def F.STORE_STAT_HS200 : Fld := ⟨0xB040, 27, 27⟩
def F.STORE_CAP_FREE_MIB : Fld := ⟨0xB044, 31, 16⟩
def F.STORE_CAP_TOTAL_MIB : Fld := ⟨0xB044, 15, 0⟩
def F.STORE_CMD_OP : Fld := ⟨0xB048, 31, 28⟩
def F.STORE_CMD_BASKET : Fld := ⟨0xB048, 27, 24⟩
def F.STORE_CMD_KEY : Fld := ⟨0xB048, 23, 16⟩
def F.STORE_ARG : Fld := ⟨0xB04C, 31, 0⟩
def F.STORE_ARG_OFS : Fld := ⟨0xB050, 19, 0⟩
def F.STORE_RESULT_DONE : Fld := ⟨0xB054, 31, 31⟩
def F.STORE_RESULT_CODE : Fld := ⟨0xB054, 2, 0⟩
def F.STORE_OBJ_META0_NUMBER : Fld := ⟨0xB058, 31, 0⟩
def F.STORE_OBJ_META1_SRC : Fld := ⟨0xB05C, 31, 28⟩
def F.STORE_OBJ_META1_BASKET : Fld := ⟨0xB05C, 27, 24⟩
def F.STORE_OBJ_META1_HAMPER : Fld := ⟨0xB05C, 22, 16⟩
def F.STORE_OBJ_META1_SIGNED : Fld := ⟨0xB05C, 15, 15⟩
def F.STORE_OBJ_META1_NOTICE : Fld := ⟨0xB05C, 14, 14⟩
def F.STORE_OBJ_META1_ACKED : Fld := ⟨0xB05C, 13, 13⟩
def F.STORE_OBJ_META1_CORRUPT : Fld := ⟨0xB05C, 11, 11⟩
def F.STORE_OBJ_META1_BCHECK : Fld := ⟨0xB05C, 1, 0⟩
def F.STORE_OBJ_META2_LENGTH : Fld := ⟨0xB060, 31, 0⟩
def F.STORE_OBJ_META3_CRC : Fld := ⟨0xB064, 31, 0⟩
def F.STORE_OBJ_META4_TIME : Fld := ⟨0xB068, 31, 0⟩
def F.STORE_EVENT_VALID : Fld := ⟨0xB070, 31, 31⟩
def F.STORE_EVENT_CODE : Fld := ⟨0xB070, 26, 24⟩
def F.STORE_EVENT_BASKET : Fld := ⟨0xB070, 3, 0⟩
def F.STORE_COUNT_ADM_REFUSED : Fld := ⟨0xB074, 31, 16⟩
def F.STORE_COUNT_EMMC_ERR : Fld := ⟨0xB074, 15, 0⟩
def F.STORE_BASKET_CFG_EN (k : Nat) : Fld := ⟨0xB080 + 8 * k, 31, 31⟩
def F.STORE_BASKET_CFG_SIGNED_ONLY (k : Nat) : Fld := ⟨0xB080 + 8 * k, 30, 30⟩
def F.STORE_BASKET_CFG_WRAP (k : Nat) : Fld := ⟨0xB080 + 8 * k, 29, 29⟩
def F.STORE_BASKET_CFG_QUOTA_MIB (k : Nat) : Fld := ⟨0xB080 + 8 * k, 15, 0⟩
def F.STORE_BASKET_USAGE_OVER (k : Nat) : Fld := ⟨0xB084 + 8 * k, 31, 31⟩
def F.STORE_BASKET_USAGE_OBJECTS (k : Nat) : Fld := ⟨0xB084 + 8 * k, 30, 16⟩
def F.STORE_BASKET_USAGE_USED_MIB (k : Nat) : Fld := ⟨0xB084 + 8 * k, 15, 0⟩
def F.STORE_READ_WIN_WORD (k : Nat) : Fld := ⟨0xB800 + 4 * k, 31, 0⟩
/-! Fields of the AUD page. -/
def F.AUD_CFG_MASTER (i : Nat) : Fld := ⟨0xC040 + 0x1000 * i, 31, 31⟩
def F.AUD_CFG_SLOTS (i : Nat) : Fld := ⟨0xC040 + 0x1000 * i, 27, 26⟩
def F.AUD_CFG_SLOT_W (i : Nat) : Fld := ⟨0xC040 + 0x1000 * i, 24, 24⟩
def F.AUD_CFG_DATA24 (i : Nat) : Fld := ⟨0xC040 + 0x1000 * i, 20, 20⟩
def F.AUD_CFG_FORMAT (i : Nat) : Fld := ⟨0xC040 + 0x1000 * i, 17, 16⟩
def F.AUD_CFG_DELAY (i : Nat) : Fld := ⟨0xC040 + 0x1000 * i, 12, 12⟩
def F.AUD_CFG_FS_POL (i : Nat) : Fld := ⟨0xC040 + 0x1000 * i, 9, 9⟩
def F.AUD_CFG_BCLK_EDGE (i : Nat) : Fld := ⟨0xC040 + 0x1000 * i, 8, 8⟩
def F.AUD_CFG_TRISTATE (i : Nat) : Fld := ⟨0xC040 + 0x1000 * i, 4, 4⟩
def F.AUD_CFG_FILL_MODE (i : Nat) : Fld := ⟨0xC040 + 0x1000 * i, 1, 0⟩
def F.AUD_SLOT_MASK_ACTIVE (i : Nat) : Fld := ⟨0xC044 + 0x1000 * i, 31, 16⟩
def F.AUD_SLOT_MASK_MASK (i : Nat) : Fld := ⟨0xC044 + 0x1000 * i, 15, 0⟩
def F.AUD_MUTE_PAIRS (i : Nat) : Fld := ⟨0xC048 + 0x1000 * i, 7, 0⟩
def F.AUD_CTRL_STOP (i : Nat) : Fld := ⟨0xC04C + 0x1000 * i, 2, 2⟩
def F.AUD_CTRL_ARM (i : Nat) : Fld := ⟨0xC04C + 0x1000 * i, 1, 1⟩
def F.AUD_CTRL_START (i : Nat) : Fld := ⟨0xC04C + 0x1000 * i, 0, 0⟩
def F.AUD_ZC_TIMEOUT_MS (i : Nat) : Fld := ⟨0xC050 + 0x1000 * i, 7, 0⟩
def F.AUD_STAT_RUN (i : Nat) : Fld := ⟨0xC054 + 0x1000 * i, 31, 31⟩
def F.AUD_STAT_CLK_OK (i : Nat) : Fld := ⟨0xC054 + 0x1000 * i, 30, 30⟩
def F.AUD_STAT_ROUTED (i : Nat) : Fld := ⟨0xC054 + 0x1000 * i, 23, 16⟩
def F.AUD_STAT_UNDER (i : Nat) : Fld := ⟨0xC054 + 0x1000 * i, 15, 8⟩
def F.AUD_STAT_CONFLICT (i : Nat) : Fld := ⟨0xC054 + 0x1000 * i, 7, 0⟩
def F.AUD_COUNT_SLIPS (i : Nat) : Fld := ⟨0xC058 + 0x1000 * i, 31, 16⟩
def F.AUD_COUNT_UNDERRUNS (i : Nat) : Fld := ⟨0xC058 + 0x1000 * i, 15, 0⟩
def F.AUD_FRAME_COUNT (i : Nat) : Fld := ⟨0xC05C + 0x1000 * i, 31, 0⟩
def F.AUD_ROUTE_VALID (i k : Nat) : Fld := ⟨0xC060 + 0x1000 * i + 4 * k, 31, 31⟩
def F.AUD_ROUTE_HAMPER (i k : Nat) : Fld := ⟨0xC060 + 0x1000 * i + 4 * k, 30, 24⟩
def F.AUD_ROUTE_FADING (i k : Nat) : Fld := ⟨0xC060 + 0x1000 * i + 4 * k, 23, 23⟩
def F.AUD_ROUTE_PHYS_L (i k : Nat) : Fld := ⟨0xC060 + 0x1000 * i + 4 * k, 19, 16⟩
def F.AUD_ROUTE_PHYS_VALID (i k : Nat) : Fld := ⟨0xC060 + 0x1000 * i + 4 * k, 15, 15⟩
def F.AUD_ROUTE_PHYS_R (i k : Nat) : Fld := ⟨0xC060 + 0x1000 * i + 4 * k, 11, 8⟩
def F.AUD_MCLK_DIV2 (i : Nat) : Fld := ⟨0xC080 + 0x1000 * i, 1, 1⟩
def F.AUD_MCLK_EN (i : Nat) : Fld := ⟨0xC080 + 0x1000 * i, 0, 0⟩
def F.AUD_GROUP_GO (i : Nat) : Fld := ⟨0xC084 + 0x1000 * i, 0, 0⟩
/-! Fields of the RFIN page. -/
def F.RFIN_GAIN_CTRL_MODE (i : Nat) : Fld := ⟨0x10040 + 0x1000 * i, 24, 24⟩
def F.RFIN_GAIN_CTRL_TARGET (i : Nat) : Fld := ⟨0x10040 + 0x1000 * i, 23, 16⟩
def F.RFIN_GAIN_CTRL_MAN_LNA (i : Nat) : Fld := ⟨0x10040 + 0x1000 * i, 9, 8⟩
def F.RFIN_GAIN_CTRL_MAN_ATT (i : Nat) : Fld := ⟨0x10040 + 0x1000 * i, 4, 0⟩
def F.RFIN_GAIN_STAT_AGC_STATE (i : Nat) : Fld := ⟨0x10044 + 0x1000 * i, 31, 30⟩
def F.RFIN_GAIN_STAT_TOTAL (i : Nat) : Fld := ⟨0x10044 + 0x1000 * i, 23, 16⟩
def F.RFIN_GAIN_STAT_LNA (i : Nat) : Fld := ⟨0x10044 + 0x1000 * i, 9, 8⟩
def F.RFIN_GAIN_STAT_ATT (i : Nat) : Fld := ⟨0x10044 + 0x1000 * i, 4, 0⟩
def F.RFIN_LEVEL_EST_DBM (i : Nat) : Fld := ⟨0x10048 + 0x1000 * i, 31, 16⟩
def F.RFIN_LEVEL_RMS_DBFS (i : Nat) : Fld := ⟨0x10048 + 0x1000 * i, 15, 0⟩
def F.RFIN_OVL_EVENTS (i : Nat) : Fld := ⟨0x1004C + 0x1000 * i, 31, 16⟩
def F.RFIN_OVL_STEPS (i : Nat) : Fld := ⟨0x1004C + 0x1000 * i, 15, 0⟩
def F.RFIN_CAL_RESULT (i : Nat) : Fld := ⟨0x10050 + 0x1000 * i, 3, 2⟩
def F.RFIN_CAL_CAL_OK (i : Nat) : Fld := ⟨0x10050 + 0x1000 * i, 1, 1⟩
def F.RFIN_CAL_RECAL (i : Nat) : Fld := ⟨0x10050 + 0x1000 * i, 0, 0⟩
def F.RFIN_FILT_CTRL_SETTLE (i : Nat) : Fld := ⟨0x10060 + 0x1000 * i, 23, 16⟩
def F.RFIN_FILT_CTRL_ZONE2 (i : Nat) : Fld := ⟨0x10060 + 0x1000 * i, 7, 7⟩
def F.RFIN_FILT_CTRL_MAN_ZONE2 (i : Nat) : Fld := ⟨0x10060 + 0x1000 * i, 6, 6⟩
def F.RFIN_FILT_CTRL_CODE (i : Nat) : Fld := ⟨0x10060 + 0x1000 * i, 5, 4⟩
def F.RFIN_FILT_CTRL_MAN_CODE (i : Nat) : Fld := ⟨0x10060 + 0x1000 * i, 3, 2⟩
def F.RFIN_FILT_CTRL_MODE (i : Nat) : Fld := ⟨0x10060 + 0x1000 * i, 0, 0⟩
def F.RFIN_FILT_TABLE_LO_VALID (i k : Nat) : Fld := ⟨0x10070 + 0x1000 * i + 8 * k, 31, 31⟩
def F.RFIN_FILT_TABLE_LO_ZONE2 (i k : Nat) : Fld := ⟨0x10070 + 0x1000 * i + 8 * k, 30, 30⟩
def F.RFIN_FILT_TABLE_LO_CODE (i k : Nat) : Fld := ⟨0x10070 + 0x1000 * i + 8 * k, 29, 28⟩
def F.RFIN_FILT_TABLE_LO_LOW_KHZ (i k : Nat) : Fld := ⟨0x10070 + 0x1000 * i + 8 * k, 20, 0⟩
def F.RFIN_FILT_TABLE_HI_HIGH_KHZ (i k : Nat) : Fld := ⟨0x10074 + 0x1000 * i + 8 * k, 20, 0⟩
def F.RFIN_ANT_CTRL_RETRY_MS (i : Nat) : Fld := ⟨0x100A0 + 0x1000 * i, 31, 24⟩
def F.RFIN_ANT_CTRL_RETRIES (i : Nat) : Fld := ⟨0x100A0 + 0x1000 * i, 19, 16⟩
def F.RFIN_ANT_CTRL_BLANK_MS (i : Nat) : Fld := ⟨0x100A0 + 0x1000 * i, 15, 8⟩
def F.RFIN_ANT_CTRL_REARM (i : Nat) : Fld := ⟨0x100A0 + 0x1000 * i, 2, 2⟩
def F.RFIN_ANT_CTRL_MODE (i : Nat) : Fld := ⟨0x100A0 + 0x1000 * i, 1, 0⟩
def F.RFIN_ANT_THR_SHORT_MV (i : Nat) : Fld := ⟨0x100A4 + 0x1000 * i, 26, 16⟩
def F.RFIN_ANT_THR_OPEN_MV (i : Nat) : Fld := ⟨0x100A4 + 0x1000 * i, 10, 0⟩
def F.RFIN_ANT_STAT_FAULT (i : Nat) : Fld := ⟨0x100A8 + 0x1000 * i, 31, 30⟩
def F.RFIN_ANT_STAT_RETRY_LEFT (i : Nat) : Fld := ⟨0x100A8 + 0x1000 * i, 27, 24⟩
def F.RFIN_ANT_STAT_PWR (i : Nat) : Fld := ⟨0x100A8 + 0x1000 * i, 16, 16⟩
def F.RFIN_ANT_STAT_SENSE_MV (i : Nat) : Fld := ⟨0x100A8 + 0x1000 * i, 10, 0⟩
def F.RFIN_AGC_LOOP_SLOT_MS (i : Nat) : Fld := ⟨0x10400 + 0x1000 * i, 31, 24⟩
def F.RFIN_AGC_LOOP_HYST (i : Nat) : Fld := ⟨0x10400 + 0x1000 * i, 23, 16⟩
def F.RFIN_AGC_LOOP_STEP_MAX (i : Nat) : Fld := ⟨0x10400 + 0x1000 * i, 15, 8⟩
def F.RFIN_AGC_LOOP_FAST_MAX (i : Nat) : Fld := ⟨0x10400 + 0x1000 * i, 7, 0⟩
def F.RFIN_OVL_CFG_OVL_STEP (i : Nat) : Fld := ⟨0x10404 + 0x1000 * i, 23, 16⟩
def F.RFIN_OVL_CFG_OVL_COUNT (i : Nat) : Fld := ⟨0x10404 + 0x1000 * i, 10, 0⟩
/-! Fields of the PROBE page. -/
def F.PROBE_CFG_MODE : Fld := ⟨0x14040, 31, 30⟩
def F.PROBE_CFG_INPUT : Fld := ⟨0x14040, 29, 28⟩
def F.PROBE_CFG_SHAPE : Fld := ⟨0x14040, 27, 27⟩
def F.PROBE_CFG_PWR_IDX : Fld := ⟨0x14040, 23, 20⟩
def F.PROBE_CFG_BW_KHZ : Fld := ⟨0x14040, 15, 0⟩
def F.PROBE_START_HZ : Fld := ⟨0x14044, 31, 0⟩
def F.PROBE_STEP_HZ : Fld := ⟨0x14048, 31, 0⟩
def F.PROBE_SWEEP_DWELL_US : Fld := ⟨0x1404C, 31, 16⟩
def F.PROBE_SWEEP_POINTS : Fld := ⟨0x1404C, 6, 0⟩
def F.PROBE_OCC_THR_DBM : Fld := ⟨0x14050, 15, 0⟩
def F.PROBE_CMD_ABORT : Fld := ⟨0x14054, 1, 1⟩
def F.PROBE_CMD_GO : Fld := ⟨0x14054, 0, 0⟩
def F.PROBE_STAT_STATE : Fld := ⟨0x14058, 31, 29⟩
def F.PROBE_STAT_LOCKED : Fld := ⟨0x14058, 28, 28⟩
def F.PROBE_STAT_POINT : Fld := ⟨0x14058, 22, 16⟩
def F.PROBE_STAT_ABORT_REASON : Fld := ⟨0x14058, 10, 8⟩
def F.PROBE_FREQ_ACT : Fld := ⟨0x1405C, 31, 0⟩
def F.PROBE_COUNT_TX_LATE : Fld := ⟨0x14060, 31, 16⟩
def F.PROBE_COUNT_ABORTS : Fld := ⟨0x14060, 15, 0⟩
def F.PROBE_TX_TIME : Fld := ⟨0x14064, 31, 0⟩
def F.PROBE_TX_WAIT_MAX_US : Fld := ⟨0x14068, 15, 0⟩
def F.PROBE_X_SHAPE_ALPHA : Fld := ⟨0x14400, 23, 16⟩
def F.PROBE_X_SHAPE_SEED : Fld := ⟨0x14400, 15, 0⟩
def F.PROBE_PWR_TABLE_LEVEL (k : Nat) : Fld := ⟨0x14800 + 4 * k, 15, 0⟩
def F.PROBE_MASK_VALID (k : Nat) : Fld := ⟨0x14840 + 4 * k, 31, 31⟩
def F.PROBE_MASK_OFS_KHZ (k : Nat) : Fld := ⟨0x14840 + 4 * k, 30, 16⟩
def F.PROBE_MASK_LIMIT_DB (k : Nat) : Fld := ⟨0x14840 + 4 * k, 7, 0⟩
def F.PROBE_RESULT0_STATUS (k : Nat) : Fld := ⟨0x14900 + 8 * k, 31, 30⟩
def F.PROBE_RESULT0_PHASE (k : Nat) : Fld := ⟨0x14900 + 8 * k, 25, 16⟩
def F.PROBE_RESULT0_RL_DB10 (k : Nat) : Fld := ⟨0x14900 + 8 * k, 15, 0⟩
def F.PROBE_RESULT1_FWD (k : Nat) : Fld := ⟨0x14904 + 8 * k, 31, 16⟩
def F.PROBE_RESULT1_REFL (k : Nat) : Fld := ⟨0x14904 + 8 * k, 15, 0⟩
/-! Fields of the CASC page. -/
def F.CASC_CFG_STBY_LINK : Fld := ⟨0x15040, 8, 8⟩
def F.CASC_CFG_REFCLK_EN : Fld := ⟨0x15040, 4, 4⟩
def F.CASC_CFG_PORT_EN : Fld := ⟨0x15040, 1, 0⟩
def F.CASC_STAT_MASTER_OK : Fld := ⟨0x15044, 31, 31⟩
def F.CASC_STAT_INDEX : Fld := ⟨0x15044, 25, 24⟩
def F.CASC_STAT_REACH : Fld := ⟨0x15044, 19, 16⟩
def F.CASC_STAT_UP : Fld := ⟨0x15044, 1, 0⟩
def F.CASC_LINK_STATE (k : Nat) : Fld := ⟨0x15048 + 4 * k, 31, 30⟩
def F.CASC_LINK_PEER (k : Nat) : Fld := ⟨0x15048 + 4 * k, 29, 28⟩
def F.CASC_LINK_RTT_NS (k : Nat) : Fld := ⟨0x15048 + 4 * k, 27, 16⟩
def F.CASC_LINK_CODE_ERR (k : Nat) : Fld := ⟨0x15048 + 4 * k, 15, 8⟩
def F.CASC_LINK_CRC_ERR (k : Nat) : Fld := ⟨0x15048 + 4 * k, 7, 0⟩
def F.CASC_BND_OFS : Fld := ⟨0x15050, 8, 0⟩
def F.CASC_TUN_CMD_GO : Fld := ⟨0x15060, 31, 31⟩
def F.CASC_TUN_CMD_WRITE : Fld := ⟨0x15060, 30, 30⟩
def F.CASC_TUN_CMD_DEV : Fld := ⟨0x15060, 17, 16⟩
def F.CASC_TUN_CMD_LEN : Fld := ⟨0x15060, 3, 0⟩
def F.CASC_TUN_ADDR_ADDR : Fld := ⟨0x15064, 23, 0⟩
def F.CASC_TUN_STAT_BUSY : Fld := ⟨0x15068, 31, 31⟩
def F.CASC_TUN_STAT_REFUSED : Fld := ⟨0x15068, 20, 16⟩
def F.CASC_TUN_STAT_RESULT : Fld := ⟨0x15068, 2, 0⟩
def F.CASC_CAL_CTRL_GO : Fld := ⟨0x15070, 31, 31⟩
def F.CASC_CAL_CTRL_CAL_INPUT : Fld := ⟨0x15070, 1, 0⟩
def F.CASC_CAL_STAT_RESULT : Fld := ⟨0x15074, 2, 0⟩
def F.CASC_CAL_OFS_VALID (k : Nat) : Fld := ⟨0x15078 + 4 * k, 31, 31⟩
def F.CASC_CAL_OFS_NS (k : Nat) : Fld := ⟨0x15078 + 4 * k, 23, 0⟩
def F.CASC_REMOTE_VALID (k : Nat) : Fld := ⟨0x15090 + 4 * k, 31, 31⟩
def F.CASC_REMOTE_GROUP (k : Nat) : Fld := ⟨0x15090 + 4 * k, 15, 0⟩
def F.CASC_XREQ_EN (k : Nat) : Fld := ⟨0x150A0 + 4 * k, 31, 31⟩
def F.CASC_XREQ_STATE (k : Nat) : Fld := ⟨0x150A0 + 4 * k, 30, 28⟩
def F.CASC_XREQ_DEV (k : Nat) : Fld := ⟨0x150A0 + 4 * k, 25, 24⟩
def F.CASC_XREQ_HAMPER (k : Nat) : Fld := ⟨0x150A0 + 4 * k, 22, 16⟩
def F.CASC_XREQ_INPUT_MASK (k : Nat) : Fld := ⟨0x150A0 + 4 * k, 15, 12⟩
def F.CASC_XREQ_BRANCHES (k : Nat) : Fld := ⟨0x150A0 + 4 * k, 10, 8⟩
def F.CASC_XREQ_LATE (k : Nat) : Fld := ⟨0x150A0 + 4 * k, 7, 0⟩
def F.CASC_EXPORT_VALID (k : Nat) : Fld := ⟨0x150C0 + 4 * k, 31, 31⟩
def F.CASC_EXPORT_HAMPER (k : Nat) : Fld := ⟨0x150C0 + 4 * k, 22, 16⟩
def F.CASC_EXPORT_ENGINE (k : Nat) : Fld := ⟨0x150C0 + 4 * k, 10, 8⟩
def F.CASC_EXPORT_BRANCHES (k : Nat) : Fld := ⟨0x150C0 + 4 * k, 6, 4⟩
def F.CASC_TUN_DATA_WORD (k : Nat) : Fld := ⟨0x15800 + 4 * k, 31, 0⟩
/-! Fields of the CLUS page. -/
def F.CLUS_STAT_POWER (i : Nat) : Fld := ⟨0x16040 + 0x1000 * i, 31, 28⟩
def F.CLUS_STAT_HOT (i : Nat) : Fld := ⟨0x16040 + 0x1000 * i, 27, 27⟩
def F.CLUS_STAT_THERM (i : Nat) : Fld := ⟨0x16040 + 0x1000 * i, 26, 26⟩
def F.CLUS_STAT_FAULT (i : Nat) : Fld := ⟨0x16040 + 0x1000 * i, 25, 25⟩
def F.CLUS_STAT_FUSE (i : Nat) : Fld := ⟨0x16040 + 0x1000 * i, 24, 24⟩
def F.CLUS_STAT_TEMP (i : Nat) : Fld := ⟨0x16040 + 0x1000 * i, 23, 16⟩
def F.CLUS_STAT_FAULT_WHY (i : Nat) : Fld := ⟨0x16040 + 0x1000 * i, 9, 8⟩
def F.CLUS_USE_LANES (i : Nat) : Fld := ⟨0x16044 + 0x1000 * i, 29, 24⟩
def F.CLUS_USE_OFDM (i : Nat) : Fld := ⟨0x16044 + 0x1000 * i, 21, 20⟩
def F.CLUS_USE_ANA (i : Nat) : Fld := ⟨0x16044 + 0x1000 * i, 19, 16⟩
def F.CLUS_USE_COMBINING (i : Nat) : Fld := ⟨0x16044 + 0x1000 * i, 8, 8⟩
def F.CLUS_USE_VRS_ENG (i : Nat) : Fld := ⟨0x16044 + 0x1000 * i, 1, 0⟩
def F.CLUS_MEM_FREE_KIB (i : Nat) : Fld := ⟨0x16048 + 0x1000 * i, 31, 16⟩
def F.CLUS_MEM_WITHDRAWN_KIB (i : Nat) : Fld := ⟨0x16048 + 0x1000 * i, 15, 0⟩
def F.CLUS_SELFTEST_VALID (i : Nat) : Fld := ⟨0x1604C + 0x1000 * i, 31, 31⟩
def F.CLUS_SELFTEST_PASS (i : Nat) : Fld := ⟨0x1604C + 0x1000 * i, 30, 30⟩
def F.CLUS_SELFTEST_RUNS (i : Nat) : Fld := ⟨0x1604C + 0x1000 * i, 15, 0⟩
def F.CLUS_COUNT_FENCES (i : Nat) : Fld := ⟨0x16050 + 0x1000 * i, 31, 16⟩
def F.CLUS_COUNT_POWER_UPS (i : Nat) : Fld := ⟨0x16050 + 0x1000 * i, 15, 0⟩
/-! Fields of the LANE page. -/
def F.LANE_ASSIGN_PLACED (i : Nat) : Fld := ⟨0x20040 + 0x1000 * i, 31, 31⟩
def F.LANE_ASSIGN_HAMPER (i : Nat) : Fld := ⟨0x20040 + 0x1000 * i, 30, 24⟩
def F.LANE_ASSIGN_ENG_VALID (i : Nat) : Fld := ⟨0x20040 + 0x1000 * i, 21, 21⟩
def F.LANE_ASSIGN_ENG_TYPE (i : Nat) : Fld := ⟨0x20040 + 0x1000 * i, 20, 20⟩
def F.LANE_ASSIGN_ENGINE (i : Nat) : Fld := ⟨0x20040 + 0x1000 * i, 19, 16⟩
def F.LANE_ASSIGN_INPUT (i : Nat) : Fld := ⟨0x20040 + 0x1000 * i, 9, 8⟩
def F.LANE_ASSIGN_PRESET (i : Nat) : Fld := ⟨0x20040 + 0x1000 * i, 3, 0⟩
def F.LANE_FREQ_FREQ_HZ (i : Nat) : Fld := ⟨0x20044 + 0x1000 * i, 31, 0⟩
def F.LANE_STAT_SLEWING (i : Nat) : Fld := ⟨0x20048 + 0x1000 * i, 6, 6⟩
def F.LANE_STAT_ACTIVE_BANK (i : Nat) : Fld := ⟨0x20048 + 0x1000 * i, 5, 5⟩
def F.LANE_STAT_SATURATING (i : Nat) : Fld := ⟨0x20048 + 0x1000 * i, 4, 4⟩
def F.LANE_STAT_INVALID (i : Nat) : Fld := ⟨0x20048 + 0x1000 * i, 3, 3⟩
def F.LANE_STAT_UNSETTLED (i : Nat) : Fld := ⟨0x20048 + 0x1000 * i, 2, 2⟩
def F.LANE_STAT_RUNNING (i : Nat) : Fld := ⟨0x20048 + 0x1000 * i, 0, 0⟩
def F.LANE_LATENCY (i : Nat) : Fld := ⟨0x2004C + 0x1000 * i, 23, 0⟩
def F.LANE_DELAY_NOW (i : Nat) : Fld := ⟨0x20050 + 0x1000 * i, 29, 16⟩
def F.LANE_DELAY_MODE (i : Nat) : Fld := ⟨0x20050 + 0x1000 * i, 15, 15⟩
def F.LANE_DELAY_TARGET (i : Nat) : Fld := ⟨0x20050 + 0x1000 * i, 13, 0⟩
def F.LANE_TRIM (i : Nat) : Fld := ⟨0x20054 + 0x1000 * i, 31, 0⟩
def F.LANE_SETTLE_SWAP_N (i : Nat) : Fld := ⟨0x20058 + 0x1000 * i, 31, 16⟩
def F.LANE_SETTLE_SINGLE_N (i : Nat) : Fld := ⟨0x20058 + 0x1000 * i, 15, 0⟩
def F.LANE_COUNT_APPLIES (i : Nat) : Fld := ⟨0x2005C + 0x1000 * i, 31, 16⟩
def F.LANE_COUNT_SAT_EVENTS (i : Nat) : Fld := ⟨0x2005C + 0x1000 * i, 15, 0⟩
def F.LANE_X_XBAR_INPUT (i : Nat) : Fld := ⟨0x20400 + 0x1000 * i, 1, 0⟩
def F.LANE_X_FTW_LO_FTW_LO (i : Nat) : Fld := ⟨0x20404 + 0x1000 * i, 31, 0⟩
def F.LANE_X_FTW_HI_PHASE_CLR (i : Nat) : Fld := ⟨0x20408 + 0x1000 * i, 31, 31⟩
def F.LANE_X_FTW_HI_FTW_HI (i : Nat) : Fld := ⟨0x20408 + 0x1000 * i, 15, 0⟩
def F.LANE_X_CHAIN_FIR_DEC2 (i : Nat) : Fld := ⟨0x2040C + 0x1000 * i, 16, 16⟩
def F.LANE_X_CHAIN_HB (i : Nat) : Fld := ⟨0x2040C + 0x1000 * i, 11, 8⟩
def F.LANE_X_CHAIN_CIC_DEC (i : Nat) : Fld := ⟨0x2040C + 0x1000 * i, 6, 0⟩
def F.LANE_X_RATIO_LO_FRAC (i : Nat) : Fld := ⟨0x20410 + 0x1000 * i, 31, 0⟩
def F.LANE_X_RATIO_HI_INT (i : Nat) : Fld := ⟨0x20414 + 0x1000 * i, 1, 0⟩
def F.LANE_X_TRIM_HOLD (i : Nat) : Fld := ⟨0x20418 + 0x1000 * i, 0, 0⟩
def F.LANE_X_DELAY_MODE (i : Nat) : Fld := ⟨0x2041C + 0x1000 * i, 15, 15⟩
def F.LANE_X_DELAY_TARGET (i : Nat) : Fld := ⟨0x2041C + 0x1000 * i, 13, 0⟩
def F.LANE_X_SETTLE_EXTRA (i : Nat) : Fld := ⟨0x20420 + 0x1000 * i, 7, 0⟩
def F.LANE_X_APPLY_SWAP (i : Nat) : Fld := ⟨0x20428 + 0x1000 * i, 1, 1⟩
def F.LANE_X_APPLY_APPLY (i : Nat) : Fld := ⟨0x20428 + 0x1000 * i, 0, 0⟩
def F.LANE_COEF0_COEF (i k : Nat) : Fld := ⟨0x20800 + 0x1000 * i + 4 * k, 17, 0⟩
def F.LANE_COEF1_COEF (i k : Nat) : Fld := ⟨0x20A00 + 0x1000 * i + 4 * k, 17, 0⟩
/-! Fields of the OFDM page. -/
def F.OFDM_ASSIGN_PLACED (i : Nat) : Fld := ⟨0x38040 + 0x1000 * i, 31, 31⟩
def F.OFDM_ASSIGN_HAMPER (i : Nat) : Fld := ⟨0x38040 + 0x1000 * i, 30, 24⟩
def F.OFDM_ASSIGN_STD (i : Nat) : Fld := ⟨0x38040 + 0x1000 * i, 18, 16⟩
def F.OFDM_ASSIGN_MODE (i : Nat) : Fld := ⟨0x38040 + 0x1000 * i, 9, 8⟩
def F.OFDM_ASSIGN_COMB (i : Nat) : Fld := ⟨0x38040 + 0x1000 * i, 0, 0⟩
def F.OFDM_BRANCH_VALID0 (i : Nat) : Fld := ⟨0x38044 + 0x1000 * i, 7, 7⟩
def F.OFDM_BRANCH_EXCL0 (i : Nat) : Fld := ⟨0x38044 + 0x1000 * i, 6, 6⟩
def F.OFDM_BRANCH_LANE0 (i : Nat) : Fld := ⟨0x38044 + 0x1000 * i, 4, 0⟩
def F.OFDM_BRANCH_VALID1 (i : Nat) : Fld := ⟨0x38044 + 0x1000 * i, 15, 15⟩
def F.OFDM_BRANCH_EXCL1 (i : Nat) : Fld := ⟨0x38044 + 0x1000 * i, 14, 14⟩
def F.OFDM_BRANCH_LANE1 (i : Nat) : Fld := ⟨0x38044 + 0x1000 * i, 12, 8⟩
def F.OFDM_BRANCH_VALID2 (i : Nat) : Fld := ⟨0x38044 + 0x1000 * i, 23, 23⟩
def F.OFDM_BRANCH_EXCL2 (i : Nat) : Fld := ⟨0x38044 + 0x1000 * i, 22, 22⟩
def F.OFDM_BRANCH_LANE2 (i : Nat) : Fld := ⟨0x38044 + 0x1000 * i, 20, 16⟩
def F.OFDM_BRANCH_VALID3 (i : Nat) : Fld := ⟨0x38044 + 0x1000 * i, 31, 31⟩
def F.OFDM_BRANCH_EXCL3 (i : Nat) : Fld := ⟨0x38044 + 0x1000 * i, 30, 30⟩
def F.OFDM_BRANCH_LANE3 (i : Nat) : Fld := ⟨0x38044 + 0x1000 * i, 28, 24⟩
def F.OFDM_ACQ_CFG_TIMEOUT_T2 (i : Nat) : Fld := ⟨0x38048 + 0x1000 * i, 31, 24⟩
def F.OFDM_ACQ_CFG_TIMEOUT_DRM (i : Nat) : Fld := ⟨0x38048 + 0x1000 * i, 23, 16⟩
def F.OFDM_ACQ_CFG_TIMEOUT_DAB (i : Nat) : Fld := ⟨0x38048 + 0x1000 * i, 15, 8⟩
def F.OFDM_ACQ_CFG_LOSS (i : Nat) : Fld := ⟨0x38048 + 0x1000 * i, 3, 0⟩
def F.OFDM_CAPT_CFG_MARGIN (i : Nat) : Fld := ⟨0x3804C + 0x1000 * i, 5, 0⟩
def F.OFDM_EQ_CFG_TIME_INT (i : Nat) : Fld := ⟨0x38050 + 0x1000 * i, 1, 1⟩
def F.OFDM_EQ_CFG_DQPSK_MODE (i : Nat) : Fld := ⟨0x38050 + 0x1000 * i, 0, 0⟩
def F.OFDM_STAT_STATE (i : Nat) : Fld := ⟨0x38054 + 0x1000 * i, 31, 30⟩
def F.OFDM_STAT_SEEN (i : Nat) : Fld := ⟨0x38054 + 0x1000 * i, 29, 28⟩
def F.OFDM_STAT_DRM_MODE (i : Nat) : Fld := ⟨0x38054 + 0x1000 * i, 26, 24⟩
def F.OFDM_STAT_DRM_OCC (i : Nat) : Fld := ⟨0x38054 + 0x1000 * i, 23, 21⟩
def F.OFDM_STAT_T2_FFT (i : Nat) : Fld := ⟨0x38054 + 0x1000 * i, 20, 18⟩
def F.OFDM_STAT_T2_GI (i : Nat) : Fld := ⟨0x38054 + 0x1000 * i, 17, 15⟩
def F.OFDM_STAT_T2_PP (i : Nat) : Fld := ⟨0x38054 + 0x1000 * i, 14, 12⟩
def F.OFDM_STAT_T2_EXT (i : Nat) : Fld := ⟨0x38054 + 0x1000 * i, 11, 11⟩
def F.OFDM_STAT_MODE_VALID (i : Nat) : Fld := ⟨0x38054 + 0x1000 * i, 10, 10⟩
def F.OFDM_STAT_BRANCHES (i : Nat) : Fld := ⟨0x38054 + 0x1000 * i, 7, 5⟩
def F.OFDM_SYNC_FREQ_OFS (i : Nat) : Fld := ⟨0x38058 + 0x1000 * i, 31, 16⟩
def F.OFDM_SYNC_RATE_ERR (i : Nat) : Fld := ⟨0x38058 + 0x1000 * i, 15, 0⟩
def F.OFDM_FRAME_TIME_US (i : Nat) : Fld := ⟨0x3805C + 0x1000 * i, 31, 0⟩
def F.OFDM_QUAL (i : Nat) : Fld := ⟨0x38060 + 0x1000 * i, 31, 24⟩
def F.OFDM_QUAL_BEYOND_DB (i : Nat) : Fld := ⟨0x38060 + 0x1000 * i, 23, 16⟩
def F.OFDM_QUAL_MER (i : Nat) : Fld := ⟨0x38060 + 0x1000 * i, 15, 0⟩
def F.OFDM_BR_SNR_SNR0 (i : Nat) : Fld := ⟨0x38064 + 0x1000 * i, 7, 0⟩
def F.OFDM_BR_SNR_SNR1 (i : Nat) : Fld := ⟨0x38064 + 0x1000 * i, 15, 8⟩
def F.OFDM_BR_SNR_SNR2 (i : Nat) : Fld := ⟨0x38064 + 0x1000 * i, 23, 16⟩
def F.OFDM_BR_SNR_SNR3 (i : Nat) : Fld := ⟨0x38064 + 0x1000 * i, 31, 24⟩
def F.OFDM_CAPT_EXCESS (i : Nat) : Fld := ⟨0x38068 + 0x1000 * i, 31, 24⟩
def F.OFDM_CAPT_IN_LOCKED (i : Nat) : Fld := ⟨0x38068 + 0x1000 * i, 23, 23⟩
def F.OFDM_CAPT_SHIFT (i : Nat) : Fld := ⟨0x38068 + 0x1000 * i, 22, 0⟩
def F.OFDM_COUNT_CAPTURES (i : Nat) : Fld := ⟨0x3806C + 0x1000 * i, 31, 16⟩
def F.OFDM_COUNT_STRONGER (i : Nat) : Fld := ⟨0x3806C + 0x1000 * i, 15, 0⟩
def F.OFDM_COUNT2_ERASED (i : Nat) : Fld := ⟨0x38070 + 0x1000 * i, 31, 16⟩
def F.OFDM_COUNT2_LOSSES (i : Nat) : Fld := ⟨0x38070 + 0x1000 * i, 15, 0⟩
def F.OFDM_X_ACQ_CAPTURE_LOCKED (i : Nat) : Fld := ⟨0x38400 + 0x1000 * i, 31, 31⟩
def F.OFDM_X_ACQ_DET_THR (i : Nat) : Fld := ⟨0x38400 + 0x1000 * i, 23, 16⟩
def F.OFDM_X_ACQ_FREQ_RANGE (i : Nat) : Fld := ⟨0x38400 + 0x1000 * i, 4, 0⟩
def F.OFDM_X_TRK_TIME_LOOP (i : Nat) : Fld := ⟨0x38404 + 0x1000 * i, 11, 8⟩
def F.OFDM_X_TRK_FREQ_LOOP (i : Nat) : Fld := ⟨0x38404 + 0x1000 * i, 3, 0⟩
def F.OFDM_X_EQ_ASSIST (i : Nat) : Fld := ⟨0x38408 + 0x1000 * i, 12, 8⟩
def F.OFDM_X_EQ_TRACK (i : Nat) : Fld := ⟨0x38408 + 0x1000 * i, 7, 4⟩
def F.OFDM_X_EQ_TIME_INT (i : Nat) : Fld := ⟨0x38408 + 0x1000 * i, 0, 0⟩
def F.OFDM_X_COMB_EXCL_DB (i : Nat) : Fld := ⟨0x3840C + 0x1000 * i, 7, 0⟩
/-! Fields of the ANA page. -/
def F.ANA_ASSIGN_PLACED (i : Nat) : Fld := ⟨0x40040 + 0x1000 * i, 31, 31⟩
def F.ANA_ASSIGN_HAMPER (i : Nat) : Fld := ⟨0x40040 + 0x1000 * i, 30, 24⟩
def F.ANA_ASSIGN_MODE (i : Nat) : Fld := ⟨0x40040 + 0x1000 * i, 17, 16⟩
def F.ANA_ASSIGN_LANE1_VALID (i : Nat) : Fld := ⟨0x40040 + 0x1000 * i, 13, 13⟩
def F.ANA_ASSIGN_LANE1 (i : Nat) : Fld := ⟨0x40040 + 0x1000 * i, 12, 8⟩
def F.ANA_ASSIGN_LANE0_VALID (i : Nat) : Fld := ⟨0x40040 + 0x1000 * i, 5, 5⟩
def F.ANA_ASSIGN_LANE0 (i : Nat) : Fld := ⟨0x40040 + 0x1000 * i, 4, 0⟩
def F.ANA_FM_CFG_BW_FIX (i : Nat) : Fld := ⟨0x40044 + 0x1000 * i, 10, 8⟩
def F.ANA_FM_CFG_BW_AUTO (i : Nat) : Fld := ⟨0x40044 + 0x1000 * i, 7, 7⟩
def F.ANA_FM_CFG_NB_EN (i : Nat) : Fld := ⟨0x40044 + 0x1000 * i, 6, 6⟩
def F.ANA_FM_CFG_SOFTMUTE (i : Nat) : Fld := ⟨0x40044 + 0x1000 * i, 5, 5⟩
def F.ANA_FM_CFG_STEREO_EN (i : Nat) : Fld := ⟨0x40044 + 0x1000 * i, 4, 4⟩
def F.ANA_FM_CFG_DEEMPH (i : Nat) : Fld := ⟨0x40044 + 0x1000 * i, 0, 0⟩
def F.ANA_AM_CFG_BW_FIX (i : Nat) : Fld := ⟨0x40048 + 0x1000 * i, 10, 8⟩
def F.ANA_AM_CFG_BW_AUTO (i : Nat) : Fld := ⟨0x40048 + 0x1000 * i, 7, 7⟩
def F.ANA_AM_CFG_NB_EN (i : Nat) : Fld := ⟨0x40048 + 0x1000 * i, 6, 6⟩
def F.ANA_AM_CFG_RASTER (i : Nat) : Fld := ⟨0x40048 + 0x1000 * i, 5, 4⟩
def F.ANA_AM_CFG_DETECT (i : Nat) : Fld := ⟨0x40048 + 0x1000 * i, 0, 0⟩
def F.ANA_RDS_CFG_DELIVER (i : Nat) : Fld := ⟨0x4004C + 0x1000 * i, 13, 12⟩
def F.ANA_RDS_CFG_ERR_MAX (i : Nat) : Fld := ⟨0x4004C + 0x1000 * i, 9, 8⟩
def F.ANA_RDS_CFG_RDS2_EN (i : Nat) : Fld := ⟨0x4004C + 0x1000 * i, 7, 5⟩
def F.ANA_RDS_CFG_EN (i : Nat) : Fld := ⟨0x4004C + 0x1000 * i, 4, 4⟩
def F.ANA_ACQ_CFG_ACQ_TIMEOUT (i : Nat) : Fld := ⟨0x40050 + 0x1000 * i, 31, 24⟩
def F.ANA_ACQ_CFG_LOSS (i : Nat) : Fld := ⟨0x40050 + 0x1000 * i, 23, 16⟩
def F.ANA_ACQ_CFG_LOCK_QUAL (i : Nat) : Fld := ⟨0x40050 + 0x1000 * i, 15, 8⟩
def F.ANA_ACQ_CFG_DET_SNR (i : Nat) : Fld := ⟨0x40050 + 0x1000 * i, 7, 0⟩
def F.ANA_STAT_STATE (i : Nat) : Fld := ⟨0x40054 + 0x1000 * i, 31, 30⟩
def F.ANA_STAT_BW_IN_USE (i : Nat) : Fld := ⟨0x40054 + 0x1000 * i, 29, 27⟩
def F.ANA_STAT_STEREO (i : Nat) : Fld := ⟨0x40054 + 0x1000 * i, 26, 26⟩
def F.ANA_STAT_PILOT (i : Nat) : Fld := ⟨0x40054 + 0x1000 * i, 25, 25⟩
def F.ANA_STAT_SYNC_DET (i : Nat) : Fld := ⟨0x40054 + 0x1000 * i, 24, 24⟩
def F.ANA_STAT_RDS_SYNC (i : Nat) : Fld := ⟨0x40054 + 0x1000 * i, 23, 20⟩
def F.ANA_STAT_IDENT (i : Nat) : Fld := ⟨0x40054 + 0x1000 * i, 19, 18⟩
def F.ANA_STAT_BRANCHES (i : Nat) : Fld := ⟨0x40054 + 0x1000 * i, 17, 16⟩
def F.ANA_STAT_PI (i : Nat) : Fld := ⟨0x40054 + 0x1000 * i, 15, 0⟩
def F.ANA_QUAL (i : Nat) : Fld := ⟨0x40058 + 0x1000 * i, 31, 24⟩
def F.ANA_QUAL_MP (i : Nat) : Fld := ⟨0x40058 + 0x1000 * i, 23, 16⟩
def F.ANA_QUAL_CNR (i : Nat) : Fld := ⟨0x40058 + 0x1000 * i, 15, 0⟩
def F.ANA_LEVEL_ADJ_DBC (i : Nat) : Fld := ⟨0x4005C + 0x1000 * i, 31, 16⟩
def F.ANA_LEVEL_LEVEL_DBM (i : Nat) : Fld := ⟨0x4005C + 0x1000 * i, 15, 0⟩
def F.ANA_RDS_COUNT_BLOCKS_OK (i : Nat) : Fld := ⟨0x40060 + 0x1000 * i, 31, 16⟩
def F.ANA_RDS_COUNT_BLOCKS_BAD (i : Nat) : Fld := ⟨0x40060 + 0x1000 * i, 15, 0⟩
def F.ANA_DIV_STAT_W1 (i : Nat) : Fld := ⟨0x40064 + 0x1000 * i, 31, 24⟩
def F.ANA_DIV_STAT_W0 (i : Nat) : Fld := ⟨0x40064 + 0x1000 * i, 23, 16⟩
def F.ANA_DIV_STAT_EXCL1 (i : Nat) : Fld := ⟨0x40064 + 0x1000 * i, 1, 1⟩
def F.ANA_DIV_STAT_EXCL0 (i : Nat) : Fld := ⟨0x40064 + 0x1000 * i, 0, 0⟩
def F.ANA_COUNT_NB_PULSES (i : Nat) : Fld := ⟨0x40068 + 0x1000 * i, 31, 16⟩
def F.ANA_COUNT_BRIDGES (i : Nat) : Fld := ⟨0x40068 + 0x1000 * i, 15, 0⟩
def F.ANA_X_AUDIO_BLEND_HI (i : Nat) : Fld := ⟨0x40400 + 0x1000 * i, 31, 24⟩
def F.ANA_X_AUDIO_BLEND_LO (i : Nat) : Fld := ⟨0x40400 + 0x1000 * i, 23, 16⟩
def F.ANA_X_AUDIO_SM_START (i : Nat) : Fld := ⟨0x40400 + 0x1000 * i, 15, 8⟩
def F.ANA_X_AUDIO_SM_DEPTH (i : Nat) : Fld := ⟨0x40400 + 0x1000 * i, 7, 0⟩
def F.ANA_X_BW_FM_NARROW (i : Nat) : Fld := ⟨0x40404 + 0x1000 * i, 31, 24⟩
def F.ANA_X_BW_FM_WIDE (i : Nat) : Fld := ⟨0x40404 + 0x1000 * i, 23, 16⟩
def F.ANA_X_BW_FM_DWELL (i : Nat) : Fld := ⟨0x40404 + 0x1000 * i, 7, 0⟩
def F.ANA_X_BW_AM_NARROW (i : Nat) : Fld := ⟨0x40408 + 0x1000 * i, 31, 24⟩
def F.ANA_X_BW_AM_WIDE (i : Nat) : Fld := ⟨0x40408 + 0x1000 * i, 23, 16⟩
def F.ANA_X_BW_AM_DWELL (i : Nat) : Fld := ⟨0x40408 + 0x1000 * i, 7, 0⟩
def F.ANA_X_NB_THR (i : Nat) : Fld := ⟨0x4040C + 0x1000 * i, 31, 24⟩
def F.ANA_X_NB_BRIDGE_MAX (i : Nat) : Fld := ⟨0x4040C + 0x1000 * i, 15, 8⟩
def F.ANA_X_NB_RATE_MAX (i : Nat) : Fld := ⟨0x4040C + 0x1000 * i, 7, 0⟩
def F.ANA_X_RDS_SYNC_BAD (i : Nat) : Fld := ⟨0x40410 + 0x1000 * i, 7, 0⟩
/-! Fields of the FEC page. -/
def F.FEC_VRS_CFG_ITER_MAX : Fld := ⟨0x50040, 2, 0⟩
def F.FEC_LDPC_CFG_EARLY_STOP : Fld := ⟨0x50044, 8, 8⟩
def F.FEC_LDPC_CFG_MAX_ITER : Fld := ⟨0x50044, 5, 0⟩
def F.FEC_OUT_CFG_SIG_OUT : Fld := ⟨0x50048, 1, 1⟩
def F.FEC_OUT_CFG_PASS_BAD : Fld := ⟨0x50048, 0, 0⟩
def F.FEC_BER_CFG_WARN : Fld := ⟨0x5004C, 15, 0⟩
def F.FEC_COMB_CFG_SKEW_MAX : Fld := ⟨0x50050, 3, 0⟩
def F.FEC_POOL_CFG_WAIT_US : Fld := ⟨0x50054, 15, 0⟩
def F.FEC_LAST_BAD_VALID : Fld := ⟨0x50058, 31, 31⟩
def F.FEC_LAST_BAD_CAUSE : Fld := ⟨0x50058, 30, 28⟩
def F.FEC_LAST_BAD_KIND : Fld := ⟨0x50058, 27, 24⟩
def F.FEC_LAST_BAD_UTYPE : Fld := ⟨0x50058, 23, 23⟩
def F.FEC_LAST_BAD_UNIT : Fld := ⟨0x50058, 22, 21⟩
def F.FEC_LAST_BAD_HAMPER : Fld := ⟨0x50058, 20, 14⟩
def F.FEC_LAST_BAD_STREAM : Fld := ⟨0x50058, 7, 0⟩
def F.FEC_COUNT_OVERRUNS : Fld := ⟨0x5005C, 31, 16⟩
def F.FEC_COUNT_POOL_WAITS : Fld := ⟨0x5005C, 15, 0⟩
def F.FEC_COMB_STAT_ACTIVE (k : Nat) : Fld := ⟨0x50060 + 4 * k, 31, 31⟩
def F.FEC_COMB_STAT_PAIRED (k : Nat) : Fld := ⟨0x50060 + 4 * k, 30, 30⟩
def F.FEC_COMB_STAT_OFF_REASON (k : Nat) : Fld := ⟨0x50060 + 4 * k, 29, 27⟩
def F.FEC_COMB_STAT_SKEW (k : Nat) : Fld := ⟨0x50060 + 4 * k, 26, 13⟩
def F.FEC_COMB_STAT_SHARE_B (k : Nat) : Fld := ⟨0x50060 + 4 * k, 7, 0⟩
def F.FEC_BER (k : Nat) : Fld := ⟨0x50070 + 4 * k, 15, 0⟩
def F.FEC_LDPC_STAT_BACKLOG (k : Nat) : Fld := ⟨0x50090 + 4 * k, 31, 24⟩
def F.FEC_LDPC_STAT_BOUND (k : Nat) : Fld := ⟨0x50090 + 4 * k, 23, 16⟩
def F.FEC_LDPC_STAT_LAST_ITER (k : Nat) : Fld := ⟨0x50090 + 4 * k, 15, 8⟩
def F.FEC_LDPC_STAT_CAPPED (k : Nat) : Fld := ⟨0x50090 + 4 * k, 0, 0⟩
def F.FEC_FOUND_HAMPERS (k : Nat) : Fld := ⟨0x500A0 + 4 * k, 31, 0⟩
def F.FEC_X_VRS_PRIOR : Fld := ⟨0x50400, 15, 8⟩
def F.FEC_X_VRS_ERASE_THR : Fld := ⟨0x50400, 7, 0⟩
def F.FEC_X_LDPC_LOAD_THR : Fld := ⟨0x50404, 15, 8⟩
def F.FEC_X_LDPC_LOAD_ITER : Fld := ⟨0x50404, 7, 0⟩
def F.FEC_HSTAT0_BLOCKS_OK (k : Nat) : Fld := ⟨0x50800 + 8 * k, 31, 16⟩
def F.FEC_HSTAT0_BLOCKS_BAD (k : Nat) : Fld := ⟨0x50800 + 8 * k, 15, 0⟩
def F.FEC_HSTAT1_CORRECTED (k : Nat) : Fld := ⟨0x50804 + 8 * k, 31, 16⟩
def F.FEC_HSTAT1_ITER_LIMITS (k : Nat) : Fld := ⟨0x50804 + 8 * k, 15, 0⟩
/-! Fields of the ADEC page. -/
def F.ADEC_CFG_DRC_EN : Fld := ⟨0x51040, 8, 8⟩
def F.ADEC_CFG_CONCEAL_MAX : Fld := ⟨0x51040, 3, 0⟩
def F.ADEC_ENG_BOUND (k : Nat) : Fld := ⟨0x51050 + 4 * k, 23, 16⟩
def F.ADEC_ENG_CHARGE (k : Nat) : Fld := ⟨0x51050 + 4 * k, 7, 0⟩
def F.ADEC_LAST_ERR_VALID : Fld := ⟨0x51070, 31, 31⟩
def F.ADEC_LAST_ERR_CODE : Fld := ⟨0x51070, 25, 24⟩
def F.ADEC_LAST_ERR_HAMPER : Fld := ⟨0x51070, 22, 16⟩
def F.ADEC_LAST_ERR_ENGINE : Fld := ⟨0x51070, 2, 0⟩
def F.ADEC_HSTAT0_FORMAT (k : Nat) : Fld := ⟨0x51800 + 8 * k, 31, 28⟩
def F.ADEC_HSTAT0_CHANNELS (k : Nat) : Fld := ⟨0x51800 + 8 * k, 27, 26⟩
def F.ADEC_HSTAT0_SR_IN (k : Nat) : Fld := ⟨0x51800 + 8 * k, 25, 24⟩
def F.ADEC_HSTAT0_MUTED (k : Nat) : Fld := ⟨0x51800 + 8 * k, 23, 23⟩
def F.ADEC_HSTAT0_ENGINE (k : Nat) : Fld := ⟨0x51800 + 8 * k, 22, 20⟩
def F.ADEC_HSTAT0_KBPS (k : Nat) : Fld := ⟨0x51800 + 8 * k, 15, 0⟩
def F.ADEC_HSTAT1_CONCEALED (k : Nat) : Fld := ⟨0x51804 + 8 * k, 31, 16⟩
def F.ADEC_HSTAT1_MUTES (k : Nat) : Fld := ⟨0x51804 + 8 * k, 15, 0⟩
/-! Fields of the PLACE page. -/
def F.PLACE_STAT_PLACED : Fld := ⟨0x52040, 31, 24⟩
def F.PLACE_STAT_WAITING : Fld := ⟨0x52040, 23, 16⟩
def F.PLACE_STAT_SUSPENDED : Fld := ⟨0x52040, 15, 8⟩
def F.PLACE_STAT_PASS_DUE : Fld := ⟨0x52040, 0, 0⟩
def F.PLACE_COMMIT_HAMPERS (k : Nat) : Fld := ⟨0x52050 + 4 * k, 31, 0⟩
def F.PLACE_EVENT_HAMPERS (k : Nat) : Fld := ⟨0x52060 + 4 * k, 31, 0⟩
def F.PLACE_FREE0_LANES : Fld := ⟨0x52070, 28, 24⟩
def F.PLACE_FREE0_OFDM : Fld := ⟨0x52070, 19, 16⟩
def F.PLACE_FREE0_ANA : Fld := ⟨0x52070, 12, 8⟩
def F.PLACE_FREE0_VRS : Fld := ⟨0x52070, 2, 0⟩
def F.PLACE_FREE1_LDPC : Fld := ⟨0x52074, 31, 30⟩
def F.PLACE_FREE1_ADEC : Fld := ⟨0x52074, 26, 24⟩
def F.PLACE_FREE1_MEM_KIB : Fld := ⟨0x52074, 15, 0⟩
def F.PLACE_REJ_CAPT_VALID : Fld := ⟨0x52078, 31, 31⟩
def F.PLACE_REJ_CAPT_HAMPER : Fld := ⟨0x52078, 22, 16⟩
def F.PLACE_REJ_CAPT_CODE : Fld := ⟨0x52078, 3, 0⟩
def F.PLACE_PASS_COUNT : Fld := ⟨0x5207C, 31, 16⟩
def F.PLACE_PASS_LAST_NS : Fld := ⟨0x5207C, 15, 0⟩
def F.PLACE_FOLLOW_CFG_EN : Fld := ⟨0x52080, 31, 31⟩
def F.PLACE_FOLLOW_CFG_CROSS : Fld := ⟨0x52080, 30, 30⟩
def F.PLACE_FOLLOW_CFG_HOLDOFF : Fld := ⟨0x52080, 29, 24⟩
def F.PLACE_FOLLOW_CFG_DWELL : Fld := ⟨0x52080, 23, 16⟩
def F.PLACE_FOLLOW_CFG_FAIL_QUAL : Fld := ⟨0x52080, 15, 8⟩
def F.PLACE_FOLLOW_CFG_HYST : Fld := ⟨0x52080, 7, 0⟩
def F.PLACE_BLEND_CFG_XFADE : Fld := ⟨0x52084, 31, 24⟩
def F.PLACE_BLEND_CFG_CORR_MIN : Fld := ⟨0x52084, 23, 16⟩
def F.PLACE_BLEND_CFG_ALIGN_TRIES : Fld := ⟨0x52084, 15, 12⟩
def F.PLACE_BLEND_CFG_MAX_OFS : Fld := ⟨0x52084, 11, 0⟩
def F.PLACE_BEACON_CFG_MIN_REL : Fld := ⟨0x52088, 15, 8⟩
def F.PLACE_BEACON_CFG_PERIOD_S : Fld := ⟨0x52088, 7, 0⟩
def F.PLACE_FOLLOW_CNT_SWITCHES : Fld := ⟨0x5208C, 31, 16⟩
def F.PLACE_FOLLOW_CNT_FAILS : Fld := ⟨0x5208C, 15, 0⟩
def F.PLACE_FOLLOW_CAPT_VALID : Fld := ⟨0x52090, 31, 31⟩
def F.PLACE_FOLLOW_CAPT_REASON : Fld := ⟨0x52090, 26, 24⟩
def F.PLACE_FOLLOW_CAPT_HAMPER : Fld := ⟨0x52090, 22, 16⟩
def F.PLACE_FOLLOW_CNT2_MEASURED : Fld := ⟨0x52094, 31, 16⟩
def F.PLACE_FOLLOW_CNT2_ABANDONED : Fld := ⟨0x52094, 15, 0⟩
def F.PLACE_X_POLICY_ADD_DWELL : Fld := ⟨0x52400, 31, 24⟩
def F.PLACE_X_POLICY_PREEMPT : Fld := ⟨0x52400, 1, 1⟩
def F.PLACE_X_POLICY_HOT_SHED : Fld := ⟨0x52400, 0, 0⟩
def F.PLACE_X_FOLLOW_BAD_HOLD : Fld := ⟨0x52404, 31, 24⟩
def F.PLACE_X_FOLLOW_DIG_BIAS : Fld := ⟨0x52404, 23, 16⟩
def F.PLACE_X_FOLLOW_STRETCH : Fld := ⟨0x52404, 15, 8⟩
def F.PLACE_X_FOLLOW_LEVEL_MAX : Fld := ⟨0x52404, 7, 0⟩
def F.PLACE_FOLLOW_W0_STATE (k : Nat) : Fld := ⟨0x52800 + 16 * k, 31, 29⟩
def F.PLACE_FOLLOW_W0_ALIGNED (k : Nat) : Fld := ⟨0x52800 + 16 * k, 28, 28⟩
def F.PLACE_FOLLOW_W0_BEARER_NOW (k : Nat) : Fld := ⟨0x52800 + 16 * k, 27, 25⟩
def F.PLACE_FOLLOW_W0_BEST_BEARER (k : Nat) : Fld := ⟨0x52800 + 16 * k, 24, 22⟩
def F.PLACE_FOLLOW_W0_BEST_SRC (k : Nat) : Fld := ⟨0x52800 + 16 * k, 21, 18⟩
def F.PLACE_FOLLOW_W0_BEST_QUAL (k : Nat) : Fld := ⟨0x52800 + 16 * k, 15, 8⟩
def F.PLACE_FOLLOW_W0_CANDS (k : Nat) : Fld := ⟨0x52800 + 16 * k, 7, 0⟩
def F.PLACE_FOLLOW_W1_BEST_FREQ (k : Nat) : Fld := ⟨0x52804 + 16 * k, 31, 0⟩
def F.PLACE_FOLLOW_W2_OFFSET (k : Nat) : Fld := ⟨0x52808 + 16 * k, 31, 8⟩
def F.PLACE_FOLLOW_W2_GAIN (k : Nat) : Fld := ⟨0x52808 + 16 * k, 7, 0⟩
def F.PLACE_FOLLOW_W3_STANDING (k : Nat) : Fld := ⟨0x5280C + 16 * k, 23, 0⟩
/-! Fields of the DATA page. -/
def F.DATA_CFG_TOL_S : Fld := ⟨0x53040, 31, 24⟩
def F.DATA_CFG_ASSY_TO_S : Fld := ⟨0x53040, 23, 16⟩
def F.DATA_CFG_NOTICE_BASKET : Fld := ⟨0x53040, 3, 0⟩
def F.DATA_ENV_STAT_QUEUED : Fld := ⟨0x53044, 31, 24⟩
def F.DATA_ENV_STAT_BUSY : Fld := ⟨0x53044, 23, 23⟩
def F.DATA_ENV_STAT_OTP_BUSY : Fld := ⟨0x53044, 22, 22⟩
def F.DATA_ENV_STAT_LAST_RESULT : Fld := ⟨0x53044, 3, 0⟩
def F.DATA_COUNT0_ACCEPTED : Fld := ⟨0x53048, 31, 16⟩
def F.DATA_COUNT0_REPEATS : Fld := ⟨0x53048, 15, 0⟩
def F.DATA_COUNT1_SIG_FAILS : Fld := ⟨0x5304C, 31, 16⟩
def F.DATA_COUNT1_REJECTS : Fld := ⟨0x5304C, 15, 0⟩
def F.DATA_COUNT2_ASSY_DROPS : Fld := ⟨0x53050, 31, 16⟩
def F.DATA_COUNT2_DRAIN_LOST : Fld := ⟨0x53050, 15, 0⟩
def F.DATA_REJ_CAPT_VALID : Fld := ⟨0x53054, 31, 31⟩
def F.DATA_REJ_CAPT_REASON : Fld := ⟨0x53054, 30, 27⟩
def F.DATA_REJ_CAPT_SLOT : Fld := ⟨0x53054, 26, 24⟩
def F.DATA_REJ_CAPT_HAMPER : Fld := ⟨0x53054, 22, 16⟩
def F.DATA_REJ_CAPT_TYPE : Fld := ⟨0x53054, 15, 0⟩
def F.DATA_REJ_SEQ_HI_SEQ : Fld := ⟨0x53058, 31, 0⟩
def F.DATA_REJ_SEQ_LO_SEQ : Fld := ⟨0x5305C, 31, 0⟩
def F.DATA_CHAIN_COUNT : Fld := ⟨0x53060, 31, 16⟩
def F.DATA_CHAIN_HAMPER : Fld := ⟨0x53060, 14, 8⟩
def F.DATA_CHAIN_STAGE : Fld := ⟨0x53060, 3, 0⟩
def F.DATA_REGION_COUNT : Fld := ⟨0x53064, 31, 16⟩
def F.DATA_REGION_HAMPER : Fld := ⟨0x53064, 6, 0⟩
def F.DATA_NTC_STAT_READY : Fld := ⟨0x53070, 31, 31⟩
def F.DATA_NTC_STAT_PENDING : Fld := ⟨0x53070, 15, 0⟩
def F.DATA_NTC_INFO_TYPE : Fld := ⟨0x53074, 31, 16⟩
def F.DATA_NTC_INFO_SLOT : Fld := ⟨0x53074, 10, 8⟩
def F.DATA_NTC_INFO_EXPIRED : Fld := ⟨0x53074, 1, 1⟩
def F.DATA_NTC_INFO_VALID : Fld := ⟨0x53074, 0, 0⟩
def F.DATA_NTC_LEN_LEN : Fld := ⟨0x53078, 16, 0⟩
def F.DATA_NTC_OBJ_OBJ : Fld := ⟨0x5307C, 31, 0⟩
def F.DATA_NTC_SEQ_HI_SEQ : Fld := ⟨0x53080, 31, 0⟩
def F.DATA_NTC_SEQ_LO_SEQ : Fld := ⟨0x53084, 31, 0⟩
def F.DATA_NTC_OFS : Fld := ⟨0x53088, 15, 0⟩
def F.DATA_NTC_ACK : Fld := ⟨0x5308C, 31, 0⟩
def F.DATA_SLOT_PROG (k : Nat) : Fld := ⟨0x530A0 + 4 * k, 31, 31⟩
def F.DATA_SLOT_LOCK (k : Nat) : Fld := ⟨0x530A0 + 4 * k, 30, 30⟩
def F.DATA_SLOT_ADMIN (k : Nat) : Fld := ⟨0x530A0 + 4 * k, 29, 29⟩
def F.DATA_SLOT_REVOKED (k : Nat) : Fld := ⟨0x530A0 + 4 * k, 28, 28⟩
def F.DATA_SLOT_GEN_MAP (k : Nat) : Fld := ⟨0x530A0 + 4 * k, 19, 16⟩
def F.DATA_SLOT_GEN (k : Nat) : Fld := ⟨0x530A0 + 4 * k, 1, 0⟩
def F.DATA_SEQ_HI_SEQ (k : Nat) : Fld := ⟨0x530C0 + 8 * k, 31, 0⟩
def F.DATA_SEQ_LO_SEQ (k : Nat) : Fld := ⟨0x530C4 + 8 * k, 31, 0⟩
def F.DATA_KEY_PROG_KEY : Fld := ⟨0x53100, 31, 16⟩
def F.DATA_KEY_PROG_SLOT : Fld := ⟨0x53100, 10, 8⟩
def F.DATA_KEY_PROG_OP : Fld := ⟨0x53100, 1, 0⟩
def F.DATA_KEY_BUF_BYTES (k : Nat) : Fld := ⟨0x53140 + 4 * k, 31, 0⟩
def F.DATA_NTC_WIN_WORD (k : Nat) : Fld := ⟨0x53800 + 4 * k, 31, 0⟩
/-! Fields of the HAMPER page. -/
def F.HAMPER_CTRL_EN (i : Nat) : Fld := ⟨0x60000 + 0x200 * i, 31, 31⟩
def F.HAMPER_CTRL_ROLE (i : Nat) : Fld := ⟨0x60000 + 0x200 * i, 30, 28⟩
def F.HAMPER_CTRL_COMBINE (i : Nat) : Fld := ⟨0x60000 + 0x200 * i, 27, 27⟩
def F.HAMPER_CTRL_BEARER (i : Nat) : Fld := ⟨0x60000 + 0x200 * i, 26, 24⟩
def F.HAMPER_CTRL_PRIORITY (i : Nat) : Fld := ⟨0x60000 + 0x200 * i, 23, 16⟩
def F.HAMPER_CTRL_LINK (i : Nat) : Fld := ⟨0x60000 + 0x200 * i, 14, 8⟩
def F.HAMPER_CTRL_DIVERSITY (i : Nat) : Fld := ⟨0x60000 + 0x200 * i, 7, 4⟩
def F.HAMPER_CTRL_DIV_MIN (i : Nat) : Fld := ⟨0x60000 + 0x200 * i, 3, 0⟩
def F.HAMPER_FREQ_HZ (i : Nat) : Fld := ⟨0x60004 + 0x200 * i, 31, 0⟩
def F.HAMPER_FREQ2_HZ (i : Nat) : Fld := ⟨0x60008 + 0x200 * i, 31, 0⟩
def F.HAMPER_ID0 (i : Nat) : Fld := ⟨0x6000C + 0x200 * i, 31, 0⟩
def F.HAMPER_ID1 (i : Nat) : Fld := ⟨0x60010 + 0x200 * i, 31, 0⟩
def F.HAMPER_MIN_QUAL (i : Nat) : Fld := ⟨0x60014 + 0x200 * i, 7, 0⟩
def F.HAMPER_INPUT_MASK (i : Nat) : Fld := ⟨0x60018 + 0x200 * i, 3, 0⟩
def F.HAMPER_QUOTA_QUEUE_KIB (i : Nat) : Fld := ⟨0x6001C + 0x200 * i, 31, 16⟩
def F.HAMPER_QUOTA_ASSY_KIB (i : Nat) : Fld := ⟨0x6001C + 0x200 * i, 15, 0⟩
def F.HAMPER_RATE_RATE_KBPS (i : Nat) : Fld := ⟨0x60020 + 0x200 * i, 31, 16⟩
def F.HAMPER_RATE_BURST_KIB (i : Nat) : Fld := ⟨0x60020 + 0x200 * i, 15, 0⟩
def F.HAMPER_DEST_AUD_EN (i : Nat) : Fld := ⟨0x60024 + 0x200 * i, 31, 31⟩
def F.HAMPER_DEST_AUD_PORT (i : Nat) : Fld := ⟨0x60024 + 0x200 * i, 29, 28⟩
def F.HAMPER_DEST_AUD_SLOT (i : Nat) : Fld := ⟨0x60024 + 0x200 * i, 27, 24⟩
def F.HAMPER_DEST_STORE (i : Nat) : Fld := ⟨0x60024 + 0x200 * i, 18, 18⟩
def F.HAMPER_DEST_READOUT (i : Nat) : Fld := ⟨0x60024 + 0x200 * i, 17, 17⟩
def F.HAMPER_DEST_STRM (i : Nat) : Fld := ⟨0x60024 + 0x200 * i, 16, 16⟩
def F.HAMPER_DEST_BASKET (i : Nat) : Fld := ⟨0x60024 + 0x200 * i, 3, 0⟩
def F.HAMPER_SCAN_STOP_HZ (i : Nat) : Fld := ⟨0x60028 + 0x200 * i, 31, 0⟩
def F.HAMPER_SCAN_STEP_HZ (i : Nat) : Fld := ⟨0x6002C + 0x200 * i, 31, 0⟩
def F.HAMPER_PIN0_PIN_LANES (i : Nat) : Fld := ⟨0x60030 + 0x200 * i, 31, 31⟩
def F.HAMPER_PIN0_LANES (i : Nat) : Fld := ⟨0x60030 + 0x200 * i, 23, 0⟩
def F.HAMPER_PIN1_PIN_ENG (i : Nat) : Fld := ⟨0x60034 + 0x200 * i, 31, 31⟩
def F.HAMPER_PIN1_PIN_FEC (i : Nat) : Fld := ⟨0x60034 + 0x200 * i, 30, 30⟩
def F.HAMPER_PIN1_PIN_ADEC (i : Nat) : Fld := ⟨0x60034 + 0x200 * i, 29, 29⟩
def F.HAMPER_PIN1_PIN_MEM (i : Nat) : Fld := ⟨0x60034 + 0x200 * i, 28, 28⟩
def F.HAMPER_PIN1_PIN_INPUTS (i : Nat) : Fld := ⟨0x60034 + 0x200 * i, 27, 27⟩
def F.HAMPER_PIN1_BR_INPUT (i : Nat) : Fld := ⟨0x60034 + 0x200 * i, 23, 16⟩
def F.HAMPER_PIN1_MEM_CLUS (i : Nat) : Fld := ⟨0x60034 + 0x200 * i, 15, 14⟩
def F.HAMPER_PIN1_ENG_TYPE (i : Nat) : Fld := ⟨0x60034 + 0x200 * i, 12, 12⟩
def F.HAMPER_PIN1_ENGINE (i : Nat) : Fld := ⟨0x60034 + 0x200 * i, 11, 8⟩
def F.HAMPER_PIN1_FEC (i : Nat) : Fld := ⟨0x60034 + 0x200 * i, 5, 4⟩
def F.HAMPER_PIN1_ADEC (i : Nat) : Fld := ⟨0x60034 + 0x200 * i, 2, 0⟩
def F.HAMPER_RSTAT_STATE (i : Nat) : Fld := ⟨0x60100 + 0x200 * i, 31, 29⟩
def F.HAMPER_RSTAT_REASON (i : Nat) : Fld := ⟨0x60100 + 0x200 * i, 28, 25⟩
def F.HAMPER_RSTAT_COMBINED (i : Nat) : Fld := ⟨0x60100 + 0x200 * i, 24, 24⟩
def F.HAMPER_RSTAT_SEQ (i : Nat) : Fld := ⟨0x60100 + 0x200 * i, 23, 16⟩
def F.HAMPER_RSTAT_QUAL (i : Nat) : Fld := ⟨0x60100 + 0x200 * i, 15, 8⟩
def F.HAMPER_RSTAT_BRANCHES (i : Nat) : Fld := ⟨0x60100 + 0x200 * i, 7, 5⟩
def F.HAMPER_RLANES_LANES (i : Nat) : Fld := ⟨0x60104 + 0x200 * i, 23, 0⟩
def F.HAMPER_RUNITS_ENG_VALID (i : Nat) : Fld := ⟨0x60108 + 0x200 * i, 31, 31⟩
def F.HAMPER_RUNITS_ENG_TYPE (i : Nat) : Fld := ⟨0x60108 + 0x200 * i, 30, 30⟩
def F.HAMPER_RUNITS_ENGINE (i : Nat) : Fld := ⟨0x60108 + 0x200 * i, 27, 24⟩
def F.HAMPER_RUNITS_FEC_VALID (i : Nat) : Fld := ⟨0x60108 + 0x200 * i, 23, 23⟩
def F.HAMPER_RUNITS_FEC (i : Nat) : Fld := ⟨0x60108 + 0x200 * i, 21, 20⟩
def F.HAMPER_RUNITS_ADEC_VALID (i : Nat) : Fld := ⟨0x60108 + 0x200 * i, 19, 19⟩
def F.HAMPER_RUNITS_ADEC (i : Nat) : Fld := ⟨0x60108 + 0x200 * i, 18, 16⟩
def F.HAMPER_RUNITS_CLUSTER (i : Nat) : Fld := ⟨0x60108 + 0x200 * i, 13, 12⟩
def F.HAMPER_RUNITS_BR_INPUT (i : Nat) : Fld := ⟨0x60108 + 0x200 * i, 11, 8⟩
def F.HAMPER_RUNITS_BR_INPUT_HI (i : Nat) : Fld := ⟨0x60108 + 0x200 * i, 7, 4⟩
def F.HAMPER_RFREQ_S_FREQ (i : Nat) : Fld := ⟨0x6010C + 0x200 * i, 31, 0⟩
def F.HAMPER_RREGION_REGION_KIB (i : Nat) : Fld := ⟨0x60110 + 0x200 * i, 31, 16⟩
def F.HAMPER_RREGION_REGION_CLUS (i : Nat) : Fld := ⟨0x60110 + 0x200 * i, 1, 0⟩
def F.HAMPER_RALT_ALT_VALID (i : Nat) : Fld := ⟨0x60114 + 0x200 * i, 31, 31⟩
def F.HAMPER_RALT_ALT_ENGINE (i : Nat) : Fld := ⟨0x60114 + 0x200 * i, 27, 24⟩
def F.HAMPER_RALT_ALT_LANES (i : Nat) : Fld := ⟨0x60114 + 0x200 * i, 23, 0⟩
def F.HAMPER_RCOUNT_MOVES (i : Nat) : Fld := ⟨0x60118 + 0x200 * i, 31, 16⟩
def F.HAMPER_RCOUNT_PLACEMENTS (i : Nat) : Fld := ⟨0x60118 + 0x200 * i, 15, 0⟩
/-! Fields of the QW page. -/
def F.QW_STAT_PKTS (i : Nat) : Fld := ⟨0x80040 + 0x1000 * i, 31, 16⟩
def F.QW_STAT_WORDS (i : Nat) : Fld := ⟨0x80040 + 0x1000 * i, 15, 0⟩
def F.QW_RELEASE_COUNT (i : Nat) : Fld := ⟨0x80044 + 0x1000 * i, 15, 0⟩

/-! The cause bits of the sixteen interrupt groups (R126). -/
def C.SYS_BOOT_DONE : Nat := 0
def C.SYS_PATCH_FAIL : Nat := 1
def C.SYS_WAIT_HOST : Nat := 2
def C.SYS_WDOG_WARN : Nat := 3
def C.SYS_MGMT_FAULT : Nat := 4
def C.SYS_OTP_ERR : Nat := 5
def C.SYS_PAGE_RESET : Nat := 6
def C.SYS_LEVEL_CHANGED : Nat := 7
def C.CLK_ROOT_LOSS : Nat := 0
def C.CLK_FALLBACK : Nat := 1
def C.CLK_RELOCK_TRY : Nat := 2
def C.CLK_RELOCK : Nat := 3
def C.CLK_RETURN : Nat := 4
def C.CLK_DIV_APPLIED : Nat := 5
def C.CLK_XO_FAIL : Nat := 6
def C.CLK_RELOCK_FAIL_OR_RC_CAL_FAIL : Nat := 7
def C.PWR_STATE_DONE : Nat := 0
def C.PWR_STATE_FAIL : Nat := 1
def C.PWR_WAKE : Nat := 2
def C.PWR_THERM_WARN : Nat := 3
def C.PWR_FENCED : Nat := 4
def C.PWR_UNFENCED : Nat := 5
def C.PWR_THERM_CRIT : Nat := 6
def C.PWR_SUPPLY_LOW : Nat := 7
def C.TIME_REF_QUAL : Nat := 0
def C.TIME_REF_LOST : Nat := 1
def C.TIME_THERMOS : Nat := 2
def C.TIME_SLEW : Nat := 3
def C.TIME_STEP : Nat := 4
def C.TIME_SRC_CHANGE : Nat := 5
def C.TIME_UTC_CHANGE : Nat := 6
def C.TIME_ALARM : Nat := 7
def C.PROT_RANGE : Nat := 0
def C.PROT_DENIED : Nat := 1
def C.PROT_RESERVED : Nat := 2
def C.PROT_ALIGN : Nat := 3
def C.PROT_LOCKED : Nat := 4
def C.PROT_BAD_KEY : Nat := 5
def C.PROT_ART_CHANGED : Nat := 6
def C.PROT_CAPT_OVF : Nat := 7
def C.MEM_CORRECTED : Nat := 0
def C.MEM_UNCORR : Nat := 1
def C.MEM_COLLIDE : Nat := 2
def C.MEM_TEST_FAIL : Nat := 3
def C.MEM_TEST_SKIP : Nat := 4
def C.MEM_TEST_PASS : Nat := 5
def C.MEM_ERR_LIMIT : Nat := 6
def C.MEM_WINDOW_ERR : Nat := 7
def C.TWI_TGT_DONE : Nat := 0
def C.TWI_CTL_DONE : Nat := 1
def C.TWI_CTL_NACK : Nat := 2
def C.TWI_ARB_LOST : Nat := 3
def C.TWI_SR_AT_ACK : Nat := 4
def C.TWI_BUS_STUCK : Nat := 5
def C.TWI_IBR_DONE : Nat := 6
def C.TWI_ARA_DONE : Nat := 7
def C.HOST_CRC_ERR : Nat := 0
def C.HOST_CMD_ERR : Nat := 1
def C.HOST_TIMEOUT : Nat := 2
def C.HOST_OVERRUN : Nat := 3
def C.HOST_UNDERRUN : Nat := 4
def C.HOST_IMG_RX : Nat := 5
def C.HOST_MODE_CHANGED : Nat := 6
def C.HOST_WINDOW_EMPTY : Nat := 7
def C.RFIN_OVERLOAD : Nat := 0
def C.RFIN_AGC_FROZEN : Nat := 1
def C.RFIN_GAIN_STEP : Nat := 2
def C.RFIN_CAL_DONE : Nat := 3
def C.RFIN_CAL_FAIL : Nat := 4
def C.RFIN_ANT_OPEN : Nat := 5
def C.RFIN_ANT_SHORT : Nat := 6
def C.RFIN_ANT_CLEAR : Nat := 7
def C.LANE_RETUNED : Nat := 0
def C.LANE_SETTLED : Nat := 1
def C.LANE_BANK_SWAPPED : Nat := 2
def C.LANE_TRIM_LIMIT : Nat := 3
def C.LANE_RATE_CHANGED : Nat := 4
def C.LANE_DELAY_SET : Nat := 5
def C.LANE_SATURATED : Nat := 6
def C.LANE_INPUT_LOST : Nat := 7
def C.ACQ_DETECTED : Nat := 0
def C.ACQ_LOCKED : Nat := 1
def C.ACQ_LOST : Nat := 2
def C.ACQ_CAPTURED : Nat := 3
def C.ACQ_TIMEOUT : Nat := 4
def C.ACQ_MODE_FOUND : Nat := 5
def C.ACQ_BRANCH_CHANGE : Nat := 6
def C.ACQ_CFG_CHANGE : Nat := 7
def C.FEC_UNCORR : Nat := 0
def C.FEC_ITER_LIMIT : Nat := 1
def C.FEC_COMB_ON : Nat := 2
def C.FEC_COMB_OFF : Nat := 3
def C.FEC_BER_WARN : Nat := 4
def C.FEC_CRC_FAIL : Nat := 5
def C.FEC_POOL_WAIT : Nat := 6
def C.FEC_OVERRUN : Nat := 7
def C.SERVICE_PLACED : Nat := 0
def C.SERVICE_MOVED : Nat := 1
def C.SERVICE_UNPLACED : Nat := 2
def C.SERVICE_REJECTED : Nat := 3
def C.SERVICE_AF_SWITCH : Nat := 4
def C.SERVICE_AF_FAIL : Nat := 5
def C.SERVICE_BLEND_DONE : Nat := 6
def C.SERVICE_BEACON : Nat := 7
def C.AUDIO_MASK_APPLIED : Nat := 0
def C.AUDIO_ZC_TIMEOUT : Nat := 1
def C.AUDIO_UNDERRUN : Nat := 2
def C.AUDIO_REJOIN : Nat := 3
def C.AUDIO_CLK_ERR : Nat := 4
def C.AUDIO_START_DONE : Nat := 5
def C.AUDIO_DEC_ERR : Nat := 6
def C.AUDIO_FORMAT_CHANGE : Nat := 7
def C.DATA_NOTICE : Nat := 0
def C.DATA_SIG_FAIL : Nat := 1
def C.DATA_ENV_REJECT : Nat := 2
def C.DATA_KEY_UPDATE : Nat := 3
def C.DATA_STORE : Nat := 4
def C.DATA_OUTPUT : Nat := 5
def C.DATA_CHAIN_BREAK : Nat := 6
def C.DATA_REGION_LOST : Nat := 7
def C.LINK_LINK_UP : Nat := 0
def C.LINK_LINK_DOWN : Nat := 1
def C.LINK_MASTER_LOST : Nat := 2
def C.LINK_ROLE_CONFLICT : Nat := 3
def C.LINK_TUNNEL_ERR : Nat := 4
def C.LINK_TX_LATE : Nat := 5
def C.LINK_TX_ABORT : Nat := 6
def C.LINK_PROBE_DONE : Nat := 7

end Sys2Proof.Machine
end

