-- ==== Sys2Proof/Machine/Sparse.lean ====
section
/-! DEFINITION. Sparse tables in one canonical form: a list of key and value pairs with strictly rising keys and no
entry equal to what an unlisted key reads as. Every table of State (registers, memory, contexts) is one. -/
namespace Sys2Proof.Machine

/-- Read a table at key `k`; `d` is what an unlisted key reads as. -/
def tget {α : Type} (d : α) : List (Nat × α) → Nat → α
  | [], _ => d
  | (k', v) :: r, k => if k' = k then v else tget d r k

/-- Insert or replace the entry of key `k`, keeping the keys rising. -/
def tins {α : Type} (k : Nat) (v : α) : List (Nat × α) → List (Nat × α)
  | [] => [(k, v)]
  | (k', v') :: r =>
    if k < k' then (k, v) :: (k', v') :: r
    else if k = k' then (k, v) :: r
    else (k', v') :: tins k v r

/-- Remove every entry of key `k`. -/
def tdel {α : Type} (k : Nat) : List (Nat × α) → List (Nat × α)
  | [] => []
  | (k', v') :: r => if k' = k then tdel k r else (k', v') :: tdel k r

/-- Write `v` at key `k`, where `d` is what the unlisted key reads as: writing `d` removes the entry. -/
def tput {α : Type} [DecidableEq α] (d : α) (m : List (Nat × α)) (k : Nat) (v : α) : List (Nat × α) :=
  if v = d then tdel k m else tins k v m

/-- Every listed key lies above `lo`, keys rise, and no entry equals its default: the canonical form, from a bound. -/
def twfFrom {α : Type} [DecidableEq α] (d : Nat → α) : Nat → List (Nat × α) → Bool
  | _, [] => true
  | lo, (k, v) :: r => decide (lo ≤ k) && decide (v ≠ d k) && twfFrom d (k + 1) r

/-- The canonical form of a table whose unlisted key `k` reads as `d k`. -/
def twf {α : Type} [DecidableEq α] (d : Nat → α) (m : List (Nat × α)) : Bool := twfFrom d 0 m

end Sys2Proof.Machine
end

