-- ==== Sys2Proof/Machine/RegTable.lean ====
section
/-! DEFINITION. The register map of the device: every register table of spec/ as data, one row per register or register
array (offset within its page, length and stride of an array, Expert or not, reset word, fields with their access code
and stated range). Rules R98, R103 and the register rule of each chapter. -/
namespace Sys2Proof.Machine

/-- Access codes of a register field (R9). -/
inductive Access where
  | ro | rw | wo | w1c | w1s | rws | rwx
deriving DecidableEq, Repr

/-- One field of a register: its bits, its access code and the values a write may give it. -/
structure FieldSpec where
  hi : Nat
  lo : Nat
  acc : Access
  vmin : Nat
  vmax : Nat
deriving DecidableEq, Repr

/-- One register, or one array of `count` registers `stride` bytes apart, of a page. `resets` lists the array
elements whose reset word differs from `reset`. -/
structure RegSpec where
  off : Nat
  count : Nat
  stride : Nat
  expert : Bool
  reset : Nat
  resets : List (Nat × Nat)
  fields : List FieldSpec
deriving DecidableEq, Repr

/-- The block types of R98, with the two windows that hold words as registers do. -/
inductive PageType where
  | sys | clk | pwr | irq | time | prot | mem | twi | host | sched | strm | store | aud | rfin | probe | casc | clus | lane | ofdm | ana | fec | adec | place | data | hamper | qw
deriving DecidableEq, Repr

/-- Registers of the SYS page. Source: 02_pins_package.md R37, 02_pins_package.md R43, 04_power_states_reset.md R96, 05_register_model.md R128. -/
def regsSys0 : List RegSpec :=
  [⟨0x048, 1, 4, false, 0x8000, [], [⟨15, 15, .ro, 0, 1⟩, ⟨14, 8, .ro, 0, 127⟩, ⟨4, 4, .ro, 0, 1⟩, ⟨3, 2, .ro, 0, 3⟩, ⟨1, 0, .ro, 0, 3⟩]⟩,
   ⟨0x050, 1, 4, false, 0x2403300, [], [⟨27, 24, .rws, 1, 15⟩, ⟨23, 20, .rw, 0, 15⟩, ⟨15, 12, .rw, 0, 7⟩, ⟨11, 8, .rw, 0, 15⟩]⟩,
   ⟨0x054, 1, 4, false, 0x11201, [], [⟨19, 16, .rw, 0, 7⟩, ⟨15, 12, .rw, 0, 3⟩, ⟨11, 8, .rw, 0, 3⟩, ⟨7, 4, .rw, 0, 3⟩, ⟨3, 0, .rw, 0, 3⟩]⟩,
   ⟨0x060, 1, 4, false, 0x0, [], [⟨7, 0, .wo, 0, 255⟩]⟩,
   ⟨0x064, 1, 4, false, 0x0, [], [⟨14, 12, .ro, 0, 7⟩, ⟨7, 7, .w1c, 0, 1⟩, ⟨6, 6, .w1c, 0, 1⟩, ⟨5, 5, .w1c, 0, 1⟩, ⟨4, 4, .w1c, 0, 1⟩, ⟨2, 2, .w1c, 0, 1⟩, ⟨1, 1, .w1c, 0, 1⟩, ⟨0, 0, .w1c, 0, 1⟩]⟩,
   ⟨0x068, 1, 4, false, 0x3E8, [], [⟨16, 16, .rw, 0, 1⟩, ⟨15, 0, .rw, 1, 65535⟩]⟩,
   ⟨0x06C, 1, 4, false, 0x0, [], [⟨31, 16, .ro, 0, 65535⟩, ⟨5, 5, .ro, 0, 1⟩, ⟨4, 4, .ro, 0, 1⟩, ⟨3, 3, .ro, 0, 1⟩, ⟨1, 1, .ro, 0, 1⟩, ⟨0, 0, .ro, 0, 1⟩]⟩,
   ⟨0x070, 1, 4, false, 0x0, [], [⟨31, 24, .ro, 0, 255⟩, ⟨23, 0, .ro, 0, 0xffffff⟩]⟩,
   ⟨0x074, 1, 4, false, 0x0, [], [⟨25, 24, .ro, 0, 3⟩, ⟨23, 16, .ro, 0, 255⟩, ⟨7, 0, .ro, 0, 255⟩]⟩,
   ⟨0x078, 1, 4, false, 0x0, [], [⟨8, 8, .ro, 0, 1⟩, ⟨0, 0, .ro, 0, 1⟩]⟩]

/-- Registers of the CLK page. Source: 03_clocks.md R68. -/
def regsClk0 : List RegSpec :=
  [⟨0x040, 1, 4, false, 0x1, [], [⟨0, 0, .rw, 0, 1⟩]⟩,
   ⟨0x044, 1, 4, false, 0x0, [], [⟨4, 4, .ro, 0, 1⟩, ⟨3, 3, .ro, 0, 1⟩, ⟨2, 2, .ro, 0, 1⟩, ⟨1, 1, .ro, 0, 1⟩, ⟨0, 0, .ro, 0, 1⟩]⟩,
   ⟨0x048, 1, 4, false, 0x15A5A5, [], [⟨22, 0, .rws, 1, 0x7fffff⟩]⟩,
   ⟨0x050, 1, 4, false, 0x0, [], [⟨7, 6, .rwx, 0, 3⟩, ⟨5, 4, .rwx, 0, 3⟩, ⟨3, 2, .rwx, 0, 3⟩, ⟨1, 0, .rwx, 0, 3⟩]⟩,
   ⟨0x054, 1, 4, false, 0x0, [], [⟨7, 6, .ro, 0, 3⟩, ⟨5, 4, .ro, 0, 3⟩, ⟨3, 2, .ro, 0, 3⟩, ⟨1, 0, .ro, 0, 3⟩]⟩,
   ⟨0x058, 1, 4, false, 0x0, [], [⟨0, 0, .w1s, 0, 1⟩]⟩,
   ⟨0x05C, 1, 4, false, 0x10, [], [⟨7, 0, .rw, 1, 255⟩]⟩,
   ⟨0x060, 1, 4, false, 0x0, [], [⟨31, 16, .ro, 0, 65535⟩, ⟨15, 0, .ro, 0, 65535⟩]⟩,
   ⟨0x064, 1, 4, false, 0x0, [], [⟨1, 1, .wo, 0, 1⟩, ⟨0, 0, .ro, 0, 1⟩]⟩,
   ⟨0x068, 1, 4, false, 0x177000, [], [⟨23, 0, .ro, 0, 0xffffff⟩]⟩,
   ⟨0x06C, 1, 4, false, 0x4, [], [⟨2, 0, .rws, 0, 7⟩]⟩,
   ⟨0x400, 1, 4, true, 0x40001008, [], [⟨31, 24, .rwx, 16, 255⟩, ⟨15, 8, .rwx, 4, 64⟩, ⟨7, 0, .rwx, 2, 40⟩]⟩]

/-- Registers of the PWR page. Source: 04_power_states_reset.md R96. -/
def regsPwr0 : List RegSpec :=
  [⟨0x040, 1, 4, false, 0x1, [], [⟨1, 0, .rw, 0, 3⟩]⟩,
   ⟨0x044, 1, 4, false, 0x101, [], [⟨24, 20, .ro, 0, 31⟩, ⟨19, 16, .ro, 0, 15⟩, ⟨15, 15, .ro, 0, 1⟩, ⟨14, 14, .ro, 0, 1⟩, ⟨11, 11, .ro, 0, 1⟩, ⟨10, 8, .ro, 0, 7⟩, ⟨6, 4, .ro, 0, 7⟩, ⟨2, 0, .ro, 0, 7⟩]⟩,
   ⟨0x048, 1, 4, false, 0x3, [], [⟨23, 16, .rw, 0, 255⟩, ⟨15, 8, .rw, 0, 255⟩, ⟨2, 2, .rw, 0, 1⟩, ⟨1, 1, .rw, 0, 1⟩, ⟨0, 0, .rw, 0, 1⟩]⟩,
   ⟨0x04C, 1, 4, false, 0x8000, [], [⟨31, 0, .rw, 1, 0xffffffff⟩]⟩,
   ⟨0x054, 1, 4, false, 0x0, [], [⟨31, 24, .ro, 0, 255⟩, ⟨23, 16, .ro, 0, 255⟩, ⟨15, 8, .ro, 0, 255⟩, ⟨7, 0, .ro, 0, 255⟩]⟩,
   ⟨0x058, 1, 4, false, 0x0, [], [⟨15, 8, .ro, 0, 255⟩, ⟨7, 0, .ro, 0, 255⟩]⟩,
   ⟨0x05C, 1, 4, false, 0x1A9AE, [], [⟨16, 16, .rw, 0, 1⟩, ⟨15, 8, .rw, 144, 178⟩, ⟨7, 0, .rw, 154, 183⟩]⟩,
   ⟨0x060, 1, 4, false, 0x0, [], [⟨19, 16, .ro, 0, 15⟩, ⟨15, 12, .ro, 0, 15⟩, ⟨11, 8, .ro, 0, 15⟩, ⟨7, 4, .ro, 0, 15⟩, ⟨3, 0, .ro, 0, 15⟩]⟩,
   ⟨0x064, 1, 4, false, 0x1, [], [⟨7, 4, .w1s, 0, 15⟩, ⟨0, 0, .rw, 0, 1⟩]⟩]

/-- Registers of the IRQ page. Source: 05_register_model.md R130. -/
def regsIrq0 : List RegSpec :=
  [⟨0x040, 1, 4, false, 0x0, [], [⟨15, 0, .ro, 0, 65535⟩]⟩,
   ⟨0x044, 1, 4, false, 0xFFFF, [], [⟨15, 0, .rw, 0, 65535⟩]⟩,
   ⟨0x048, 1, 4, false, 0x1, [], [⟨2, 2, .rw, 0, 1⟩, ⟨1, 1, .rw, 0, 1⟩, ⟨0, 0, .rw, 0, 1⟩]⟩,
   ⟨0x04C, 1, 4, false, 0x0, [], [⟨16, 16, .ro, 0, 1⟩, ⟨15, 0, .ro, 0, 65535⟩]⟩,
   ⟨0x100, 16, 4, false, 0x0, [], [⟨23, 0, .ro, 0, 0xffffff⟩]⟩]

/-- Registers of the TIME page, part 1. Source: 17_time_base_itinerary.md R454. -/
def regsTime0 : List RegSpec :=
  [⟨0x040, 1, 4, false, 0x0, [], [⟨29, 0, .ro, 0, 0x3fffffff⟩]⟩,
   ⟨0x044, 1, 4, false, 0x0, [], [⟨31, 0, .ro, 0, 0xffffffff⟩]⟩,
   ⟨0x048, 1, 4, false, 0x0, [], [⟨15, 0, .ro, 0, 65535⟩]⟩,
   ⟨0x04C, 1, 4, false, 0x0, [], [⟨31, 30, .ro, 0, 3⟩, ⟨29, 29, .ro, 0, 1⟩, ⟨28, 28, .ro, 0, 1⟩, ⟨27, 25, .ro, 0, 7⟩, ⟨24, 24, .ro, 0, 1⟩, ⟨23, 23, .ro, 0, 1⟩, ⟨22, 22, .ro, 0, 1⟩, ⟨21, 21, .ro, 0, 1⟩, ⟨20, 20, .ro, 0, 1⟩, ⟨19, 19, .ro, 0, 1⟩, ⟨5, 0, .ro, 0, 63⟩]⟩,
   ⟨0x050, 1, 4, false, 0xFFFFFFFF, [], [⟨31, 0, .ro, 0, 0xffffffff⟩]⟩,
   ⟨0x054, 1, 4, false, 0x0, [], [⟨31, 0, .ro, 0, 0xffffffff⟩]⟩,
   ⟨0x058, 1, 4, false, 0x0, [], [⟨23, 0, .ro, 0, 0xffffff⟩]⟩,
   ⟨0x060, 1, 4, false, 0x0, [], [⟨29, 0, .rw, 0, 999999999⟩]⟩,
   ⟨0x064, 1, 4, false, 0x0, [], [⟨31, 0, .rw, 0, 0xffffffff⟩]⟩,
   ⟨0x068, 1, 4, false, 0x0, [], [⟨15, 0, .rw, 0, 65535⟩]⟩,
   ⟨0x06C, 1, 4, false, 0x0, [], [⟨23, 8, .wo, 0, 65535⟩, ⟨1, 0, .wo, 1, 2⟩]⟩,
   ⟨0x070, 1, 4, false, 0x25, [], [⟨31, 31, .rws, 0, 1⟩, ⟨15, 8, .rws, 0, 255⟩, ⟨7, 0, .rws, 0, 255⟩]⟩]

/-- Registers of the TIME page, part 2. Source: 17_time_base_itinerary.md R454. -/
def regsTime1 : List RegSpec :=
  [⟨0x074, 1, 4, false, 0x0, [], [⟨31, 0, .rws, 0, 0xffffffff⟩]⟩,
   ⟨0x078, 1, 4, false, 0x0, [], [⟨15, 0, .rws, 0, 65535⟩]⟩,
   ⟨0x07C, 1, 4, false, 0xE0000304, [], [⟨31, 31, .rw, 0, 1⟩, ⟨30, 30, .rw, 0, 1⟩, ⟨29, 29, .rw, 0, 1⟩, ⟨28, 28, .rw, 0, 1⟩, ⟨15, 8, .rw, 2, 60⟩, ⟨3, 0, .rw, 3, 15⟩]⟩,
   ⟨0x080, 1, 4, false, 0x0, [], [⟨26, 24, .ro, 0, 7⟩, ⟨23, 0, .ro, 0, 0xffffff⟩]⟩,
   ⟨0x084, 1, 4, false, 0x0, [], [⟨31, 0, .rw, 0, 0xffffffff⟩]⟩,
   ⟨0x088, 1, 4, false, 0x0, [], [⟨31, 31, .rw, 0, 1⟩, ⟨15, 0, .rw, 0, 65535⟩]⟩,
   ⟨0x08C, 1, 4, false, 0x0, [], [⟨31, 16, .ro, 0, 65535⟩, ⟨15, 0, .ro, 0, 65535⟩]⟩,
   ⟨0x090, 1, 4, false, 0x0, [], [⟨31, 31, .rw, 0, 1⟩, ⟨8, 8, .rw, 0, 1⟩, ⟨0, 0, .w1s, 0, 1⟩]⟩,
   ⟨0x094, 1, 4, false, 0x0, [], [⟨31, 0, .ro, 0, 0xffffffff⟩]⟩,
   ⟨0x0A0, 2, 16, false, 0x0, [], [⟨29, 0, .rw, 0, 999999999⟩]⟩,
   ⟨0x0A4, 2, 16, false, 0x0, [], [⟨31, 0, .rw, 0, 0xffffffff⟩]⟩,
   ⟨0x0A8, 2, 16, false, 0x0, [], [⟨15, 0, .rw, 0, 65535⟩]⟩]

/-- Registers of the TIME page, part 3. Source: 17_time_base_itinerary.md R454. -/
def regsTime2 : List RegSpec :=
  [⟨0x0AC, 2, 16, false, 0x0, [], [⟨6, 0, .rw, 0, 64⟩]⟩,
   ⟨0x400, 1, 4, true, 0x14643240, [], [⟨31, 24, .rwx, 2, 100⟩, ⟨23, 16, .rwx, 10, 100⟩, ⟨15, 8, .rwx, 1, 200⟩, ⟨7, 0, .rwx, 8, 255⟩]⟩,
   ⟨0x800, 64, 8, false, 0x0, [], [⟨31, 16, .rw, 0, 65535⟩, ⟨1, 0, .rw, 1, 3⟩]⟩,
   ⟨0x804, 64, 8, false, 0x0, [], [⟨31, 0, .rw, 1, 0xffffffff⟩]⟩,
   ⟨0xA00, 64, 8, false, 0x0, [], [⟨31, 16, .rw, 0, 65535⟩, ⟨1, 0, .rw, 1, 3⟩]⟩,
   ⟨0xA04, 64, 8, false, 0x0, [], [⟨31, 0, .rw, 1, 0xffffffff⟩]⟩,
   ⟨0xC00, 16, 4, false, 0x0, [], [⟨31, 31, .rws, 0, 1⟩, ⟨15, 0, .rws, 0, 65535⟩]⟩]

/-- Registers of the PROT page. Source: 05_register_model.md R114, 05_register_model.md R131. -/
def regsProt0 : List RegSpec :=
  [⟨0x040, 1, 4, false, 0x0, [], [⟨31, 31, .w1c, 0, 1⟩, ⟨29, 26, .ro, 0, 15⟩, ⟨25, 24, .ro, 0, 3⟩, ⟨23, 0, .ro, 0, 0xffffff⟩]⟩,
   ⟨0x044, 1, 4, false, 0x0, [], [⟨31, 0, .ro, 0, 0xffffffff⟩]⟩,
   ⟨0x048, 1, 4, false, 0x0, [], [⟨31, 31, .w1c, 0, 1⟩, ⟨30, 30, .ro, 0, 1⟩, ⟨29, 27, .ro, 0, 7⟩, ⟨25, 24, .ro, 0, 3⟩, ⟨23, 0, .ro, 0, 0xffffff⟩]⟩,
   ⟨0x04C, 1, 4, false, 0x0, [], [⟨31, 16, .ro, 0, 65535⟩, ⟨15, 0, .ro, 0, 65535⟩]⟩,
   ⟨0x050, 1, 4, false, 0x0, [], [⟨0, 0, .wo, 0, 1⟩]⟩,
   ⟨0x800, 21, 4, false, 0xDFDFDFDF, [(0, 0xFFDFDFDF), (1, 0xFFDFDFDF), (19, 0xDFDFFFDF), (20, 0xDF)], [⟨31, 0, .rw, 0, 0xffffffff⟩]⟩]

/-- Registers of the MEM page, part 1. Source: 20_memory_integrity.md R515. -/
def regsMem0 : List RegSpec :=
  [⟨0x040, 1, 4, false, 0xC0040040, [], [⟨31, 31, .rw, 0, 1⟩, ⟨30, 30, .rw, 0, 1⟩, ⟨23, 16, .rw, 1, 16⟩, ⟨15, 0, .rw, 1, 65535⟩]⟩,
   ⟨0x044, 1, 4, false, 0x3E8, [], [⟨15, 0, .rw, 100, 50000⟩]⟩,
   ⟨0x048, 1, 4, false, 0x0, [], [⟨31, 30, .ro, 0, 3⟩, ⟨29, 24, .ro, 0, 63⟩, ⟨23, 18, .ro, 0, 63⟩, ⟨7, 0, .ro, 0, 255⟩]⟩,
   ⟨0x04C, 1, 4, false, 0x0, [], [⟨31, 31, .w1c, 0, 1⟩, ⟨30, 30, .ro, 0, 1⟩, ⟨29, 24, .ro, 0, 63⟩, ⟨14, 0, .ro, 0, 32767⟩]⟩,
   ⟨0x050, 1, 4, false, 0x0, [], [⟨31, 31, .w1c, 0, 1⟩, ⟨30, 30, .ro, 0, 1⟩, ⟨29, 24, .ro, 0, 63⟩, ⟨14, 0, .ro, 0, 32767⟩]⟩,
   ⟨0x054, 1, 4, false, 0x0, [], [⟨31, 31, .w1c, 0, 1⟩, ⟨30, 30, .ro, 0, 1⟩, ⟨29, 24, .ro, 0, 63⟩, ⟨14, 0, .ro, 0, 32767⟩]⟩,
   ⟨0x058, 1, 4, false, 0x0, [], [⟨31, 16, .ro, 0, 65535⟩, ⟨15, 0, .ro, 0, 65535⟩]⟩,
   ⟨0x05C, 1, 4, false, 0x0, [], [⟨15, 0, .ro, 0, 65535⟩]⟩,
   ⟨0x060, 1, 4, false, 0x0, [], [⟨31, 16, .ro, 0, 65535⟩, ⟨15, 0, .ro, 0, 65535⟩]⟩,
   ⟨0x064, 1, 4, false, 0x0, [], [⟨31, 16, .ro, 0, 65535⟩, ⟨15, 0, .ro, 0, 65535⟩]⟩,
   ⟨0x068, 1, 4, false, 0x0, [], [⟨31, 31, .w1c, 0, 1⟩, ⟨30, 30, .ro, 0, 1⟩, ⟨29, 24, .ro, 0, 63⟩, ⟨5, 0, .ro, 0, 63⟩]⟩,
   ⟨0x06C, 1, 4, false, 0x0, [], [⟨31, 31, .w1c, 0, 1⟩, ⟨30, 30, .ro, 0, 1⟩, ⟨29, 24, .ro, 0, 63⟩, ⟨1, 0, .ro, 0, 3⟩]⟩]

/-- Registers of the MEM page, part 2. Source: 20_memory_integrity.md R515. -/
def regsMem1 : List RegSpec :=
  [⟨0x800, 50, 8, false, 0x0, [], [⟨31, 0, .ro, 0, 0xffffffff⟩]⟩,
   ⟨0x804, 50, 8, false, 0x0, [], [⟨31, 0, .ro, 0, 0xffffffff⟩]⟩]

/-- Registers of the TWI page, part 1. Source: 07_two_wire_port.md R185. -/
def regsTwi0 : List RegSpec :=
  [⟨0x040, 1, 4, false, 0x1E000000, [], [⟨31, 24, .rw, 25, 100⟩, ⟨8, 8, .rw, 0, 1⟩]⟩,
   ⟨0x044, 1, 4, false, 0x0, [], [⟨4, 4, .ro, 0, 1⟩, ⟨3, 3, .ro, 0, 1⟩, ⟨2, 2, .ro, 0, 1⟩, ⟨1, 1, .ro, 0, 1⟩]⟩,
   ⟨0x048, 1, 4, false, 0x0, [], [⟨23, 0, .ro, 0, 0xffffff⟩]⟩,
   ⟨0x04C, 1, 4, false, 0x0, [], [⟨31, 31, .w1c, 0, 1⟩, ⟨26, 24, .ro, 0, 7⟩, ⟨23, 0, .ro, 0, 0xffffff⟩]⟩,
   ⟨0x050, 1, 4, false, 0x0, [], [⟨31, 16, .ro, 0, 65535⟩, ⟨15, 0, .ro, 0, 65535⟩]⟩,
   ⟨0x060, 1, 4, false, 0x80000, [], [⟨31, 31, .w1s, 0, 1⟩, ⟨22, 16, .rw, 8, 119⟩, ⟨13, 8, .rw, 0, 32⟩, ⟨5, 0, .rw, 0, 32⟩]⟩,
   ⟨0x064, 1, 4, false, 0x300, [], [⟨10, 8, .rw, 0, 7⟩, ⟨1, 0, .rw, 0, 2⟩]⟩,
   ⟨0x068, 1, 4, false, 0x0, [], [⟨31, 31, .ro, 0, 1⟩, ⟨30, 28, .ro, 0, 7⟩, ⟨21, 16, .ro, 0, 63⟩, ⟨13, 8, .ro, 0, 63⟩, ⟨3, 0, .ro, 0, 15⟩]⟩,
   ⟨0x070, 8, 4, false, 0x0, [], [⟨31, 0, .rw, 0, 0xffffffff⟩]⟩,
   ⟨0x090, 8, 4, false, 0x0, [], [⟨31, 0, .ro, 0, 0xffffffff⟩]⟩,
   ⟨0x0B0, 1, 4, false, 0x0, [], [⟨0, 0, .w1s, 0, 1⟩]⟩,
   ⟨0x0B4, 1, 4, false, 0x0, [], [⟨31, 24, .ro, 0, 255⟩, ⟨19, 16, .ro, 0, 15⟩, ⟨0, 0, .ro, 0, 1⟩]⟩]

/-- Registers of the TWI page, part 2. Source: 07_two_wire_port.md R185. -/
def regsTwi1 : List RegSpec :=
  [⟨0x0C0, 1, 4, false, 0x640A0A, [], [⟨31, 31, .rw, 0, 1⟩, ⟨23, 16, .rw, 20, 255⟩, ⟨15, 8, .rw, 1, 255⟩, ⟨7, 0, .rw, 5, 255⟩]⟩,
   ⟨0x0C4, 1, 4, false, 0x0, [], [⟨31, 16, .ro, 0, 65535⟩, ⟨15, 8, .ro, 0, 255⟩, ⟨3, 0, .ro, 0, 15⟩]⟩,
   ⟨0x0C8, 1, 4, false, 0x0, [], [⟨7, 0, .ro, 0, 255⟩]⟩,
   ⟨0x0D0, 1, 4, false, 0x1, [], [⟨0, 0, .rw, 0, 1⟩]⟩,
   ⟨0x0E0, 4, 4, false, 0x0, [], [⟨31, 0, .rw, 0, 0xffffffff⟩]⟩,
   ⟨0x0F0, 4, 4, false, 0x0, [(1, 0x22), (3, 0xF0000)], [⟨31, 0, .rw, 0, 0xffffffff⟩]⟩,
   ⟨0x100, 4, 4, false, 0x0, [], [⟨31, 0, .w1c, 0, 0xffffffff⟩]⟩,
   ⟨0x400, 1, 4, true, 0x10400E8, [], [⟨24, 16, .rwx, 20, 511⟩, ⟨8, 0, .rwx, 12, 511⟩]⟩]

/-- Registers of the HOST page. Source: 06_host_port.md R157. -/
def regsHost0 : List RegSpec :=
  [⟨0x040, 1, 4, false, 0x2006428, [], [⟨25, 24, .rw, 0, 3⟩, ⟨23, 8, .rw, 10, 10000⟩, ⟨7, 0, .rw, 2, 255⟩]⟩,
   ⟨0x044, 1, 4, false, 0x0, [], [⟨31, 24, .ro, 0, 255⟩, ⟨17, 16, .ro, 0, 3⟩]⟩,
   ⟨0x048, 1, 4, false, 0x0, [], [⟨31, 31, .w1c, 0, 1⟩, ⟨30, 28, .ro, 0, 7⟩, ⟨23, 0, .ro, 0, 0xffffff⟩]⟩,
   ⟨0x04C, 1, 4, false, 0x0, [], [⟨31, 24, .ro, 0, 255⟩, ⟨23, 8, .ro, 0, 65535⟩]⟩,
   ⟨0x050, 1, 4, false, 0x0, [], [⟨31, 16, .ro, 0, 65535⟩, ⟨15, 0, .ro, 0, 65535⟩]⟩,
   ⟨0x054, 1, 4, false, 0x0, [], [⟨0, 0, .wo, 0, 1⟩]⟩,
   ⟨0x058, 1, 4, false, 0x0, [], [⟨24, 16, .ro, 0, 511⟩, ⟨8, 0, .ro, 0, 511⟩]⟩,
   ⟨0x060, 1, 4, false, 0x0, [], [⟨17, 0, .rw, 4096, 0x30000⟩]⟩,
   ⟨0x064, 1, 4, false, 0x0, [], [⟨1, 1, .w1s, 0, 1⟩, ⟨0, 0, .w1s, 0, 1⟩]⟩,
   ⟨0x068, 1, 4, false, 0x0, [], [⟨31, 29, .ro, 0, 7⟩, ⟨17, 0, .ro, 0, 0x3ffff⟩]⟩,
   ⟨0x800, 512, 4, false, 0x0, [], [⟨31, 0, .wo, 0, 0xffffffff⟩]⟩]

/-- Registers of the SCHED page. Source: 18_scheduler_stream_port.md R476. -/
def regsSched0 : List RegSpec :=
  [⟨0x040, 1, 4, false, 0x0, [], [⟨31, 16, .rw, 0, 65535⟩]⟩,
   ⟨0x044, 1, 4, false, 0xFFFF, [], [⟨31, 31, .ro, 0, 1⟩, ⟨23, 16, .ro, 0, 255⟩, ⟨15, 0, .ro, 0, 65535⟩]⟩,
   ⟨0x048, 1, 4, false, 0x0, [], [⟨15, 0, .ro, 0, 65535⟩]⟩,
   ⟨0x04C, 1, 4, false, 0x0, [], [⟨31, 28, .wo, 1, 3⟩, ⟨22, 16, .wo, 0, 127⟩]⟩,
   ⟨0x050, 1, 4, false, 0x0, [], [⟨31, 31, .w1c, 0, 1⟩, ⟨26, 24, .ro, 0, 7⟩, ⟨22, 16, .ro, 0, 127⟩]⟩,
   ⟨0x054, 1, 4, false, 0x0, [], [⟨31, 16, .ro, 0, 65535⟩, ⟨15, 0, .ro, 0, 65535⟩]⟩,
   ⟨0x800, 128, 4, false, 0x0, [], [⟨7, 7, .rw, 0, 1⟩, ⟨6, 6, .rw, 0, 1⟩, ⟨3, 0, .rw, 0, 15⟩]⟩,
   ⟨0xA00, 128, 4, false, 0x0, [], [⟨31, 0, .ro, 0, 0xffffffff⟩]⟩,
   ⟨0xC00, 128, 8, false, 0x0, [], [⟨31, 31, .ro, 0, 1⟩, ⟨30, 30, .ro, 0, 1⟩, ⟨27, 16, .ro, 0, 4095⟩, ⟨15, 0, .ro, 0, 65535⟩]⟩,
   ⟨0xC04, 128, 8, false, 0x0, [], [⟨31, 16, .ro, 0, 65535⟩, ⟨15, 0, .ro, 0, 65535⟩]⟩]

/-- Registers of the STRM page. Source: 18_scheduler_stream_port.md R477. -/
def regsStrm0 : List RegSpec :=
  [⟨0x040, 1, 4, false, 0x3E80001, [], [⟨31, 16, .rw, 10, 65535⟩, ⟨9, 8, .rw, 0, 3⟩, ⟨1, 1, .rw, 0, 1⟩, ⟨0, 0, .rw, 0, 1⟩]⟩,
   ⟨0x044, 1, 4, false, 0x0, [], [⟨31, 31, .ro, 0, 1⟩, ⟨30, 30, .ro, 0, 1⟩, ⟨29, 29, .ro, 0, 1⟩, ⟨28, 28, .ro, 0, 1⟩, ⟨22, 16, .ro, 0, 127⟩]⟩,
   ⟨0x048, 1, 4, false, 0x0, [], [⟨31, 16, .ro, 0, 65535⟩, ⟨15, 0, .ro, 0, 65535⟩]⟩,
   ⟨0x04C, 1, 4, false, 0x0, [], [⟨31, 0, .ro, 0, 0xffffffff⟩]⟩,
   ⟨0x050, 1, 4, false, 0x0, [], [⟨31, 31, .w1c, 0, 1⟩, ⟨26, 24, .ro, 0, 7⟩, ⟨22, 16, .ro, 0, 127⟩]⟩]

/-- Registers of the STORE page, part 1. Source: 16_datacast_object_store.md R430. -/
def regsStore0 : List RegSpec :=
  [⟨0x040, 1, 4, false, 0x0, [], [⟨31, 29, .ro, 0, 7⟩, ⟨28, 28, .ro, 0, 1⟩, ⟨27, 27, .ro, 0, 1⟩]⟩,
   ⟨0x044, 1, 4, false, 0x0, [], [⟨31, 16, .ro, 0, 65535⟩, ⟨15, 0, .ro, 0, 65535⟩]⟩,
   ⟨0x048, 1, 4, false, 0x0, [], [⟨31, 28, .wo, 1, 5⟩, ⟨27, 24, .wo, 0, 15⟩, ⟨23, 16, .wo, 0, 255⟩]⟩,
   ⟨0x04C, 1, 4, false, 0x0, [], [⟨31, 0, .rw, 0, 0xffffffff⟩]⟩,
   ⟨0x050, 1, 4, false, 0x0, [], [⟨19, 0, .rw, 0, 0xff800⟩]⟩,
   ⟨0x054, 1, 4, false, 0x0, [], [⟨31, 31, .w1c, 0, 1⟩, ⟨2, 0, .ro, 0, 7⟩]⟩,
   ⟨0x058, 1, 4, false, 0x0, [], [⟨31, 0, .ro, 0, 0xffffffff⟩]⟩,
   ⟨0x05C, 1, 4, false, 0x0, [], [⟨31, 28, .ro, 0, 15⟩, ⟨27, 24, .ro, 0, 15⟩, ⟨22, 16, .ro, 0, 127⟩, ⟨15, 15, .ro, 0, 1⟩, ⟨14, 14, .ro, 0, 1⟩, ⟨13, 13, .ro, 0, 1⟩, ⟨11, 11, .ro, 0, 1⟩, ⟨1, 0, .ro, 0, 3⟩]⟩,
   ⟨0x060, 1, 4, false, 0x0, [], [⟨31, 0, .ro, 0, 0xffffffff⟩]⟩,
   ⟨0x064, 1, 4, false, 0x0, [], [⟨31, 0, .ro, 0, 0xffffffff⟩]⟩,
   ⟨0x068, 1, 4, false, 0x0, [], [⟨31, 0, .ro, 0, 0xffffffff⟩]⟩,
   ⟨0x070, 1, 4, false, 0x0, [], [⟨31, 31, .w1c, 0, 1⟩, ⟨26, 24, .ro, 0, 7⟩, ⟨3, 0, .ro, 0, 15⟩]⟩]

/-- Registers of the STORE page, part 2. Source: 16_datacast_object_store.md R430. -/
def regsStore1 : List RegSpec :=
  [⟨0x074, 1, 4, false, 0x0, [], [⟨31, 16, .ro, 0, 65535⟩, ⟨15, 0, .ro, 0, 65535⟩]⟩,
   ⟨0x080, 16, 8, false, 0x0, [], [⟨31, 31, .rw, 0, 1⟩, ⟨30, 30, .rw, 0, 1⟩, ⟨29, 29, .rw, 0, 1⟩, ⟨15, 0, .rw, 0, 65535⟩]⟩,
   ⟨0x084, 16, 8, false, 0x0, [], [⟨31, 31, .ro, 0, 1⟩, ⟨30, 16, .ro, 0, 32767⟩, ⟨15, 0, .ro, 0, 65535⟩]⟩,
   ⟨0x800, 512, 4, false, 0x0, [], [⟨31, 0, .ro, 0, 0xffffffff⟩]⟩]

/-- Registers of the AUD page. Source: 15_audio_ports.md R399. -/
def regsAud0 : List RegSpec :=
  [⟨0x040, 1, 4, false, 0x80101000, [], [⟨31, 31, .rw, 0, 1⟩, ⟨27, 26, .rw, 0, 3⟩, ⟨24, 24, .rw, 0, 1⟩, ⟨20, 20, .rw, 0, 1⟩, ⟨17, 16, .rw, 0, 2⟩, ⟨12, 12, .rw, 0, 1⟩, ⟨9, 9, .rw, 0, 1⟩, ⟨8, 8, .rw, 0, 1⟩, ⟨4, 4, .rw, 0, 1⟩, ⟨1, 0, .rw, 0, 1⟩]⟩,
   ⟨0x044, 1, 4, false, 0x30003, [], [⟨31, 16, .ro, 0, 65535⟩, ⟨15, 0, .rw, 0, 65535⟩]⟩,
   ⟨0x048, 1, 4, false, 0x0, [], [⟨7, 0, .rw, 0, 255⟩]⟩,
   ⟨0x04C, 1, 4, false, 0x0, [], [⟨2, 2, .w1s, 0, 1⟩, ⟨1, 1, .rw, 0, 1⟩, ⟨0, 0, .w1s, 0, 1⟩]⟩,
   ⟨0x050, 1, 4, false, 0xA, [], [⟨7, 0, .rw, 1, 100⟩]⟩,
   ⟨0x054, 1, 4, false, 0x0, [], [⟨31, 31, .ro, 0, 1⟩, ⟨30, 30, .ro, 0, 1⟩, ⟨23, 16, .ro, 0, 255⟩, ⟨15, 8, .ro, 0, 255⟩, ⟨7, 0, .ro, 0, 255⟩]⟩,
   ⟨0x058, 1, 4, false, 0x0, [], [⟨31, 16, .ro, 0, 65535⟩, ⟨15, 0, .ro, 0, 65535⟩]⟩,
   ⟨0x05C, 1, 4, false, 0x0, [], [⟨31, 0, .ro, 0, 0xffffffff⟩]⟩,
   ⟨0x060, 8, 4, false, 0x0, [], [⟨31, 31, .ro, 0, 1⟩, ⟨30, 24, .ro, 0, 127⟩, ⟨23, 23, .ro, 0, 1⟩, ⟨19, 16, .ro, 0, 15⟩, ⟨15, 15, .ro, 0, 1⟩, ⟨11, 8, .ro, 0, 15⟩]⟩,
   ⟨0x080, 1, 4, false, 0x0, [], [⟨1, 1, .rw, 0, 1⟩, ⟨0, 0, .rw, 0, 1⟩]⟩,
   ⟨0x084, 1, 4, false, 0x0, [], [⟨0, 0, .w1s, 0, 1⟩]⟩]

/-- Registers of the RFIN page, part 1. Source: 08_rf_inputs.md R207. -/
def regsRfin0 : List RegSpec :=
  [⟨0x040, 1, 4, false, 0x12001F, [], [⟨24, 24, .rw, 0, 1⟩, ⟨23, 16, .rw, 6, 30⟩, ⟨9, 8, .rw, 0, 2⟩, ⟨4, 0, .rw, 0, 31⟩]⟩,
   ⟨0x044, 1, 4, false, 0xC0E1001F, [], [⟨31, 30, .ro, 0, 3⟩, ⟨23, 16, .ro, 0, 255⟩, ⟨9, 8, .ro, 0, 3⟩, ⟨4, 0, .ro, 0, 31⟩]⟩,
   ⟨0x048, 1, 4, false, 0xFE00FE00, [], [⟨31, 16, .ro, 0, 65535⟩, ⟨15, 0, .ro, 0, 65535⟩]⟩,
   ⟨0x04C, 1, 4, false, 0x0, [], [⟨31, 16, .ro, 0, 65535⟩, ⟨15, 0, .ro, 0, 65535⟩]⟩,
   ⟨0x050, 1, 4, false, 0x0, [], [⟨3, 2, .ro, 0, 3⟩, ⟨1, 1, .ro, 0, 1⟩, ⟨0, 0, .w1s, 0, 1⟩]⟩,
   ⟨0x060, 1, 4, false, 0xA0000, [], [⟨23, 16, .rw, 0, 200⟩, ⟨7, 7, .ro, 0, 1⟩, ⟨6, 6, .rw, 0, 1⟩, ⟨5, 4, .ro, 0, 3⟩, ⟨3, 2, .rw, 0, 3⟩, ⟨0, 0, .rw, 0, 1⟩]⟩,
   ⟨0x070, 4, 8, false, 0x0, [(0, 0x80000090)], [⟨31, 31, .rw, 0, 1⟩, ⟨30, 30, .rw, 0, 1⟩, ⟨29, 28, .rw, 0, 3⟩, ⟨20, 0, .rw, 0, 0x1fffff⟩]⟩,
   ⟨0x074, 4, 8, false, 0x0, [(0, 0xF0000)], [⟨20, 0, .rw, 0, 0x1fffff⟩]⟩,
   ⟨0x0A0, 1, 4, false, 0x64030500, [], [⟨31, 24, .rw, 10, 255⟩, ⟨19, 16, .rw, 0, 15⟩, ⟨15, 8, .rw, 1, 50⟩, ⟨2, 2, .w1s, 0, 1⟩, ⟨1, 0, .rw, 0, 2⟩]⟩,
   ⟨0x0A4, 1, 4, false, 0x3E8000A, [], [⟨26, 16, .rw, 10, 1200⟩, ⟨10, 0, .rw, 0, 1190⟩]⟩,
   ⟨0x0A8, 1, 4, false, 0x3000000, [], [⟨31, 30, .ro, 0, 3⟩, ⟨27, 24, .ro, 0, 15⟩, ⟨16, 16, .ro, 0, 1⟩, ⟨10, 0, .ro, 0, 2047⟩]⟩,
   ⟨0x400, 1, 4, true, 0x1406060C, [], [⟨31, 24, .rwx, 2, 200⟩, ⟨23, 16, .rwx, 1, 20⟩, ⟨15, 8, .rwx, 1, 12⟩, ⟨7, 0, .rwx, 1, 24⟩]⟩]

/-- Registers of the RFIN page, part 2. Source: 08_rf_inputs.md R207. -/
def regsRfin1 : List RegSpec :=
  [⟨0x404, 1, 4, true, 0x60004, [], [⟨23, 16, .rwx, 1, 12⟩, ⟨10, 0, .rwx, 1, 1024⟩]⟩]

/-- Registers of the PROBE page, part 1. Source: 19_probe_transmitter.md R494. -/
def regsProbe0 : List RegSpec :=
  [⟨0x040, 1, 4, false, 0x3E8, [], [⟨31, 30, .rw, 0, 2⟩, ⟨29, 28, .rw, 0, 3⟩, ⟨27, 27, .rw, 0, 1⟩, ⟨23, 20, .rw, 0, 15⟩, ⟨15, 0, .rw, 100, 8000⟩]⟩,
   ⟨0x044, 1, 4, false, 0x23280, [], [⟨31, 0, .rw, 0, 0xffffffff⟩]⟩,
   ⟨0x048, 1, 4, false, 0x0, [], [⟨31, 0, .rw, 0, 0x5f5e100⟩]⟩,
   ⟨0x04C, 1, 4, false, 0x640001, [], [⟨31, 16, .rw, 10, 1000⟩, ⟨6, 0, .rw, 1, 64⟩]⟩,
   ⟨0x050, 1, 4, false, 0xFE20, [], [⟨15, 0, .rw, 65056, 65376⟩]⟩,
   ⟨0x054, 1, 4, false, 0x0, [], [⟨1, 1, .w1s, 0, 1⟩, ⟨0, 0, .w1s, 0, 1⟩]⟩,
   ⟨0x058, 1, 4, false, 0x0, [], [⟨31, 29, .ro, 0, 7⟩, ⟨28, 28, .ro, 0, 1⟩, ⟨22, 16, .ro, 0, 127⟩, ⟨10, 8, .ro, 0, 7⟩]⟩,
   ⟨0x05C, 1, 4, false, 0x0, [], [⟨31, 0, .ro, 0, 0xffffffff⟩]⟩,
   ⟨0x060, 1, 4, false, 0x0, [], [⟨31, 16, .ro, 0, 65535⟩, ⟨15, 0, .ro, 0, 65535⟩]⟩,
   ⟨0x064, 1, 4, false, 0x0, [], [⟨31, 0, .ro, 0, 0xffffffff⟩]⟩,
   ⟨0x068, 1, 4, false, 0xC8, [], [⟨15, 0, .rw, 60, 2000⟩]⟩,
   ⟨0x400, 1, 4, true, 0xA5A3C, [], [⟨23, 16, .rwx, 5, 50⟩, ⟨15, 0, .rwx, 1, 65535⟩]⟩]

/-- Registers of the PROBE page, part 2. Source: 19_probe_transmitter.md R494. -/
def regsProbe1 : List RegSpec :=
  [⟨0x800, 16, 4, false, 0x0, [(0, 0xFF10), (1, 0xFF1B), (2, 0xFF25), (3, 0xFF30), (4, 0xFF3B), (5, 0xFF45), (6, 0xFF50), (7, 0xFF5B), (8, 0xFF65), (9, 0xFF70), (10, 0xFF7B), (11, 0xFF85), (12, 0xFF90), (13, 0xFF9B), (14, 0xFFA5), (15, 0xFFB0)], [⟨15, 0, .rw, 65296, 65456⟩]⟩,
   ⟨0x840, 8, 4, false, 0x0, [(0, 0x800A0028), (1, 0x83E8003C), (2, 0x93880046)], [⟨31, 31, .rw, 0, 1⟩, ⟨30, 16, .rw, 0, 30000⟩, ⟨7, 0, .rw, 0, 255⟩]⟩,
   ⟨0x900, 64, 8, false, 0x0, [], [⟨31, 30, .ro, 0, 3⟩, ⟨25, 16, .ro, 0, 1023⟩, ⟨15, 0, .ro, 0, 65535⟩]⟩,
   ⟨0x904, 64, 8, false, 0x0, [], [⟨31, 16, .ro, 0, 65535⟩, ⟨15, 0, .ro, 0, 65535⟩]⟩]

/-- Registers of the CASC page, part 1. Source: 21_cascade.md R536. -/
def regsCasc0 : List RegSpec :=
  [⟨0x040, 1, 4, false, 0x103, [], [⟨8, 8, .rw, 0, 1⟩, ⟨4, 4, .rw, 0, 1⟩, ⟨1, 0, .rw, 0, 3⟩]⟩,
   ⟨0x044, 1, 4, false, 0x0, [], [⟨31, 31, .ro, 0, 1⟩, ⟨25, 24, .ro, 0, 3⟩, ⟨19, 16, .ro, 0, 15⟩, ⟨1, 0, .ro, 0, 3⟩]⟩,
   ⟨0x048, 2, 4, false, 0x0, [], [⟨31, 30, .ro, 0, 3⟩, ⟨29, 28, .ro, 0, 3⟩, ⟨27, 16, .ro, 0, 4095⟩, ⟨15, 8, .ro, 0, 255⟩, ⟨7, 0, .ro, 0, 255⟩]⟩,
   ⟨0x050, 1, 4, false, 0x0, [], [⟨8, 0, .ro, 0, 511⟩]⟩,
   ⟨0x060, 1, 4, false, 0x10000, [], [⟨31, 31, .w1s, 0, 1⟩, ⟨30, 30, .rw, 0, 1⟩, ⟨17, 16, .rw, 1, 3⟩, ⟨3, 0, .rw, 0, 15⟩]⟩,
   ⟨0x064, 1, 4, false, 0x0, [], [⟨23, 0, .rw, 0, 0xffffff⟩]⟩,
   ⟨0x068, 1, 4, false, 0x0, [], [⟨31, 31, .ro, 0, 1⟩, ⟨20, 16, .ro, 0, 31⟩, ⟨2, 0, .ro, 0, 7⟩]⟩,
   ⟨0x070, 1, 4, false, 0x0, [], [⟨31, 31, .w1s, 0, 1⟩, ⟨1, 0, .rw, 0, 3⟩]⟩,
   ⟨0x074, 1, 4, false, 0x0, [], [⟨2, 0, .ro, 0, 7⟩]⟩,
   ⟨0x078, 4, 4, false, 0x0, [], [⟨31, 31, .ro, 0, 1⟩, ⟨23, 0, .ro, 0, 0xffffff⟩]⟩,
   ⟨0x090, 4, 4, false, 0x0, [], [⟨31, 31, .ro, 0, 1⟩, ⟨15, 0, .ro, 0, 65535⟩]⟩,
   ⟨0x0A0, 8, 4, false, 0x1000100, [], [⟨31, 31, .rw, 0, 1⟩, ⟨30, 28, .ro, 0, 7⟩, ⟨25, 24, .rw, 1, 3⟩, ⟨22, 16, .rw, 0, 127⟩, ⟨15, 12, .rw, 0, 15⟩, ⟨10, 8, .rw, 1, 4⟩, ⟨7, 0, .ro, 0, 255⟩]⟩]

/-- Registers of the CASC page, part 2. Source: 21_cascade.md R536. -/
def regsCasc1 : List RegSpec :=
  [⟨0x0C0, 8, 4, false, 0x0, [], [⟨31, 31, .ro, 0, 1⟩, ⟨22, 16, .ro, 0, 127⟩, ⟨10, 8, .ro, 0, 7⟩, ⟨6, 4, .ro, 0, 7⟩]⟩,
   ⟨0x800, 16, 4, false, 0x0, [], [⟨31, 0, .rw, 0, 0xffffffff⟩]⟩]

/-- Registers of the CLUS page. Source: 04_power_states_reset.md R97. -/
def regsClus0 : List RegSpec :=
  [⟨0x040, 1, 4, false, 0x0, [], [⟨31, 28, .ro, 0, 15⟩, ⟨27, 27, .ro, 0, 1⟩, ⟨26, 26, .ro, 0, 1⟩, ⟨25, 25, .ro, 0, 1⟩, ⟨24, 24, .ro, 0, 1⟩, ⟨23, 16, .ro, 0, 255⟩, ⟨9, 8, .ro, 0, 3⟩]⟩,
   ⟨0x044, 1, 4, false, 0x0, [], [⟨29, 24, .ro, 0, 63⟩, ⟨21, 20, .ro, 0, 3⟩, ⟨19, 16, .ro, 0, 15⟩, ⟨8, 8, .ro, 0, 1⟩, ⟨1, 0, .ro, 0, 3⟩]⟩,
   ⟨0x048, 1, 4, false, 0x0, [], [⟨31, 16, .ro, 0, 65535⟩, ⟨15, 0, .ro, 0, 65535⟩]⟩,
   ⟨0x04C, 1, 4, false, 0x0, [], [⟨31, 31, .ro, 0, 1⟩, ⟨30, 30, .ro, 0, 1⟩, ⟨15, 0, .ro, 0, 65535⟩]⟩,
   ⟨0x050, 1, 4, false, 0x0, [], [⟨31, 16, .ro, 0, 65535⟩, ⟨15, 0, .ro, 0, 65535⟩]⟩]

/-- Registers of the LANE page, part 1. Source: 09_lane_chain.md R236. -/
def regsLane0 : List RegSpec :=
  [⟨0x040, 1, 4, false, 0x0, [], [⟨31, 31, .ro, 0, 1⟩, ⟨30, 24, .ro, 0, 127⟩, ⟨21, 21, .ro, 0, 1⟩, ⟨20, 20, .ro, 0, 1⟩, ⟨19, 16, .ro, 0, 15⟩, ⟨9, 8, .ro, 0, 3⟩, ⟨3, 0, .ro, 0, 15⟩]⟩,
   ⟨0x044, 1, 4, false, 0x0, [], [⟨31, 0, .ro, 0, 0xffffffff⟩]⟩,
   ⟨0x048, 1, 4, false, 0x0, [], [⟨6, 6, .ro, 0, 1⟩, ⟨5, 5, .ro, 0, 1⟩, ⟨4, 4, .ro, 0, 1⟩, ⟨3, 3, .ro, 0, 1⟩, ⟨2, 2, .ro, 0, 1⟩, ⟨0, 0, .ro, 0, 1⟩]⟩,
   ⟨0x04C, 1, 4, false, 0x0, [], [⟨23, 0, .ro, 0, 0xffffff⟩]⟩,
   ⟨0x050, 1, 4, false, 0x0, [], [⟨29, 16, .ro, 0, 16383⟩, ⟨15, 15, .ro, 0, 1⟩, ⟨13, 0, .ro, 0, 16383⟩]⟩,
   ⟨0x054, 1, 4, false, 0x0, [], [⟨31, 0, .ro, 0, 0xffffffff⟩]⟩,
   ⟨0x058, 1, 4, false, 0x0, [], [⟨31, 16, .ro, 0, 65535⟩, ⟨15, 0, .ro, 0, 65535⟩]⟩,
   ⟨0x05C, 1, 4, false, 0x0, [], [⟨31, 16, .ro, 0, 65535⟩, ⟨15, 0, .ro, 0, 65535⟩]⟩,
   ⟨0x400, 1, 4, true, 0x0, [], [⟨1, 0, .rwx, 0, 3⟩]⟩,
   ⟨0x404, 1, 4, true, 0x0, [], [⟨31, 0, .rwx, 0, 0xffffffff⟩]⟩,
   ⟨0x408, 1, 4, true, 0x80000000, [], [⟨31, 31, .rwx, 0, 1⟩, ⟨15, 0, .rwx, 0, 65535⟩]⟩,
   ⟨0x40C, 1, 4, true, 0x8, [], [⟨16, 16, .rwx, 0, 1⟩, ⟨11, 8, .rwx, 0, 15⟩, ⟨6, 0, .rwx, 0, 127⟩]⟩]

/-- Registers of the LANE page, part 2. Source: 09_lane_chain.md R236. -/
def regsLane1 : List RegSpec :=
  [⟨0x410, 1, 4, true, 0x0, [], [⟨31, 0, .rwx, 0, 0xffffffff⟩]⟩,
   ⟨0x414, 1, 4, true, 0x1, [], [⟨1, 0, .rwx, 0, 3⟩]⟩,
   ⟨0x418, 1, 4, true, 0x0, [], [⟨0, 0, .rwx, 0, 1⟩]⟩,
   ⟨0x41C, 1, 4, true, 0x0, [], [⟨15, 15, .rwx, 0, 1⟩, ⟨13, 0, .rwx, 0, 16383⟩]⟩,
   ⟨0x420, 1, 4, true, 0x0, [], [⟨7, 0, .rwx, 0, 255⟩]⟩,
   ⟨0x428, 1, 4, true, 0x0, [], [⟨1, 1, .w1s, 0, 1⟩, ⟨0, 0, .w1s, 0, 1⟩]⟩,
   ⟨0x800, 128, 4, true, 0x0, [], [⟨17, 0, .rwx, 0, 0x3ffff⟩]⟩,
   ⟨0xA00, 128, 4, true, 0x0, [], [⟨17, 0, .rwx, 0, 0x3ffff⟩]⟩]

/-- Registers of the OFDM page, part 1. Source: 12_ofdm_acquisition.md R315. -/
def regsOfdm0 : List RegSpec :=
  [⟨0x040, 1, 4, false, 0x0, [], [⟨31, 31, .ro, 0, 1⟩, ⟨30, 24, .ro, 0, 127⟩, ⟨18, 16, .ro, 0, 7⟩, ⟨9, 8, .ro, 0, 3⟩, ⟨0, 0, .ro, 0, 1⟩]⟩,
   ⟨0x044, 1, 4, false, 0x0, [], [⟨7, 7, .ro, 0, 1⟩, ⟨6, 6, .ro, 0, 1⟩, ⟨4, 0, .ro, 0, 31⟩, ⟨15, 15, .ro, 0, 1⟩, ⟨14, 14, .ro, 0, 1⟩, ⟨12, 8, .ro, 0, 31⟩, ⟨23, 23, .ro, 0, 1⟩, ⟨22, 22, .ro, 0, 1⟩, ⟨20, 16, .ro, 0, 31⟩, ⟨31, 31, .ro, 0, 1⟩, ⟨30, 30, .ro, 0, 1⟩, ⟨28, 24, .ro, 0, 31⟩]⟩,
   ⟨0x048, 1, 4, false, 0x3C641E03, [], [⟨31, 24, .rw, 5, 255⟩, ⟨23, 16, .rw, 5, 255⟩, ⟨15, 8, .rw, 5, 255⟩, ⟨3, 0, .rw, 1, 15⟩]⟩,
   ⟨0x04C, 1, 4, false, 0xC, [], [⟨5, 0, .rw, 2, 40⟩]⟩,
   ⟨0x050, 1, 4, false, 0x3, [], [⟨1, 1, .rw, 0, 1⟩, ⟨0, 0, .rw, 0, 1⟩]⟩,
   ⟨0x054, 1, 4, false, 0x0, [], [⟨31, 30, .ro, 0, 3⟩, ⟨29, 28, .ro, 0, 3⟩, ⟨26, 24, .ro, 0, 7⟩, ⟨23, 21, .ro, 0, 7⟩, ⟨20, 18, .ro, 0, 7⟩, ⟨17, 15, .ro, 0, 7⟩, ⟨14, 12, .ro, 0, 7⟩, ⟨11, 11, .ro, 0, 1⟩, ⟨10, 10, .ro, 0, 1⟩, ⟨7, 5, .ro, 0, 7⟩]⟩,
   ⟨0x058, 1, 4, false, 0x0, [], [⟨31, 16, .ro, 0, 65535⟩, ⟨15, 0, .ro, 0, 65535⟩]⟩,
   ⟨0x05C, 1, 4, false, 0x0, [], [⟨31, 0, .ro, 0, 0xffffffff⟩]⟩,
   ⟨0x060, 1, 4, false, 0x0, [], [⟨31, 24, .ro, 0, 255⟩, ⟨23, 16, .ro, 0, 255⟩, ⟨15, 0, .ro, 0, 65535⟩]⟩,
   ⟨0x064, 1, 4, false, 0x0, [], [⟨7, 0, .ro, 0, 255⟩, ⟨15, 8, .ro, 0, 255⟩, ⟨23, 16, .ro, 0, 255⟩, ⟨31, 24, .ro, 0, 255⟩]⟩,
   ⟨0x068, 1, 4, false, 0x0, [], [⟨31, 24, .ro, 0, 255⟩, ⟨23, 23, .ro, 0, 1⟩, ⟨22, 0, .ro, 0, 0x7fffff⟩]⟩,
   ⟨0x06C, 1, 4, false, 0x0, [], [⟨31, 16, .ro, 0, 65535⟩, ⟨15, 0, .ro, 0, 65535⟩]⟩]

/-- Registers of the OFDM page, part 2. Source: 12_ofdm_acquisition.md R315. -/
def regsOfdm1 : List RegSpec :=
  [⟨0x070, 1, 4, false, 0x0, [], [⟨31, 16, .ro, 0, 65535⟩, ⟨15, 0, .ro, 0, 65535⟩]⟩,
   ⟨0x400, 1, 4, true, 0x120019, [], [⟨31, 31, .rwx, 0, 1⟩, ⟨23, 16, .rwx, 8, 40⟩, ⟨4, 0, .rwx, 1, 25⟩]⟩,
   ⟨0x404, 1, 4, true, 0x404, [], [⟨11, 8, .rwx, 1, 8⟩, ⟨3, 0, .rwx, 1, 8⟩]⟩,
   ⟨0x408, 1, 4, true, 0x841, [], [⟨12, 8, .rwx, 0, 16⟩, ⟨7, 4, .rwx, 1, 12⟩, ⟨0, 0, .rwx, 0, 1⟩]⟩,
   ⟨0x40C, 1, 4, true, 0x14, [], [⟨7, 0, .rwx, 6, 40⟩]⟩]

/-- Registers of the ANA page, part 1. Source: 11_analog_broadcast.md R292. -/
def regsAna0 : List RegSpec :=
  [⟨0x040, 1, 4, false, 0x0, [], [⟨31, 31, .ro, 0, 1⟩, ⟨30, 24, .ro, 0, 127⟩, ⟨17, 16, .ro, 0, 3⟩, ⟨13, 13, .ro, 0, 1⟩, ⟨12, 8, .ro, 0, 31⟩, ⟨5, 5, .ro, 0, 1⟩, ⟨4, 0, .ro, 0, 31⟩]⟩,
   ⟨0x044, 1, 4, false, 0xF0, [], [⟨10, 8, .rw, 0, 4⟩, ⟨7, 7, .rw, 0, 1⟩, ⟨6, 6, .rw, 0, 1⟩, ⟨5, 5, .rw, 0, 1⟩, ⟨4, 4, .rw, 0, 1⟩, ⟨0, 0, .rw, 0, 1⟩]⟩,
   ⟨0x048, 1, 4, false, 0x2C1, [], [⟨10, 8, .rw, 0, 4⟩, ⟨7, 7, .rw, 0, 1⟩, ⟨6, 6, .rw, 0, 1⟩, ⟨5, 4, .rw, 0, 2⟩, ⟨0, 0, .rw, 0, 1⟩]⟩,
   ⟨0x04C, 1, 4, false, 0x1F0, [], [⟨13, 12, .rw, 0, 2⟩, ⟨9, 8, .rw, 0, 2⟩, ⟨7, 5, .rw, 0, 7⟩, ⟨4, 4, .rw, 0, 1⟩]⟩,
   ⟨0x050, 1, 4, false, 0x3232140A, [], [⟨31, 24, .rw, 10, 255⟩, ⟨23, 16, .rw, 5, 255⟩, ⟨15, 8, .rw, 1, 100⟩, ⟨7, 0, .rw, 3, 30⟩]⟩,
   ⟨0x054, 1, 4, false, 0x0, [], [⟨31, 30, .ro, 0, 3⟩, ⟨29, 27, .ro, 0, 7⟩, ⟨26, 26, .ro, 0, 1⟩, ⟨25, 25, .ro, 0, 1⟩, ⟨24, 24, .ro, 0, 1⟩, ⟨23, 20, .ro, 0, 15⟩, ⟨19, 18, .ro, 0, 3⟩, ⟨17, 16, .ro, 0, 3⟩, ⟨15, 0, .ro, 0, 65535⟩]⟩,
   ⟨0x058, 1, 4, false, 0x0, [], [⟨31, 24, .ro, 0, 255⟩, ⟨23, 16, .ro, 0, 255⟩, ⟨15, 0, .ro, 0, 65535⟩]⟩,
   ⟨0x05C, 1, 4, false, 0xFE00, [], [⟨31, 16, .ro, 0, 65535⟩, ⟨15, 0, .ro, 0, 65535⟩]⟩,
   ⟨0x060, 1, 4, false, 0x0, [], [⟨31, 16, .ro, 0, 65535⟩, ⟨15, 0, .ro, 0, 65535⟩]⟩,
   ⟨0x064, 1, 4, false, 0x0, [], [⟨31, 24, .ro, 0, 255⟩, ⟨23, 16, .ro, 0, 255⟩, ⟨1, 1, .ro, 0, 1⟩, ⟨0, 0, .ro, 0, 1⟩]⟩,
   ⟨0x068, 1, 4, false, 0x0, [], [⟨31, 16, .ro, 0, 65535⟩, ⟨15, 0, .ro, 0, 65535⟩]⟩,
   ⟨0x400, 1, 4, true, 0x3C231914, [], [⟨31, 24, .rwx, 1, 100⟩, ⟨23, 16, .rwx, 0, 99⟩, ⟨15, 8, .rwx, 0, 100⟩, ⟨7, 0, .rwx, 0, 40⟩]⟩]

/-- Registers of the ANA page, part 2. Source: 11_analog_broadcast.md R292. -/
def regsAna1 : List RegSpec :=
  [⟨0x404, 1, 4, true, 0xA10000A, [], [⟨31, 24, .rwx, 0, 40⟩, ⟨23, 16, .rwx, 3, 50⟩, ⟨7, 0, .rwx, 1, 255⟩]⟩,
   ⟨0x408, 1, 4, true, 0x141A0032, [], [⟨31, 24, .rwx, 0, 40⟩, ⟨23, 16, .rwx, 3, 50⟩, ⟨7, 0, .rwx, 1, 255⟩]⟩,
   ⟨0x40C, 1, 4, true, 0x10006014, [], [⟨31, 24, .rwx, 8, 64⟩, ⟨15, 8, .rwx, 8, 192⟩, ⟨7, 0, .rwx, 1, 100⟩]⟩,
   ⟨0x410, 1, 4, true, 0x2B, [], [⟨7, 0, .rwx, 10, 50⟩]⟩]

/-- Registers of the FEC page, part 1. Source: 13_channel_decoding.md R347. -/
def regsFec0 : List RegSpec :=
  [⟨0x040, 1, 4, false, 0x4, [], [⟨2, 0, .rw, 1, 4⟩]⟩,
   ⟨0x044, 1, 4, false, 0x132, [], [⟨8, 8, .rw, 0, 1⟩, ⟨5, 0, .rw, 1, 50⟩]⟩,
   ⟨0x048, 1, 4, false, 0x2, [], [⟨1, 1, .rw, 0, 1⟩, ⟨0, 0, .rw, 0, 1⟩]⟩,
   ⟨0x04C, 1, 4, false, 0xC8, [], [⟨15, 0, .rw, 1, 1000⟩]⟩,
   ⟨0x050, 1, 4, false, 0x4, [], [⟨3, 0, .rw, 1, 8⟩]⟩,
   ⟨0x054, 1, 4, false, 0x7D0, [], [⟨15, 0, .rw, 100, 50000⟩]⟩,
   ⟨0x058, 1, 4, false, 0x0, [], [⟨31, 31, .w1c, 0, 1⟩, ⟨30, 28, .ro, 0, 7⟩, ⟨27, 24, .ro, 0, 15⟩, ⟨23, 23, .ro, 0, 1⟩, ⟨22, 21, .ro, 0, 3⟩, ⟨20, 14, .ro, 0, 127⟩, ⟨7, 0, .ro, 0, 255⟩]⟩,
   ⟨0x05C, 1, 4, false, 0x0, [], [⟨31, 16, .ro, 0, 65535⟩, ⟨15, 0, .ro, 0, 65535⟩]⟩,
   ⟨0x060, 4, 4, false, 0x0, [], [⟨31, 31, .ro, 0, 1⟩, ⟨30, 30, .ro, 0, 1⟩, ⟨29, 27, .ro, 0, 7⟩, ⟨26, 13, .ro, 0, 16383⟩, ⟨7, 0, .ro, 0, 255⟩]⟩,
   ⟨0x070, 8, 4, false, 0x0, [], [⟨15, 0, .ro, 0, 65535⟩]⟩,
   ⟨0x090, 2, 4, false, 0x0, [], [⟨31, 24, .ro, 0, 255⟩, ⟨23, 16, .ro, 0, 255⟩, ⟨15, 8, .ro, 0, 255⟩, ⟨0, 0, .ro, 0, 1⟩]⟩,
   ⟨0x0A0, 4, 4, false, 0x0, [], [⟨31, 0, .ro, 0, 0xffffffff⟩]⟩]

/-- Registers of the FEC page, part 2. Source: 13_channel_decoding.md R347. -/
def regsFec1 : List RegSpec :=
  [⟨0x400, 1, 4, true, 0x300C, [], [⟨15, 8, .rwx, 1, 127⟩, ⟨7, 0, .rwx, 1, 127⟩]⟩,
   ⟨0x404, 1, 4, true, 0x814, [], [⟨15, 8, .rwx, 1, 16⟩, ⟨7, 0, .rwx, 1, 50⟩]⟩,
   ⟨0x800, 128, 8, false, 0x0, [], [⟨31, 16, .ro, 0, 65535⟩, ⟨15, 0, .ro, 0, 65535⟩]⟩,
   ⟨0x804, 128, 8, false, 0x0, [], [⟨31, 16, .ro, 0, 65535⟩, ⟨15, 0, .ro, 0, 65535⟩]⟩]

/-- Registers of the ADEC page. Source: 14_service_following.md R379. -/
def regsAdec0 : List RegSpec :=
  [⟨0x040, 1, 4, false, 0x4, [], [⟨8, 8, .rw, 0, 1⟩, ⟨3, 0, .rw, 1, 15⟩]⟩,
   ⟨0x050, 6, 4, false, 0x0, [], [⟨23, 16, .ro, 0, 255⟩, ⟨7, 0, .ro, 0, 255⟩]⟩,
   ⟨0x070, 1, 4, false, 0x0, [], [⟨31, 31, .w1c, 0, 1⟩, ⟨25, 24, .ro, 0, 3⟩, ⟨22, 16, .ro, 0, 127⟩, ⟨2, 0, .ro, 0, 7⟩]⟩,
   ⟨0x800, 128, 8, false, 0x0, [], [⟨31, 28, .ro, 0, 15⟩, ⟨27, 26, .ro, 0, 3⟩, ⟨25, 24, .ro, 0, 3⟩, ⟨23, 23, .ro, 0, 1⟩, ⟨22, 20, .ro, 0, 7⟩, ⟨15, 0, .ro, 0, 65535⟩]⟩,
   ⟨0x804, 128, 8, false, 0x0, [], [⟨31, 16, .ro, 0, 65535⟩, ⟨15, 0, .ro, 0, 65535⟩]⟩]

/-- Registers of the PLACE page, part 1. Source: 10_placement.md R266, 14_service_following.md R378. -/
def regsPlace0 : List RegSpec :=
  [⟨0x040, 1, 4, false, 0x0, [], [⟨31, 24, .ro, 0, 255⟩, ⟨23, 16, .ro, 0, 255⟩, ⟨15, 8, .ro, 0, 255⟩, ⟨0, 0, .ro, 0, 1⟩]⟩,
   ⟨0x050, 4, 4, false, 0x0, [], [⟨31, 0, .w1s, 0, 0xffffffff⟩]⟩,
   ⟨0x060, 4, 4, false, 0x0, [], [⟨31, 0, .w1c, 0, 0xffffffff⟩]⟩,
   ⟨0x070, 1, 4, false, 0x0, [], [⟨28, 24, .ro, 0, 31⟩, ⟨19, 16, .ro, 0, 15⟩, ⟨12, 8, .ro, 0, 31⟩, ⟨2, 0, .ro, 0, 7⟩]⟩,
   ⟨0x074, 1, 4, false, 0x0, [], [⟨31, 30, .ro, 0, 3⟩, ⟨26, 24, .ro, 0, 7⟩, ⟨15, 0, .ro, 0, 65535⟩]⟩,
   ⟨0x078, 1, 4, false, 0x0, [], [⟨31, 31, .w1c, 0, 1⟩, ⟨22, 16, .ro, 0, 127⟩, ⟨3, 0, .ro, 0, 15⟩]⟩,
   ⟨0x07C, 1, 4, false, 0x0, [], [⟨31, 16, .ro, 0, 65535⟩, ⟨15, 0, .ro, 0, 65535⟩]⟩,
   ⟨0x080, 1, 4, false, 0xC5140F0A, [], [⟨31, 31, .rw, 0, 1⟩, ⟨30, 30, .rw, 0, 1⟩, ⟨29, 24, .rw, 1, 63⟩, ⟨23, 16, .rw, 5, 100⟩, ⟨15, 8, .rw, 0, 100⟩, ⟨7, 0, .rw, 1, 50⟩]⟩,
   ⟨0x084, 1, 4, false, 0x323C8BB8, [], [⟨31, 24, .rw, 5, 200⟩, ⟨23, 16, .rw, 30, 95⟩, ⟨15, 12, .rw, 1, 15⟩, ⟨11, 0, .rw, 100, 3000⟩]⟩,
   ⟨0x088, 1, 4, false, 0x140A, [], [⟨15, 8, .rw, 6, 40⟩, ⟨7, 0, .rw, 1, 255⟩]⟩,
   ⟨0x08C, 1, 4, false, 0x0, [], [⟨31, 16, .ro, 0, 65535⟩, ⟨15, 0, .ro, 0, 65535⟩]⟩,
   ⟨0x090, 1, 4, false, 0x0, [], [⟨31, 31, .w1c, 0, 1⟩, ⟨26, 24, .ro, 0, 7⟩, ⟨22, 16, .ro, 0, 127⟩]⟩]

/-- Registers of the PLACE page, part 2. Source: 10_placement.md R266, 14_service_following.md R378. -/
def regsPlace1 : List RegSpec :=
  [⟨0x094, 1, 4, false, 0x0, [], [⟨31, 16, .ro, 0, 65535⟩, ⟨15, 0, .ro, 0, 65535⟩]⟩,
   ⟨0x400, 1, 4, true, 0x14000002, [], [⟨31, 24, .rwx, 1, 255⟩, ⟨1, 1, .rwx, 0, 1⟩, ⟨0, 0, .rwx, 0, 1⟩]⟩,
   ⟨0x404, 1, 4, true, 0x3C0A280C, [], [⟨31, 24, .rwx, 10, 255⟩, ⟨23, 16, .rwx, 0, 50⟩, ⟨15, 8, .rwx, 5, 100⟩, ⟨7, 0, .rwx, 0, 12⟩]⟩,
   ⟨0x800, 128, 16, false, 0x0, [], [⟨31, 29, .ro, 0, 7⟩, ⟨28, 28, .ro, 0, 1⟩, ⟨27, 25, .ro, 0, 7⟩, ⟨24, 22, .ro, 0, 7⟩, ⟨21, 18, .ro, 0, 15⟩, ⟨15, 8, .ro, 0, 255⟩, ⟨7, 0, .ro, 0, 255⟩]⟩,
   ⟨0x804, 128, 16, false, 0x0, [], [⟨31, 0, .ro, 0, 0xffffffff⟩]⟩,
   ⟨0x808, 128, 16, false, 0x0, [], [⟨31, 8, .ro, 0, 0xffffff⟩, ⟨7, 0, .ro, 0, 255⟩]⟩,
   ⟨0x80C, 128, 16, false, 0x0, [], [⟨23, 0, .ro, 0, 0xffffff⟩]⟩]

/-- Registers of the DATA page, part 1. Source: 16_datacast_object_store.md R429. -/
def regsData0 : List RegSpec :=
  [⟨0x040, 1, 4, false, 0x2780000, [], [⟨31, 24, .rw, 0, 255⟩, ⟨23, 16, .rw, 5, 255⟩, ⟨3, 0, .rw, 0, 15⟩]⟩,
   ⟨0x044, 1, 4, false, 0x0, [], [⟨31, 24, .ro, 0, 255⟩, ⟨23, 23, .ro, 0, 1⟩, ⟨22, 22, .ro, 0, 1⟩, ⟨3, 0, .ro, 0, 15⟩]⟩,
   ⟨0x048, 1, 4, false, 0x0, [], [⟨31, 16, .ro, 0, 65535⟩, ⟨15, 0, .ro, 0, 65535⟩]⟩,
   ⟨0x04C, 1, 4, false, 0x0, [], [⟨31, 16, .ro, 0, 65535⟩, ⟨15, 0, .ro, 0, 65535⟩]⟩,
   ⟨0x050, 1, 4, false, 0x0, [], [⟨31, 16, .ro, 0, 65535⟩, ⟨15, 0, .ro, 0, 65535⟩]⟩,
   ⟨0x054, 1, 4, false, 0x0, [], [⟨31, 31, .w1c, 0, 1⟩, ⟨30, 27, .ro, 0, 15⟩, ⟨26, 24, .ro, 0, 7⟩, ⟨22, 16, .ro, 0, 127⟩, ⟨15, 0, .ro, 0, 65535⟩]⟩,
   ⟨0x058, 1, 4, false, 0x0, [], [⟨31, 0, .ro, 0, 0xffffffff⟩]⟩,
   ⟨0x05C, 1, 4, false, 0x0, [], [⟨31, 0, .ro, 0, 0xffffffff⟩]⟩,
   ⟨0x060, 1, 4, false, 0x0, [], [⟨31, 16, .ro, 0, 65535⟩, ⟨14, 8, .ro, 0, 127⟩, ⟨3, 0, .ro, 0, 15⟩]⟩,
   ⟨0x064, 1, 4, false, 0x0, [], [⟨31, 16, .ro, 0, 65535⟩, ⟨6, 0, .ro, 0, 127⟩]⟩,
   ⟨0x070, 1, 4, false, 0x0, [], [⟨31, 31, .ro, 0, 1⟩, ⟨15, 0, .ro, 0, 65535⟩]⟩,
   ⟨0x074, 1, 4, false, 0x0, [], [⟨31, 16, .ro, 0, 65535⟩, ⟨10, 8, .ro, 0, 7⟩, ⟨1, 1, .ro, 0, 1⟩, ⟨0, 0, .ro, 0, 1⟩]⟩]

/-- Registers of the DATA page, part 2. Source: 16_datacast_object_store.md R429. -/
def regsData1 : List RegSpec :=
  [⟨0x078, 1, 4, false, 0x0, [], [⟨16, 0, .ro, 0, 131071⟩]⟩,
   ⟨0x07C, 1, 4, false, 0x0, [], [⟨31, 0, .ro, 0, 0xffffffff⟩]⟩,
   ⟨0x080, 1, 4, false, 0x0, [], [⟨31, 0, .ro, 0, 0xffffffff⟩]⟩,
   ⟨0x084, 1, 4, false, 0x0, [], [⟨31, 0, .ro, 0, 0xffffffff⟩]⟩,
   ⟨0x088, 1, 4, false, 0x0, [], [⟨15, 0, .rw, 0, 63488⟩]⟩,
   ⟨0x08C, 1, 4, false, 0x0, [], [⟨31, 0, .wo, 0, 0xffffffff⟩]⟩,
   ⟨0x0A0, 8, 4, false, 0x0, [], [⟨31, 31, .ro, 0, 1⟩, ⟨30, 30, .ro, 0, 1⟩, ⟨29, 29, .ro, 0, 1⟩, ⟨28, 28, .ro, 0, 1⟩, ⟨19, 16, .ro, 0, 15⟩, ⟨1, 0, .ro, 0, 3⟩]⟩,
   ⟨0x0C0, 8, 8, false, 0x0, [], [⟨31, 0, .ro, 0, 0xffffffff⟩]⟩,
   ⟨0x0C4, 8, 8, false, 0x0, [], [⟨31, 0, .ro, 0, 0xffffffff⟩]⟩,
   ⟨0x100, 1, 4, false, 0x0, [], [⟨31, 16, .wo, 0, 65535⟩, ⟨10, 8, .wo, 0, 7⟩, ⟨1, 0, .wo, 1, 3⟩]⟩,
   ⟨0x140, 16, 4, false, 0x0, [], [⟨31, 0, .rw, 0, 0xffffffff⟩]⟩,
   ⟨0x800, 512, 4, false, 0x0, [], [⟨31, 0, .ro, 0, 0xffffffff⟩]⟩]

/-- Registers of the HAMPER page, part 1. Source: 10_placement.md R238, 10_placement.md R261. -/
def regsHamper0 : List RegSpec :=
  [⟨0x000, 1, 4, false, 0x0, [], [⟨31, 31, .rw, 0, 1⟩, ⟨30, 28, .rw, 0, 4⟩, ⟨27, 27, .rw, 0, 1⟩, ⟨26, 24, .rw, 0, 6⟩, ⟨23, 16, .rw, 0, 255⟩, ⟨14, 8, .rw, 0, 127⟩, ⟨7, 4, .rw, 0, 4⟩, ⟨3, 0, .rw, 0, 4⟩]⟩,
   ⟨0x004, 1, 4, false, 0x0, [], [⟨31, 0, .rw, 0, 0xffffffff⟩]⟩,
   ⟨0x008, 1, 4, false, 0x0, [], [⟨31, 0, .rw, 0, 0xffffffff⟩]⟩,
   ⟨0x00C, 1, 4, false, 0x0, [], [⟨31, 0, .rw, 0, 0xffffffff⟩]⟩,
   ⟨0x010, 1, 4, false, 0x0, [], [⟨31, 0, .rw, 0, 0xffffffff⟩]⟩,
   ⟨0x014, 1, 4, false, 0x0, [], [⟨7, 0, .rw, 0, 100⟩]⟩,
   ⟨0x018, 1, 4, false, 0x0, [], [⟨3, 0, .rw, 0, 15⟩]⟩,
   ⟨0x01C, 1, 4, false, 0x0, [], [⟨31, 16, .rw, 0, 2048⟩, ⟨15, 0, .rw, 0, 1024⟩]⟩,
   ⟨0x020, 1, 4, false, 0x0, [], [⟨31, 16, .rw, 0, 65535⟩, ⟨15, 0, .rw, 0, 65535⟩]⟩,
   ⟨0x024, 1, 4, false, 0x0, [], [⟨31, 31, .rw, 0, 1⟩, ⟨29, 28, .rw, 0, 3⟩, ⟨27, 24, .rw, 0, 15⟩, ⟨18, 18, .rw, 0, 1⟩, ⟨17, 17, .rw, 0, 1⟩, ⟨16, 16, .rw, 0, 1⟩, ⟨3, 0, .rw, 0, 15⟩]⟩,
   ⟨0x028, 1, 4, false, 0x0, [], [⟨31, 0, .rw, 0, 0xffffffff⟩]⟩,
   ⟨0x02C, 1, 4, false, 0x0, [], [⟨31, 0, .rw, 0, 0xffffffff⟩]⟩]

/-- Registers of the HAMPER page, part 2. Source: 10_placement.md R238, 10_placement.md R261. -/
def regsHamper1 : List RegSpec :=
  [⟨0x030, 1, 4, false, 0x0, [], [⟨31, 31, .rw, 0, 1⟩, ⟨23, 0, .rw, 0, 0xffffff⟩]⟩,
   ⟨0x034, 1, 4, false, 0x0, [], [⟨31, 31, .rw, 0, 1⟩, ⟨30, 30, .rw, 0, 1⟩, ⟨29, 29, .rw, 0, 1⟩, ⟨28, 28, .rw, 0, 1⟩, ⟨27, 27, .rw, 0, 1⟩, ⟨23, 16, .rw, 0, 255⟩, ⟨15, 14, .rw, 0, 3⟩, ⟨12, 12, .rw, 0, 1⟩, ⟨11, 8, .rw, 0, 15⟩, ⟨5, 4, .rw, 0, 3⟩, ⟨2, 0, .rw, 0, 5⟩]⟩,
   ⟨0x100, 1, 4, false, 0x0, [], [⟨31, 29, .ro, 0, 7⟩, ⟨28, 25, .ro, 0, 15⟩, ⟨24, 24, .ro, 0, 1⟩, ⟨23, 16, .ro, 0, 255⟩, ⟨15, 8, .ro, 0, 255⟩, ⟨7, 5, .ro, 0, 7⟩]⟩,
   ⟨0x104, 1, 4, false, 0x0, [], [⟨23, 0, .ro, 0, 0xffffff⟩]⟩,
   ⟨0x108, 1, 4, false, 0x0, [], [⟨31, 31, .ro, 0, 1⟩, ⟨30, 30, .ro, 0, 1⟩, ⟨27, 24, .ro, 0, 15⟩, ⟨23, 23, .ro, 0, 1⟩, ⟨21, 20, .ro, 0, 3⟩, ⟨19, 19, .ro, 0, 1⟩, ⟨18, 16, .ro, 0, 7⟩, ⟨13, 12, .ro, 0, 3⟩, ⟨11, 8, .ro, 0, 15⟩, ⟨7, 4, .ro, 0, 15⟩]⟩,
   ⟨0x10C, 1, 4, false, 0x0, [], [⟨31, 0, .ro, 0, 0xffffffff⟩]⟩,
   ⟨0x110, 1, 4, false, 0x0, [], [⟨31, 16, .ro, 0, 65535⟩, ⟨1, 0, .ro, 0, 3⟩]⟩,
   ⟨0x114, 1, 4, false, 0x0, [], [⟨31, 31, .ro, 0, 1⟩, ⟨27, 24, .ro, 0, 15⟩, ⟨23, 0, .ro, 0, 0xffffff⟩]⟩,
   ⟨0x118, 1, 4, false, 0x0, [], [⟨31, 16, .ro, 0, 65535⟩, ⟨15, 0, .ro, 0, 65535⟩]⟩]

/-- Registers of the QW page. Source: 06_host_port.md R157. -/
def regsQw0 : List RegSpec :=
  [⟨0x040, 1, 4, false, 0x0, [], [⟨31, 16, .ro, 0, 65535⟩, ⟨15, 0, .ro, 0, 65535⟩]⟩,
   ⟨0x044, 1, 4, false, 0x0, [], [⟨15, 0, .wo, 0, 65535⟩]⟩]

/-- The registers of each block type after the page header (R98, R103). -/
def regsOf : PageType → List RegSpec
  | .sys => regsSys0
  | .clk => regsClk0
  | .pwr => regsPwr0
  | .irq => regsIrq0
  | .time => regsTime0 ++ regsTime1 ++ regsTime2
  | .prot => regsProt0
  | .mem => regsMem0 ++ regsMem1
  | .twi => regsTwi0 ++ regsTwi1
  | .host => regsHost0
  | .sched => regsSched0
  | .strm => regsStrm0
  | .store => regsStore0 ++ regsStore1
  | .aud => regsAud0
  | .rfin => regsRfin0 ++ regsRfin1
  | .probe => regsProbe0 ++ regsProbe1
  | .casc => regsCasc0 ++ regsCasc1
  | .clus => regsClus0
  | .lane => regsLane0 ++ regsLane1
  | .ofdm => regsOfdm0 ++ regsOfdm1
  | .ana => regsAna0 ++ regsAna1
  | .fec => regsFec0 ++ regsFec1
  | .adec => regsAdec0
  | .place => regsPlace0 ++ regsPlace1
  | .data => regsData0 ++ regsData1
  | .hamper => regsHamper0 ++ regsHamper1
  | .qw => regsQw0

end Sys2Proof.Machine
end

