-- ==== Sys2Proof/Machine/State.lean ====
section
/-! DEFINITION. The state of the device: every register word (sparse over its reset word), every memory byte, and the
internal state that spec/ names beside the registers, block by block. -/
namespace Sys2Proof.Machine
open Sys2Proof

/-- Reasons for which the model stops with a fault. No command of this device stops: spec/ gives every event a next
state, and an access that is not permitted is answered by the device itself (R99, R117). The type is therefore empty. -/
inductive Fault where
deriving DecidableEq, Repr

/-- Reasons for which the model refuses a command. -/
inductive Refusal where
  /-- The command has no meaning in the model yet. Raised by an arm of `exec` only. Safe. -/
  | notModelled (mnemonic : String)
deriving DecidableEq, Repr

/-! ### Boot, clocks, power (R36, R50 to R97) -/

/-- Where the boot of R36 and R93 stands. -/
inductive Boot where
  /-- Cold reset: power-on reset not released, RESET_N low, or TESTEN strapped to 1 (R34, R70). -/
  | held
  /-- Straps sampled, XO not yet stable (R93 step 1). -/
  | xoStart
  /-- The eMMC boot partition is being read (R93 step 3). -/
  | fetch
  /-- Waiting for an image through the host port or the tunnel. -/
  | waitHost
  /-- The signature of an image is being verified; `emmc` says where it came from. -/
  | verify (emmc : Bool)
  /-- A warm reset is booting from the retained patch image (R92). -/
  | warm
  /-- Boot complete: SYS.BOOT_STAT.READY is 1. -/
  | ready
deriving DecidableEq, Repr

/-- The crystal oscillator (R50, R51, R560). -/
inductive Xo where
  | stopped | starting | stable | failed
deriving DecidableEq, Repr

/-- A radio-state transition in progress (R73), or the RC calibration of R78. -/
inductive Trans where
  | sleepToStandby | standbyToSynth | synthToRx | rxToTx | txToRx | rxToSynth | synthToStandby | standbyToSleep | rcCal
deriving DecidableEq, Repr

/-- Pins and straps as the device sees or drives them (R34 to R41, R51, R89). -/
structure PinSt where
  porHeld : Bool          -- the internal power-on reset is asserted (R70)
  resetN : Bool           -- RESET_N recognised high after its filter (R36)
  testEn : Bool           -- sampled TESTEN: the device stays in cold reset (R34)
  strapPull : Bool        -- the pull-downs of the strap balls are on: from power-up until the sampling (R35)
  intnSleep : Bool        -- INT_N as held at Sleep entry (R39); true is asserted
  gpioSleep : Bool        -- the balls that Sleep holds are held: INT_N, GPIO, FILT_SEL (R39)
  filtSleep : List Nat    -- FILT_SEL codes of inputs 0 to 3 as held at Sleep entry (R39, R205)
  ppsOld : List Nat       -- PPS_FLT before each of the last writes of SYS.PIN_FILT0, latest first (R42)
deriving DecidableEq, Repr

/-- The clock block beside the CLK page. -/
structure ClkSt where
  xo : Xo
  xoLate : Bool           -- an unwatched start has passed 20 ms: INT_N is driven low until the declaration (R560)
  xoFailDue : Bool        -- CLK cause XO_FAIL is to be raised after boot (R51, R560)
  rootLost : Bool         -- from ROOT_LOSS until RETURN or the descent of R65
  relockQual : Bool       -- lock qualified, the return waits for the next common boundary (R64)
  consecFail : Nat        -- consecutive failed attempts (R63)
  failRaised : Bool       -- RELOCK_FAIL already raised in this run (R63)
  dither : Bool           -- dither in force (R53)
  seed : Nat              -- seed the LFSR was loaded with at the last lock acquisition (R53)
  drive : Nat             -- crystal drive level in force (R68)
  audDiv : Nat            -- XO cycles, two to an AUD cycle, since the frame sync of the master ports: their common divider (R382)
deriving DecidableEq, Repr

/-- Runs of consecutive temperature samples of one cluster sensor (R88). -/
structure ThermRun where
  warn : Nat              -- at or above WARN
  hot : Nat               -- above 120 degrees
  cool : Nat              -- at or below UNFENCE
deriving DecidableEq, Repr

/-- One cluster beside its CLUS page. -/
structure ClusSt where
  unfencing : Bool        -- the power-up belongs to an unfence (R86)
  testDue : Bool          -- self-test at the next power-up (R90)
  bankReady : Bool        -- bank initialisation done, the clock start waits for the next boundary (R83)
  hot : Bool              -- hot under R255
  therm : ThermRun
deriving DecidableEq, Repr

/-- The power controller beside the PWR page. -/
structure PwrSt where
  trans : Option Trans
  wakePend : Nat          -- wake flags of events during Standby to Sleep (R80)
  waking : Bool           -- the Standby being reached follows a wake (R80)
  lockFailed : Bool       -- STATE_FAIL raised for the failed sequence in progress (R81)
  holdCool : Nat          -- consecutive samples with every sensor at or below UNFENCE (R88)
  doneDue : Bool          -- a target change not yet answered by STATE_DONE (R75)
  wdogWarned : Bool       -- WDOG_WARN raised in this count (R127)
  clus : List (Nat × ClusSt)
deriving DecidableEq, Repr

/-! ### RF inputs and lanes (R186 to R236) -/

/-- Calibration of an input (R195): none, running, or running with one further calibration asked for (R11). -/
inductive CalPhase where
  | idle | running | again
deriving DecidableEq, Repr

/-- A gain step that waits for the next common boundary (R187). -/
inductive GainDue where
  /-- The step after an overload in Fast: minus FAST_MAX (R192). -/
  | fast
  /-- The extra slot after an overload in Frozen: minus OVL_STEP (R192). -/
  | overload
  /-- MAN_LNA and MAN_ATT as they stand at the boundary (R194). -/
  | manual
deriving DecidableEq, Repr

/-- One RF input beside its RFIN page. -/
structure RfSt where
  cal : CalPhase
  gainDue : Option GainDue
  est4 : Option Int       -- RMS level minus G in quarter dB at the last window, none in Hold (R201)
  rms4 : Int              -- RMS level of that window in quarter dBFS
  filtDue : Option (Nat × Nat) -- code and zone, other than those on the balls, that wait for the boundary (R199)
  filtFor : List (Nat × Nat) -- lanes and carriers for which R197 was last evaluated (R200)
  measured : Option Nat   -- the gains measured at the last calibration: their place among the free words (R188, R195)
  settling : Bool         -- the SETTLE interval runs (R199)
  fenceHold : List Nat    -- a fence took the last detection: the AGC stays Frozen while one of these lanes remains (R26)
  blank : Bool            -- antenna readings are not yet judged (R203)
  retryDue : Bool         -- a retry is pending after a short
  retrying : Bool         -- the supply is on again after a short not yet cleared
  shortRun : Nat          -- consecutive judged readings above SHORT_MV
  okRun : Nat             -- consecutive judged readings at or below SHORT_MV after a retry
  openRun : Nat           -- consecutive judged readings below OPEN_MV
  inRun : Nat             -- consecutive judged readings from OPEN_MV to SHORT_MV
deriving DecidableEq, Repr

/-- What a FIR bank holds: a preset table of the device (with the bandwidth code the engine chose), or the host's
coefficients, tap by tap over what the bank held before (R219 to R221). -/
structure BankSt where
  preset : Nat            -- 0: nothing loaded
  code : Nat              -- channel bandwidth code of the engine (R281)
  taps : List (Nat × Nat) -- taps the host has written since the load
deriving DecidableEq, Repr

/-- The configuration a lane's chain has in force (R208). -/
structure Chain where
  input : Nat
  ftw : Nat
  k : Nat                 -- CIC decimation K
  h : Nat                 -- half-band stages H
  f2 : Bool               -- FIR decimation F is 2
  ratio : Nat             -- RATIO, 32 fraction bits
  phaseClr : Bool
  extra : Nat
  hold : Bool             -- X_TRIM.HOLD (R224)
deriving DecidableEq, Repr

/-- A complex sample inside a lane, with what it carries: it is marked (R228), a stage clipped in producing it (R230), an event
of R229 begins with it. -/
structure Smp where
  i : Int
  q : Int
  mark : Bool
  sat : Bool
  event : Bool
deriving DecidableEq, Repr

/-- A half-band stage: its last inputs, newest first, and whether the next input completes a pair (R218). -/
structure HbSt where
  line : List Smp
  odd : Bool
  event : Bool            -- an input since the last output began an event
deriving DecidableEq, Repr

/-- The data path of a lane (R208 to R230). A line that has not filled up stands for one whose rest is zero. -/
structure DspSt where
  phase : Nat             -- the NCO accumulator, 48 bits (R213)
  intI : List Nat         -- the CIC integrators, in phase and in quadrature, modulo 2^42 (R216)
  intQ : List Nat
  count : Nat             -- ADC samples since the last CIC output
  group : Smp             -- what those samples carry
  combI : List Nat        -- the delay lines of the combs
  combQ : List Nat
  groups : List Bool      -- marks of the last CIC outputs, as long as the combs reach
  hb : List HbSt          -- the half-band stages, first to last
  line : List Smp         -- the FIR delay line, 128 inputs, newest first (R219)
  odd : Bool              -- the next FIR input gives an output under F = 2
  event : Bool            -- a FIR input since the last output began an event
  swapLeft : Nat          -- FIR outputs that are still to be marked for a bank swap
  hist : List Smp         -- the resampler history, 528 inputs, newest first (R225)
  gap : Nat               -- position of the next output behind the newest input, 32 fraction bits (R222)
  jumpLeft : Nat          -- outputs that are still to be marked for a delay jump
  jumped : Bool           -- the next output is the first after a jump
  extraLeft : Nat         -- outputs that EXTRA adds to a run
  due : Bool              -- an event begins with the next ADC sample
  comp : Int              -- gain compensation in force, in thousandths of a dB (R188)
  satSeen : Bool          -- a saturated sample has left in this window of 1 ms (R230)
  word : Nat              -- the last output word (R209)
  fresh : Bool            -- it left in the last XO cycle
deriving DecidableEq, Repr

/-- One lane beside its LANE page. -/
structure LaneSt where
  chain : Chain
  run : Bool              -- the chain is configured to produce output
  preset : Nat            -- preset in force at Basic level
  engine : Nat            -- engine fed in force: 0 none, 1 + e OFDM, 17 + e analogue
  freq : Nat              -- carrier in force at Basic level, in Hz
  rate : Nat              -- rate code of the input for which the chain was put into force
  stopped : Bool          -- its cluster stopped it: it starts again with the cluster
  due : Bool              -- a Basic update waits for a common boundary (R211), or is held while the rate is Off
  swapDue : Bool          -- a Basic bank swap waits for the boundary (R220)
  bank0 : BankSt
  bank1 : BankSt
  joins : Bool            -- the update that waits adds it to an engine whose other branches stay (R309)
  delayDue : Bool         -- a jump-mode delay target waits for the boundary (R225)
  runMarked : Bool        -- an UNSETTLED run is in progress (R228)
  runSettles : Bool       -- SETTLED is raised at its end (R235)
  dsp : DspSt
deriving DecidableEq, Repr

/-! ### Two-wire port (R158 to R185) -/

/-- A controller transfer (R170 to R174). -/
inductive CtlPhase where
  | idle | waiting | active
deriving DecidableEq, Repr

/-- Bus recovery (R175). -/
inductive RecovPhase where
  | idle
  /-- Watching the lines for 10 microseconds. -/
  | watch
  /-- An attempt runs; `left` retries remain after it. -/
  | attempt (left : Nat)
  /-- Waiting 10 ms for the next attempt. -/
  | wait (left : Nat)
deriving DecidableEq, Repr

/-- What the port puts on the two lines, or takes from them, as controller or in an In-Band Request (R170, R174, R180). -/
inductive WireItem where
  | start
  | restart
  | stop
  /-- A byte the port sends. -/
  | put (b : Nat)
  /-- A byte the port reads, and whether it acknowledges it. -/
  | take (b : Nat) (ack : Bool)
deriving DecidableEq, Repr

/-- The two-wire port beside the TWI page. -/
structure TwiSt where
  ibr : List Nat          -- In-Band Request queue: cause indices, first in first out (R179)
  ibrHold : Bool          -- a RETRY interval runs before the next request (R180)
  alertOwed : Bool        -- the alert owed of R181
  ctl : CtlPhase
  ctlWr : Nat             -- WR_LEN and RD_LEN of the transfer asked for
  ctlRd : Nat
  ctlAddr : Nat           -- ADDR of the transfer asked for
  ctlTx : List Nat        -- its write bytes, taken from CTL_TXBUF
  wire : List WireItem    -- what the port put on the bus in its last try as controller, or in its last In-Band Request
  started : Bool          -- a START was seen and no STOP since (R185); a transfer of this controller counts beside it
  ahead : Option Nat      -- the word fetched when the pointer was loaded (R165)
  sent : List Nat         -- bytes the port sent in the last read as target, PEC bytes included
  recov : RecovPhase
deriving DecidableEq, Repr

/-! ### Placement (R237 to R266) -/

/-- One branch of a chain: a lane on an input. `fresh`: given in the pass at work. -/
structure Branch where
  lane : Nat
  input : Nat
  fresh : Bool
deriving DecidableEq, Repr

/-- One leg of a chain: a carrier, its engine and its branches (R335). -/
structure Leg where
  freq : Nat
  eng : Nat
  br : List Branch
deriving DecidableEq, Repr

/-- Granules of 4 KiB within one cluster (R248): bit g of `mask` is granule g of its 768. -/
structure Region where
  clus : Nat
  mask : Nat
deriving DecidableEq, Repr

/-- How a chain uses its cluster: it holds its engine (ROLE 0, 1), borrows one (ROLE 2 to 4), or serves another
device's Hamper (R529). -/
inductive ChainUse where
  | held | borrow | remote
deriving DecidableEq, Repr

/-- A chain (R243): its lanes, engines, working banks and deinterleaver region. -/
structure PChain where
  id : Nat
  use : ChainUse
  bearer : Nat
  clus : Nat
  main : Leg
  pair : Option Leg       -- the secondary leg of Ensemble Combining (R335)
  work : Nat              -- granules of its working banks in `clus` (R239)
  pairWork : Nat          -- granules of the further banks a combining pair works in (R239)
  pairLost : Bool         -- the pair was lost in this pass: a later one forms it again (R254)
  deint : Option Region   -- the T2-Lite deinterleaver of R239
deriving DecidableEq, Repr

/-- The request section of a Hamper as PLACE took it up (R238, R245). -/
structure Req where
  en : Bool
  role : Nat
  combine : Bool
  bearer : Nat
  prio : Nat
  link : Nat
  div : Nat
  divMin : Nat
  freq : Nat
  freq2 : Nat
  id0 : Nat
  id1 : Nat
  minQual : Nat
  mask : Nat
  qKib : Nat
  aKib : Nat
  rate : Nat              -- the word at 0x020
  dest : Nat              -- the word at 0x024
  stop : Nat
  step : Nat
  pin0 : Nat
  pin1 : Nat
deriving DecidableEq, Repr

/-- One Hamper (0 to 127) or one export of this device (128 + k) in a plan. -/
structure HamSt where
  req : Req
  code : Nat              -- rejection code of R242, 0 none
  bearer : Nat            -- bearer and frequency in force (R252)
  freq : Nat
  follow : Option (Nat × Nat) -- a follow request not yet served: bearer and frequency
  followBad : Nat         -- reason a follow of this pass failed (R360), 0 none
  chain : Option Nat
  alt : Option Nat        -- the chain being faded out (R252)
  ldpc : Option Nat
  adec : Option Nat
  adecAlt : Option Nat    -- the audio decode engine of the chain being faded out
  region : Option Region  -- decoder input, queue and assembly regions
  qIn : Nat               -- queue and assembly quotas in force, KiB
  aIn : Nat
  blend : Option Region   -- R361
  lost : Bool             -- a region was lost with its banks in this pass (R254)
  chainLost : Bool        -- the deinterleaver region of its chain was lost so, shown with this Hamper (R243, R254)
  state : Nat             -- STATE and REASON of R261
  reason : Nat
deriving DecidableEq, Repr

/-- Every placement, published or being planned. -/
structure Plan where
  chains : List PChain
  hams : List (Nat × HamSt)
  rates : List Nat        -- rate code per input
  nextId : Nat
deriving DecidableEq, Repr

/-- The placement engine beside the PLACE page and the Hamper table. -/
structure PlaceSt where
  due : Bool              -- a pass is triggered (R244)
  loss : Bool             -- the trigger is the loss of a resource (R249)
  running : Bool          -- a pass runs
  redo : Bool             -- a resource was lost while it runs (R245)
  runLoss : Bool          -- the running pass was triggered by a loss
  hold : Bool             -- a fence or unfence is among the triggers, and among those of the running pass (R26)
  runHold : Bool
  fresh : Bool            -- the pass serves as if none held resources (R256)
  lostLanes : List Nat    -- lanes, engines (1 + e OFDM, 17 + e analogue) and clusters lost since the last pass
  lostEngs : List Nat
  lostClus : List Nat
  shed : Option Nat       -- the chain the pass moves out of a hot cluster (R255)
  taken : List Nat        -- Hampers whose commit the running pass took up (R245)
  live : Plan             -- the published placement
  snap : Plan             -- the placement and the requests the running pass works on
  plan : Plan             -- its decisions, on the resources available at its start (R245)
deriving DecidableEq, Repr

/-- A request section at reset. -/
def Req.init : Req :=
  { en := false, role := 0, combine := false, bearer := 0, prio := 0, link := 0, div := 0, divMin := 0, freq := 0,
    freq2 := 0, id0 := 0, id1 := 0, minQual := 0, mask := 0, qKib := 0, aKib := 0, rate := 0, dest := 0, stop := 0,
    step := 0, pin0 := 0, pin1 := 0 }

/-- A Hamper that is Off and holds nothing. -/
def HamSt.init : HamSt :=
  { req := Req.init, code := 0, bearer := 0, freq := 0, follow := none, followBad := 0, chain := none, alt := none,
    ldpc := none, adec := none, adecAlt := none, region := none, qIn := 0, aIn := 0, blend := none, lost := false,
    chainLost := false, state := 0, reason := 0 }

/-- Nothing placed. -/
def Plan.init : Plan := { chains := [], hams := [], rates := [0, 0, 0, 0], nextId := 0 }

/-- The placement engine as reset leaves it. -/
def PlaceSt.init : PlaceSt :=
  { due := false, loss := false, running := false, redo := false, runLoss := false, hold := false, runHold := false, fresh := false, lostLanes := [],
    lostEngs := [], lostClus := [], shed := none, taken := [], live := Plan.init, snap := Plan.init, plan := Plan.init }

/-! ### Time base (R431 to R454) -/

/-- The time base beside the TIME page. Times are in units of 1 / (768 x 10^9) ns: one XO cycle is 15625 x (10^9 + ppb)
of them. -/
structure TimeSt where
  now : Nat               -- TAI since 1970
  moved : Int             -- sum of all loads and steps (R438, R445), in the units of `now`
  unc : Nat               -- part of UNCERT below 1 microsecond, in units of 1 / (768 x 10^6) ns
  slew : Int              -- phase error a slew still removes (R444)
  prev : Option Nat       -- the last valid edge or marker
  prevE : Int             -- its phase error, ns
  run : Nat               -- consecutive valid edges in agreement (R435)
  qual : Bool             -- the rank-1 source is qualified
  casc : Bool             -- it is the cascade master (source 2)
  uncM : Nat              -- UNCERT of the master's last marker (R527)
  agree : Nat             -- agreeing edges while STEP_PEND is 1 (R444)
  armed : Bool            -- the step is armed
  base : Nat              -- source of the last load: 0, 3, 4, 5 or 6
  set2 : Option (Nat × Nat) -- a MODE 2 load: seconds and uncertainty in ms (R438)
  latch : List (Nat × Nat)  -- seconds latched per initiator level (R433)
  hold : Option Nat       -- instant of a backward step: the entry in force is held until then (R446)
  cycle : Int             -- cycle index of the active bank at the last window start
deriving DecidableEq, Repr

/-! ### Output queues (R455 to R477) -/

/-- A packet of a queue (R457). -/
structure Packet where
  cls : Nat
  gap : Bool
  pad : Nat
  seq : Nat
  time : Nat
  payload : List Nat
  crc : Nat
  pub : Bool              -- published to the readout window
  sent : Bool             -- its Stream Port send has ended or none is due
  drop : Bool             -- TRIM: removed when its send ends (R463)
  bad : Bool              -- its stored words no longer match its CRC (R459)
deriving DecidableEq, Repr

/-- An item handed to the scheduler and not yet judged (R460); `ok` is its own check (R459). -/
structure Item where
  hamper : Nat
  cls : Nat
  pad : Nat
  payload : List Nat
  ok : Bool
deriving DecidableEq, Repr

/-- One queue. -/
structure QueueSt where
  live : Bool             -- the queue exists (R455)
  pkts : List Packet      -- oldest first
  seq : Nat
  credit : Nat            -- bits (R461)
  gapDue : Bool           -- the next admitted packet carries GAP (R473)
  polArmed : Bool         -- a policed packet raises OUTPUT: one was admitted since the last (R475)
  refArmed : Bool
  latWarned : Bool        -- the latency warning was raised and not cleared (R467)
deriving DecidableEq, Repr

/-- The scheduler and the Stream Port beside their pages. -/
structure SchedSt where
  items : List Item       -- items that wait for their admission, oldest first
  queues : List (Nat × QueueSt)
  trim : Option (Nat × Nat) -- a TRIM running: queue, packets deleted so far
  turn : List (Nat × Nat) -- per priority, 1 + the queue served last (R465)
  cfg : Nat               -- STRM.CFG in force (R472)
  cfgDue : Bool
  nib : Nat               -- nibbles of the packet being sent whose time is over (R469)
  frac : Nat              -- part of a STRM_CLK cycle since, in sixths of a STOR cycle of the root
  wait : Bool             -- VALID is held low at a word boundary (R470)
deriving DecidableEq, Repr

/-! ### Engines (R267 to R315) -/

/-- The last valid block found at one of the 26 bit positions of an RDS search (R284). -/
structure RdsSeek where
  bit : Nat               -- number of the bit at which it began
  slot : Nat
  info : Nat
  cPrime : Bool
  start : Nat             -- time of its first bit, in microseconds
deriving DecidableEq, Repr

/-- One RDS stream of an analogue engine (R284 to R288). Slots are 0 for block A to 3 for block D. -/
structure RdsStream where
  sync : Bool
  seek : List RdsSeek     -- searching: one valid block at most for each bit position
  bit : Nat               -- in sync: number of the bit at which the next block begins, and its slot
  pos : Nat
  bads : List Bool        -- uncorrectable among the last 50 blocks, latest first
  grp : List (Nat × Nat)  -- the group at work: error code and information word of each slot
  cPrime : Bool
  start : Nat             -- time of the first bit of its block A
deriving DecidableEq, Repr

/-- What an analogue engine does to its sound (R271, R277): silence, or the share of full stereo separation and the attenuation in
dB, as fractions. -/
structure AnaAudio where
  on : Bool
  sepNum : Nat
  sepDen : Nat
  attNum : Nat
  attDen : Nat
deriving DecidableEq, Repr

/-- One analogue engine beside its ANA page. -/
structure AnaSt where
  det : Nat               -- consecutive counted windows at or above DET_SNR in Search
  lock : Nat              -- consecutive counted windows at or above LOCK_QUAL in Detected
  low : Nat               -- consecutive counted windows below DET_SNR
  timedOut : Bool         -- TIMEOUT raised since entry to Search
  quals : List (Option Nat) -- QUAL of the last 50 windows, latest first; none for a window that did not count
  pilots : Nat            -- consecutive pilot measurements above 4 %
  lastPi : Option Nat     -- the PI value last received
  pi : Option Nat         -- the confirmed PI
  capture : Bool          -- a changed PI was confirmed in the window at work (R286, R289)
  rds : List (Nat × RdsStream)
  fm : Word               -- FM_CFG, AM_CFG and RDS_CFG as the window at work has them (R289)
  am : Word
  rdsCfg : Word
  bwDue : Option Nat      -- the bandwidth code that waits for the bank swap (R281)
  nbSlot : Nat            -- which window of the 10 ms of R279 is at work, and the impulses of branch 0 and 1 in it so far
  nb0 : Nat
  nb1 : Nat
  buffer : Nat            -- length of the bridge buffer in its samples (R278)
  fills : List (Nat × Bool) -- marked runs that ended in the last window: length, and bridged (true) or ramped to zero (R278)
  audio : AnaAudio        -- the sound at the start of the window at work, and at its end (R277)
  audioTo : AnaAudio
deriving DecidableEq, Repr

/-- One OFDM engine beside its OFDM page. -/
structure OfdmSt where
  miss : Nat              -- consecutive counted frames without frame sync
  timedOut : Bool
  resid : Bool            -- the frequency residual is inside the tracking limit
  fibs : Nat              -- FIBs of the frame at work that passed
  fac : Nat               -- consecutive DRM frames whose FAC passed
  qam : Nat               -- densest constellation: 0 DQPSK, 1 4-QAM, 2 16-QAM, 3 64-QAM, 4 256-QAM
  span : Nat              -- DRM interleaving depth in frames, as the last FAC that passed signals it
  quals : List Nat        -- QUAL of the symbols of the last 100 ms, latest first
  entered : Nat           -- branches that have entered the sums (R309)
  est : List (Nat × List Cx) -- taps of each branch by its lane (R296, R298, R305)
  erased : Bool           -- the last symbol was erased: its cells went on with CSI 0 (R296)
  freq : Int              -- frequency loop, in 2^-8 of 1/1024 subcarrier spacing (R301)
  pos : Int               -- FFT window relative to the frame timing of its training, in 2^-8 lane output samples (R301)
  trimmed : Bool          -- a trim was requested in the present symbol (R301)
  start : Option Int      -- peak from which the Search after LOST starts, in lane output samples (R312)
  cells : List Cell       -- combined cells of the last symbol (R306)
  prev : List (Nat × List Cx) -- received cells of the last symbol by lane, of the branches in the sums (R307)
  phase : List Nat        -- decided phases of the last DAB symbol, in eighths of a turn (R307)
  win : List (List (Nat × Bool × BranchCells)) -- DRM and T2-Lite: symbols of the interpolation in time, latest first (R305)
  soft : List Int         -- soft values of the last symbol, as they go to the FEC unit (R307, R317)
deriving DecidableEq, Repr

/-! ### Channel decoding (R316 to R347) -/

/-- An FEC block in an LDPC/BCH unit: `who` is the Hamper, or 128 + the engine of an L1 block. -/
structure LBlock where
  who : Nat
  eng : Nat
  plp : Nat
  common : Bool           -- a block of a common PLP
  waited : Bool           -- POOL_WAIT raised
  limit : Nat             -- iteration limit and EARLY_STOP it started with (R344)
  stop : Bool
  chain : Nat             -- the chain it came from, and the Hampers that took blocks from it when it started (R27)
  users : List Nat
deriving DecidableEq, Repr

/-- One LDPC/BCH unit. -/
structure LdpcSt where
  fifo : List LBlock      -- waiting blocks, oldest first
  cur : Option LBlock     -- the block being decoded
  turn : List (Nat × Nat) -- per priority, 1 + the Hamper served last
deriving DecidableEq, Repr

/-- The settings under which a DAB+ superframe is decoded (R344): ITER_MAX, ERASE_THR and PRIOR as it began. -/
structure VrsSet where
  max : Nat
  thr : Nat
  prior : Nat
deriving DecidableEq, Repr

/-- A Hamper resolved on an OFDM engine (R319, R326, R351): key 128 x engine + Hamper, the service ID and, in DAB, the EId. -/
structure ResSt where
  key : Nat
  id0 : Nat
  eid : Nat
deriving DecidableEq, Repr

/-- A hard link of FIG 0/6 that an engine has read (R351). -/
structure LinkSt where
  eng : Nat
  sid : Nat
  bearer : Nat
  ident : Nat
deriving DecidableEq, Repr

/-- The decoders beside the FEC page. Keys: OFDM engine, or 64 x engine + subchannel. -/
structure FecSt where
  deint : List (Nat × Nat)  -- logical frames that left a subchannel's deinterleaver since its restart, up to 16
  fire : List (Nat × Nat)   -- superframe sync of a subchannel: 1 + consecutive fire code failures, 0 out of sync
  drm : List (Nat × Nat)    -- DRM frames since the restart of an engine's time deinterleaver
  l1Due : List Nat          -- engines with a change of L1-post content pending
  phase : List (Nat × Nat)  -- per DAB+ subchannel: CIF count modulo 5 of its superframes (R322)
  vrs : List (Nat × VrsSet) -- per DAB+ subchannel: settings of the superframe at work; ITER_MAX 0 before the first (R344)
  l1 : List (Nat × List (Nat × Nat)) -- last L1-post that passed, by engine: PLPs with the common PLP of their group (R327, R328)
  l1Drop : List Nat         -- engines whose present T2 frame is discarded (R327)
  res : List ResSt          -- Hampers resolved
  tries : List (Nat × Nat)  -- per key of ResSt: frames in Locked without a resolution, up to 11 (R319)
  links : List LinkSt
  ber : List (Nat × Nat × Nat) -- per engine: input bits re-encoded in the present second, and those that differ (R342)
  cif : List (Nat × List Int) -- per unit: the summed soft values of the last CIF that was combined (R335)
  combRun : List (Nat × Nat) -- per unit: 0 while R336 has failed in the frame at work, else 1 + whole frames in which it held
  ldpc : List (Nat × LdpcSt)
deriving DecidableEq, Repr

/-! ### Service following and audio decoding (R348 to R379) -/

/-- A candidate of an AF-watch Hamper (R350). -/
structure Cand where
  bearer : Nat
  freq : Nat
  source : Nat
  qual : Option Nat       -- QUAL of its last valid measurement
  bad : Bool              -- held bad (R352)
  run : Nat               -- consecutive valid measurements that passed the test of R358
  since : Nat             -- `State.elapsed` at the first of them
deriving DecidableEq, Repr

/-- A measurement in progress, or waiting for an engine (R353, R354). -/
structure Meas where
  bearer : Nat
  freq : Nat
  source : Nat
  eng : Option Nat        -- key of the borrowed engine; none while it waits for one
  verify : Bool
deriving DecidableEq, Repr

/-- A measuring Hamper: AF watch, Scan or Beacon. -/
structure WatchSt where
  cands : List Cand
  next : Nat              -- list position of the next round-robin visit
  extra : Bool            -- the next visit goes to a candidate that meets R358 (R353)
  meas : Option Meas
  scan : Nat              -- Scan: the frequency of the next step
  cycle : Nat             -- Scan: cycles completed
deriving DecidableEq, Repr

/-- A switch of a followed Hamper (R358 to R366). `second`: a second chain was placed. -/
structure Switch where
  watcher : Nat
  bearer : Nat
  freq : Nat
  prevFreq : Nat          -- frequency to go back to after a retune in place
  asked : Bool            -- the follow request has gone to PLACE
  published : Bool
  second : Bool
  tries : Nat
  lastOfs : Option Int
  lowSince : Option Nat   -- `State.elapsed` at which Qc fell below FAIL_QUAL (R366)
  blend : BitVec 32       -- BLEND_CFG and X_FOLLOW as the blend began (R366)
  xFollow : BitVec 32
  delay : Nat             -- delay of the new stream, once the offset is taken (R363)
  oldGain : Nat           -- GAIN of the old stream at that instant
deriving DecidableEq, Repr

/-- A Foreground Hamper as following sees it, beside PLACE.FOLLOW[n]. -/
structure FolSt where
  sw : Option Switch
  holdoff : Bool          -- within HOLDOFF of a switch or a blend end
  relax : Option Nat      -- `State.elapsed` at BLEND_DONE, from which GAIN relaxes (R363)
deriving DecidableEq, Repr

/-- Audio decoding of one stream: the sound of one chain for one Hamper. -/
structure AdecHam where
  bad : Nat               -- consecutive bad frames: the last good spectrum goes on 6 dB lower for each (R370)
  known : Bool            -- a frame was decoded since binding
  muted : Bool
  fade : Bool             -- the last frame fades in over its own length (R371, R372)
  drc : Bool              -- its dynamic range control data is applied (R367)
  format : Nat
  channels : Nat
  srIn : Nat
  kbps : Nat
deriving DecidableEq, Repr

/-- A frame ready at an audio decode engine: for which Hamper, from which chain, UNCORR of its block, and the outcome of the check
that the decoder made of it (R325). -/
structure AdecIn where
  eng : Nat
  ham : Nat
  chain : Nat
  uncorr : Bool
  check : Option Bool
deriving DecidableEq, Repr

/-- The audio decode engines beside the ADEC page. -/
structure AdecSt where
  ready : List AdecIn     -- oldest first
  turn : List (Nat × Nat) -- key 256 x engine + priority: 1 + the Hamper served last
  hams : List (Nat × AdecHam) -- streams, by 128 x chain + Hamper
deriving DecidableEq, Repr

/-! ### Audio ports (R380 to R399) -/

/-- A change of a slot pair that waits for its zero crossing (R394). -/
structure ZcChange where
  pair : Nat
  left : Bool             -- the left channel still waits
  right : Bool
deriving DecidableEq, Repr

/-- BCLK and FSYNC of a port in master mode: released, held low after a stop, or driven from the divider (R39, R382, R391,
R396). -/
inductive AudBalls where
  | off | low | clocks
deriving DecidableEq, Repr

/-- One audio port beside its AUD page. -/
structure AudSt where
  staged : Bool           -- a mask write waits for the frame sync
  group : Bool            -- armed and started by GO, first frame to come
  correct : Nat           -- consecutive correct frames in target mode
  framed : Bool           -- target mode: an FSYNC began the frame at work, and BCLK has not failed since (R385)
  pos : Nat               -- target mode: XO cycles of the frame at work
  level : Nat             -- target mode: frames in the elastic buffer (R384)
  zc : List ZcChange
  muteL : Nat             -- pairs whose left channel is silent: muted by AUD.MUTE, or their source is (R394)
  muteR : Nat
  feeds : List (Nat × Nat) -- per pair: 1 + the Hamper that feeds it
  fromL : List (Nat × Nat) -- the same as it has reached the left channel (R394)
  fromR : List (Nat × Nat)
  balls : AudBalls
  last : List (Nat × Nat) -- per logical slot: the last sample sent, 24 bits
  frame : List (Option Nat) -- the frame being sent: the word of each slot, none where DOUT is released
deriving DecidableEq, Repr

/-! ### Objects, store and envelopes (R400 to R430) -/

/-- An object in assembly (R400). -/
structure Assy where
  hamper : Nat
  src : Nat
  id : Nat                -- TransportId, file or PDU label
  size : Option Nat       -- announced size
  data : List Nat         -- bytes
deriving DecidableEq, Repr

/-- A complete object. -/
structure Obj where
  hamper : Nat
  src : Nat
  bcheck : Nat
  data : List Nat
  crc : Nat               -- CRC-32C accumulated over its blocks
deriving DecidableEq, Repr

/-- What a committed envelope is remembered by (R411, R415, R422). -/
structure EnvTag where
  slot : Nat
  type : Nat
  seq : Nat
  digest : Nat            -- first 8 bytes of SHA-256
  notAfter : Nat
deriving DecidableEq, Repr

/-- An object of the store (R405). -/
structure Stored where
  num : Nat
  basket : Nat
  obj : Obj
  env : Option EnvTag
  acked : Bool
  corrupt : Bool
  time : Nat              -- seconds of the time base at commit
deriving DecidableEq, Repr

/-- The envelope being verified. -/
inductive Verify where
  /-- No verification runs. -/
  | idle
  /-- The head of the envelope queue is being checked since second `sec` of the time base (R416). -/
  | running (sec : Nat)
  /-- Accepted up to step 8, its commit is under way. -/
  | commit (tag : EnvTag)
deriving DecidableEq, Repr

/-- An OTP burn in progress (R419, R421). -/
inductive Burn where
  | key (slot gen : Nat) (bytes : List Nat)
  | lock (slot : Nat)
  | admin (slot : Nat)
  | revoke (slot : Nat)
deriving DecidableEq, Repr

/-- A store command running (R410). -/
structure StoreCmd where
  op : Nat
  basket : Nat
  arg : Nat
  ofs : Nat
  code : Nat              -- the RESULT code it ends with
deriving DecidableEq, Repr

/-- One operator key slot in OTP (R418): key bytes of each valid generation. -/
structure KeySlot where
  keys : List (Nat × List Nat)
  lock : Bool
  admin : Bool
  revoked : Bool
deriving DecidableEq, Repr

/-- Object assembly, signature engine and object store, with the contents of the eMMC and the OTP, which no reset
changes. -/
structure DataSt where
  assy : List Assy        -- objects in assembly, oldest last segment first
  envs : List Obj         -- queued envelopes, the one under verification first
  verify : Verify
  writes : List (Nat × Obj) -- admitted objects whose commit is under way, with their Basket
  waiting : List Obj      -- complete objects that wait for the mount (R404)
  burn : Option Burn
  otp : List (Nat × KeySlot)
  otpTorn : Bool          -- a generation word was torn by a cold reset (R418)
  otpBad : List (Nat × Nat) -- slot and generation words that read uncorrectable at the last boot or wake (R418)
  store : List Stored     -- committed objects in number order
  nextNum : Nat
  baskets : List (Nat × Word) -- BASKET[b].CFG as the journal holds it
  capMib : Nat            -- space for Baskets, MiB
  hwm : List (Nat × Nat)  -- RPMB: high-water of each slot
  cmd : Option StoreCmd
  fails : Nat             -- consecutive final eMMC failures
  refused : Bool          -- an admission was refused since the last one (R408)
  torn : Bool             -- a write was cut by a cold reset (R405)
  window : List Nat       -- bytes of the read window
deriving DecidableEq, Repr

/-! ### Probe, memory, cascade (R478 to R536) -/

/-- The probe transmitter beside its page. -/
structure PrbSt where
  emitted : Bool          -- a point of the command has been emitted
  cal : Bool              -- the command belongs to a calibration of R532
deriving DecidableEq, Repr

/-- The background test and the error limits beside the MEM page. Regions are numbered 64 x bank + region, words
32768 x bank + word. -/
structure MemSt where
  next : Nat              -- region of the next slot
  test : Option (Nat × Bool) -- region in progress; true: a march, false: a read scrub
  restoring : Bool        -- the march was aborted and the save buffer is copied back
  restart : Bool          -- it starts again at bank 0 region 0 after the restore (R513)
  stop : Bool             -- stopped by a refused access (R506)
  aborts : List (Nat × Nat) -- per region: consecutive aborts (R503)
  failed : Bool           -- a region of this sweep has failed
  poison : List Nat       -- 32-bit halves that hold an uncorrectable error, numbered from bank 0
  recent : List (Nat × List Nat) -- per cluster: the last 16 words recorded, latest first (R507)
  uncorr : List (Nat × Nat) -- per cluster: uncorrectable events counted toward a fence
  corr : List (Nat × Nat) -- per bank: corrected events in the present window
  single : List Nat       -- words with a single-bit error that no write-back or write has removed (R498)
  badHams : List Nat      -- Hampers with a poisoned request word since their last commit (R508)
  badItin : List Nat      -- poisoned Itinerary entries, 64 x bank + entry (R508)
deriving DecidableEq, Repr

/-- An export request as the slave received it (R529). -/
structure ExpReq where
  en : Bool
  hamper : Nat
  prio : Nat
  bearer : Nat
  freq : Nat
  mask : Nat
  branches : Nat
deriving DecidableEq, Repr

/-- The cascade beside its page. -/
structure CascSt where
  staged : List (Nat × ExpReq) -- export requests that wait for the next pass, by entry k
  tries : Nat             -- retries of the tunnel packet in flight
  ack : List Nat          -- slave: read data of the last acknowledgement sent
  ackRefused : Nat        -- slave: refused words it reported
  ofs : List (Nat × Int)  -- slave: CAL_OFS of this device in ns, as it came with the request of entry k (R530)
deriving DecidableEq, Repr

/-! ### QSPI host port (R132 to R157) -/

/-- The host port beside the HOST page. -/
structure HostSt where
  bufs : List (Nat × List Nat) -- write frames not yet performed, oldest first: address and words
  cfg : Nat               -- HOST.CFG in force (R145)
  cfgDue : Bool
  img : List Nat          -- words of the patch image being received (R153)
  resp : List Nat         -- DATA words the port drove in the last frame, the STATUS byte it answers with, none where it
  status : Option Nat     -- drives nothing, and the SCRC over both (R135, R139, R140)
  scrc : Nat
deriving DecidableEq, Repr

/-! ### The state -/

/-- The state of the device. `regs` holds every register word that differs from its reset word, the Hamper table and
the register-like windows included; `mem` holds the bytes of banks 0 to 48 that differ from 0, keyed by byte address
in the SRAM window. The structures hold what spec/ describes beside the registers. -/
structure State where
  regs : List (Nat × Word)
  mem : List Host.Cell
  boot : Boot
  pins : PinSt
  clk : ClkSt
  pwr : PwrSt
  rf : List (Nat × RfSt)
  lanes : List (Nat × LaneSt)
  twi : TwiSt
  intGap : Bool           -- INT_N is released for 1 microsecond under EDGE_GAP (R124)
  place : PlaceSt
  time : TimeSt
  sched : SchedSt
  ana : List (Nat × AnaSt)
  ofdm : List (Nat × OfdmSt)
  fec : FecSt
  watch : List (Nat × WatchSt)
  follow : List (Nat × FolSt)
  adec : AdecSt
  aud : List (Nat × AudSt)
  data : DataSt
  probe : PrbSt
  memT : MemSt
  casc : CascSt
  host : HostSt
  free : Nat              -- how many entries of Config.freeWord are used up; the model's own field, not the spec's
  pending : List Instr    -- the commands that wait, first in, first out
deriving DecidableEq, Repr

/-- The device right after a cold reset by power-on is asserted: every register at the Reset column of spec/ (no
register word listed), every memory byte at 0, nothing booted, no command waiting. -/
def State.reset : State where
  regs := []
  mem := []
  boot := .held
  pins := { porHeld := true, resetN := false, testEn := false, strapPull := true, intnSleep := false, gpioSleep := false,
            filtSleep := [], ppsOld := [] }
  clk := { xo := .stopped, xoLate := false, xoFailDue := false, rootLost := false, relockQual := false, consecFail := 0,
           failRaised := false, dither := false, seed := 0, drive := 4, audDiv := 0 }
  pwr := { trans := none, wakePend := 0, waking := false, lockFailed := false, holdCool := 0, doneDue := false,
           wdogWarned := false, clus := [] }
  rf := []
  lanes := []
  twi := { ibr := [], ibrHold := false, alertOwed := false, ctl := .idle, ctlWr := 0, ctlRd := 0, ctlAddr := 0, ctlTx := [], wire := [], started := false, ahead := none, sent := [], recov := .idle }
  intGap := false
  place := PlaceSt.init
  time := { now := 0, moved := 0, unc := 0, slew := 0, prev := none, prevE := 0, run := 0, qual := false, casc := false, uncM := 0,
            agree := 0, armed := false, base := 0, set2 := none, latch := [], hold := none, cycle := 0 }
  sched := { items := [], queues := [], trim := none, turn := [], cfg := 0x03E80001, cfgDue := false, nib := 0, frac := 0, wait := false }
  ana := []
  ofdm := []
  fec := { deint := [], fire := [], drm := [], l1Due := [], phase := [], vrs := [], l1 := [], l1Drop := [], res := [], tries := [],
           links := [], ber := [], cif := [], combRun := [], ldpc := [] }
  watch := []
  follow := []
  adec := { ready := [], turn := [], hams := [] }
  aud := []
  data := { assy := [], envs := [], verify := .idle, writes := [], waiting := [], burn := none, otp := [], otpTorn := false, otpBad := [],
            store := [],
            nextNum := 1, baskets := [], capMib := 0, hwm := [], cmd := none, fails := 0, refused := false, torn := false, window := [] }
  probe := { emitted := false, cal := false }
  memT := { next := 0, test := none, restoring := false, restart := false, stop := false, aborts := [], failed := false, poison := [], single := [], recent := [],
            uncorr := [], corr := [], badHams := [], badItin := [] }
  casc := { staged := [], tries := 0, ack := [], ackRefused := 0, ofs := [] }
  host := { bufs := [], cfg := 0x02006428, cfgDue := false, img := [], resp := [], status := none, scrc := 0 }
  free := 0
  pending := []

end Sys2Proof.Machine
end

