-- ==== Sys2Proof/Machine/Ops.lean ====
section
/-! DEFINITION. The named operations on registers, pages, causes and memory that every meaning is written over. -/
namespace Sys2Proof.Machine
open Sys2Proof

/-! ### The page map (R98) -/

/-- First byte address, number of instances, and index in the Access Rights Table of a block type (R98). -/
def PageType.map : PageType → Nat × Nat × Nat
  | .sys => (0x000000, 1, 0)
  | .clk => (0x001000, 1, 1)
  | .pwr => (0x002000, 1, 2)
  | .irq => (0x003000, 1, 3)
  | .time => (0x004000, 1, 4)
  | .prot => (0x005000, 1, 5)
  | .mem => (0x006000, 1, 6)
  | .twi => (0x007000, 1, 7)
  | .host => (0x008000, 1, 8)
  | .sched => (0x009000, 1, 9)
  | .strm => (0x00A000, 1, 10)
  | .store => (0x00B000, 1, 11)
  | .aud => (0x00C000, 4, 12)
  | .rfin => (0x010000, 4, 16)
  | .probe => (0x014000, 1, 20)
  | .casc => (0x015000, 1, 21)
  | .clus => (0x016000, 4, 22)
  | .lane => (0x020000, 24, 26)
  | .ofdm => (0x038000, 8, 50)
  | .ana => (0x040000, 16, 58)
  | .fec => (0x050000, 1, 74)
  | .adec => (0x051000, 1, 75)
  | .place => (0x052000, 1, 76)
  | .data => (0x053000, 1, 77)
  | .hamper => (0x060000, 128, 78)
  | .qw => (0x080000, 128, 79)

/-- Block type read in PAGE_ID (R98); the two windows have none. -/
def PageType.code : PageType → Nat
  | .sys => 1 | .clk => 2 | .pwr => 3 | .irq => 4 | .time => 5 | .prot => 6 | .mem => 7 | .twi => 8 | .host => 9
  | .sched => 10 | .strm => 11 | .store => 12 | .aud => 13 | .rfin => 14 | .probe => 15 | .casc => 16 | .clus => 17
  | .lane => 18 | .ofdm => 19 | .ana => 20 | .fec => 21 | .adec => 22 | .place => 23 | .data => 24 | .hamper => 0
  | .qw => 0

/-- The IRQ.SUMMARY group a page feeds (R98), none for IRQ, CLUS and the windows. -/
def PageType.group : PageType → Option Nat
  | .sys => some 0 | .clk => some 1 | .pwr => some 2 | .time => some 3 | .prot => some 4 | .mem => some 5
  | .twi => some 6 | .host => some 7 | .rfin => some 8 | .lane => some 9 | .ofdm => some 10 | .ana => some 10
  | .fec => some 11 | .place => some 12 | .aud => some 13 | .adec => some 13 | .sched => some 14 | .strm => some 14
  | .store => some 14 | .data => some 14 | .probe => some 15 | .casc => some 15
  | .irq => none | .clus => none | .hamper => none | .qw => none

/-- The cause bits a page raises (R126 and the cause table of each chapter): the others read 0. -/
def PageType.causeMask : PageType → Nat
  | .sched => 0x20 | .strm => 0x20 | .store => 0x10 | .data => 0xCF | .aud => 0x3F | .adec => 0xC0 | .probe => 0xE0
  | .casc => 0x1F | .irq => 0 | .clus => 0 | .hamper => 0 | .qw => 0
  | _ => 0xFF

/-- The reset value of CAUSE_EN (R67, R95, R127, R129, R157, R184, R206, R235, R264, R291, R314, R344, R376, R377,
R398, R428, R453, R475, R493, R514, R535: the column Enabled of each cause table). -/
def PageType.causeEn : PageType → Nat
  | .sys => 0x3F | .clk => 0xD1 | .pwr => 0xDA | .time => 0xD2 | .prot => 0x3B | .mem => 0xCE | .twi => 0x26
  | .host => 0x1F | .sched => 0x20 | .strm => 0x20 | .store => 0x10 | .aud => 0x14 | .rfin => 0x71 | .probe => 0x60
  | .casc => 0x1E | .lane => 0xC8 | .ofdm => 0x0C | .ana => 0x0C | .fec => 0xC8 | .adec => 0x40 | .place => 0x2E
  | .data => 0xCF | .irq => 0 | .clus => 0 | .hamper => 0 | .qw => 0

/-- The page has Expert registers (R104). -/
def PageType.expert : PageType → Bool
  | .clk | .time | .twi | .rfin | .probe | .lane | .ofdm | .ana | .fec | .place => true
  | _ => false

/-- Every block type, in address order. -/
def PageType.all : List PageType :=
  [.sys, .clk, .pwr, .irq, .time, .prot, .mem, .twi, .host, .sched, .strm, .store, .aud, .rfin, .probe, .casc, .clus,
   .lane, .ofdm, .ana, .fec, .adec, .place, .data]

/-- Byte address of page `i` of a type. -/
def PageType.base (t : PageType) (i : Nat) : Nat :=
  t.map.1 + (if t = .hamper then 0x200 else 0x1000) * i

/-- The page and the offset in it that a byte address below the SRAM window belongs to (R98); none outside. -/
def pageOf (a : Nat) : Option (PageType × Nat × Nat) :=
  let p := a / 0x1000
  let o := a % 0x1000
  if p < 0x0C then some ((PageType.all.getD p .sys), 0, o)
  else if p < 0x10 then some (.aud, p - 0x0C, o)
  else if p < 0x14 then some (.rfin, p - 0x10, o)
  else if p = 0x14 then some (.probe, 0, o)
  else if p = 0x15 then some (.casc, 0, o)
  else if p < 0x1A ∧ 0x16 ≤ p then some (.clus, p - 0x16, o)
  else if p < 0x38 ∧ 0x20 ≤ p then some (.lane, p - 0x20, o)
  else if p < 0x40 ∧ 0x38 ≤ p then some (.ofdm, p - 0x38, o)
  else if p < 0x50 ∧ 0x40 ≤ p then some (.ana, p - 0x40, o)
  else if p = 0x50 then some (.fec, 0, o)
  else if p = 0x51 then some (.adec, 0, o)
  else if p = 0x52 then some (.place, 0, o)
  else if p = 0x53 then some (.data, 0, o)
  else if p < 0x70 ∧ 0x60 ≤ p then some (.hamper, (a - 0x60000) / 0x200, a % 0x200)
  else if p < 0x100 ∧ 0x80 ≤ p then some (.qw, p - 0x80, o)
  else none

/-! ### Register words -/

/-- The row of the register table that offset `o` of a page belongs to, with the element of the array. -/
def findReg : List RegSpec → Nat → Option (RegSpec × Nat)
  | [], _ => none
  | r :: rs, o =>
    if r.off ≤ o ∧ (o - r.off) % r.stride = 0 ∧ (o - r.off) / r.stride < r.count then some (r, (o - r.off) / r.stride)
    else findReg rs o

/-- The reset word of element `k` of a register row. -/
def RegSpec.resetAt (r : RegSpec) (k : Nat) : Nat := tget r.reset r.resets k

/-- The word a register reads after cold reset (R8, R103); 0 at a reserved address. -/
def resetWord (a : Nat) : Word :=
  match pageOf a with
  | none => 0
  | some (t, i, o) =>
    if t ≠ .hamper ∧ t ≠ .qw ∧ o < 0x40 then
      if o = 0x000 then BitVec.ofNat 32 (t.code * 0x10000 + i * 0x100 + 2)
      else if o = 0x004 then 1
      else if o = 0x014 then BitVec.ofNat 32 t.causeEn
      else 0
    else
      match findReg (regsOf t) o with
      | some (r, k) => BitVec.ofNat 32 (r.resetAt k)
      | none => 0

/-- The stored word of the register at byte address `a`. -/
def State.reg (s : State) (a : Nat) : Word := tget (resetWord a) s.regs a

/-- Store a register word. -/
def State.setReg (s : State) (a : Nat) (v : Word) : State := { s with regs := tput (resetWord a) s.regs a v }

/-- Bits `hi` to `lo` of a word, as a number. -/
def getBits (w : Word) (hi lo : Nat) : Nat := w.toNat / 2 ^ lo % 2 ^ (hi + 1 - lo)

/-- A word with bits `hi` to `lo` replaced by `v` (its low bits). -/
def putBits (w : Word) (hi lo v : Nat) : Word :=
  BitVec.ofNat 32 (w.toNat / 2 ^ (hi + 1) * 2 ^ (hi + 1) + v % 2 ^ (hi + 1 - lo) * 2 ^ lo + w.toNat % 2 ^ lo)

/-- The value of a register field. -/
def State.rd (s : State) (f : Fld) : Nat := getBits (s.reg f.addr) f.hi f.lo

/-- Write a register field from the device's side. -/
def State.wr (s : State) (f : Fld) (v : Nat) : State := s.setReg f.addr (putBits (s.reg f.addr) f.hi f.lo v)

/-- A one-bit field is 1. -/
def State.on (s : State) (f : Fld) : Bool := s.rd f = 1

/-- A counter field that wraps modulo its width. -/
def State.bump (s : State) (f : Fld) : State := s.wr f (s.rd f + 1)

/-- A counter field that saturates at its highest value. -/
def State.sat (s : State) (f : Fld) (n : Nat := 1) : State :=
  s.wr f (min (s.rd f + n) (2 ^ (f.hi + 1 - f.lo) - 1))

/-- Apply a change when a condition holds. -/
def State.when (s : State) (c : Bool) (f : State → State) : State := if c then f s else s

/-- Apply a change for each element of a list, in order. -/
def State.each {α : Type} (s : State) (l : List α) (f : State → α → State) : State := l.foldl f s

/-- Two's complement of an integer in `n` bits, as a field value. -/
def toField (n : Nat) (x : Int) : Nat := (x % (2 ^ n : Int)).toNat

/-- The integer a field of `n` bits holds in two's complement. -/
def ofField (n : Nat) (v : Nat) : Int := if v < 2 ^ (n - 1) then v else (v : Int) - 2 ^ n

/-- Bit `b` of a number. -/
def bit (v b : Nat) : Bool := v / 2 ^ b % 2 = 1

/-- A number with bit `b` set. -/
def setBit (v b : Nat) : Nat := if bit v b then v else v + 2 ^ b

/-- A number with bit `b` clear. -/
def clrBit (v b : Nat) : Nat := if bit v b then v - 2 ^ b else v

/-- 1 for true, 0 for false: a one-bit field. -/
def b2n (b : Bool) : Nat := if b then 1 else 0

/-! ### Page headers (R103) -/

def F.PAGE_EN (t : PageType) (i : Nat) : Fld := ⟨t.base i + 4, 0, 0⟩
def F.PAGE_SOFT_RST (t : PageType) (i : Nat) : Fld := ⟨t.base i + 4, 1, 1⟩
def F.PAGE_LEVEL (t : PageType) (i : Nat) : Fld := ⟨t.base i + 4, 8, 8⟩
def F.PAGE_REJECTS (t : PageType) (i : Nat) : Fld := ⟨t.base i + 8, 31, 16⟩
def F.PAGE_FORCED (t : PageType) (i : Nat) : Fld := ⟨t.base i + 8, 3, 3⟩
def F.PAGE_RST_BUSY (t : PageType) (i : Nat) : Fld := ⟨t.base i + 8, 1, 1⟩
def F.CAUSE (t : PageType) (i : Nat) : Fld := ⟨t.base i + 0x10, 7, 0⟩
def F.CAUSE_EN (t : PageType) (i : Nat) : Fld := ⟨t.base i + 0x14, 7, 0⟩
def F.CAUSE_RAW (t : PageType) (i : Nat) : Fld := ⟨t.base i + 0x1C, 7, 0⟩
def F.LOCK (t : PageType) (i : Nat) : Fld := ⟨t.base i + 0x20, 0, 0⟩
def F.PERM (t : PageType) (i : Nat) : Fld := ⟨t.base i + 0x20, 1, 1⟩

/-- The page is enabled (PAGE_CTRL.EN). -/
def State.en (s : State) (t : PageType) (i : Nat := 0) : Bool := s.on (F.PAGE_EN t i)

/-- The page is at Expert level (R108). -/
def State.isExpert (s : State) (t : PageType) (i : Nat := 0) : Bool := s.on (F.PAGE_LEVEL t i)

/-! ### Causes and their routing (R106, R123, R178 to R181) -/

/-- The pages of group `g`, in address order (R125). -/
def pagesOfGroup (g : Nat) : List (PageType × Nat) :=
  PageType.all.flatMap fun t => if t.group = some g then (List.range t.map.2.1).map (fun i => (t, i)) else []

/-- Pages of group `g` with an enabled cause set: IRQ.SRC[g] (R125). -/
def State.irqSrc (s : State) (g : Nat) : Nat :=
  let l := pagesOfGroup g
  (List.range l.length).foldl (fun acc k =>
    match l[k]? with
    | some (t, i) => if (s.rd (F.CAUSE t i)) &&& (s.rd (F.CAUSE_EN t i)) ≠ 0 then acc + 2 ^ k else acc
    | none => acc) 0

/-- IRQ.SUMMARY.GROUP (R123). -/
def State.irqSummary (s : State) : Nat :=
  (List.range 16).foldl (fun acc g => if s.irqSrc g ≠ 0 then acc + 2 ^ g else acc) 0

/-- IRQ.PENDING.GROUP (R130). -/
def State.irqPending (s : State) : Nat := s.irqSummary &&& s.rd F.IRQ_GROUP_EN_EN

/-- Post a routed cause to the In-Band Request queue of eight entries (R179). -/
def State.postIbr (s : State) (c : Nat) : State :=
  if s.twi.ibr.contains c then s
  else if 8 ≤ s.twi.ibr.length then s.sat F.TWI_IBR_STAT_DROPPED
  else { s with twi := { s.twi with ibr := s.twi.ibr ++ [c] } }

/-- The two-wire routing of cause index `c` as its bit goes from 0 to 1 (R178 to R181). -/
def State.routeTwi (s : State) (c : Nat) : State :=
  if bit (s.rd (F.TWI_ALERT_MASK_CAUSES (c / 32))) (c % 32) then
    if s.on F.TWI_ALERT_CFG_EN then
      let s := s.wr (F.TWI_ALERT_PEND_CAUSES (c / 32)) (setBit (s.rd (F.TWI_ALERT_PEND_CAUSES (c / 32))) (c % 32))
      { s with twi := { s.twi with alertOwed := true } }
    else s
  else if bit (s.rd (F.TWI_IBR_MASK_CAUSES (c / 32))) (c % 32) ∧ s.on F.TWI_IBR_CFG_EN then s.postIbr c
  else s

/-- With EDGE_GAP at 1, a further enabled cause releases INT_N for 1 microsecond (R124). `was` is INT_N as it was
before the cause set. -/
def State.edgeGap (s : State) (t : PageType) (i b : Nat) (was : Bool) : State :=
  if was && s.on F.IRQ_INT_CFG_EDGE_GAP && bit (s.rd (F.CAUSE_EN t i)) b &&
      t.group.any (fun g => bit (s.rd F.IRQ_GROUP_EN_EN) g) then
    { s with intGap := true }
  else s

/-- INT_N asserted by the interrupt tree (R123). -/
def State.intTree (s : State) : Bool := s.on F.IRQ_INT_CFG_EN && s.irqPending != 0

/-- Set cause bit `b` of a page: routing acts on a change from 0 to 1 (R178), EDGE_GAP on an assertion already
standing (R124). -/
def State.setCause (s : State) (t : PageType) (i b : Nat) : State :=
  if bit (s.rd (F.CAUSE t i)) b then s
  else
    let was := s.intTree
    let s := s.wr (F.CAUSE t i) (setBit (s.rd (F.CAUSE t i)) b)
    let s := match t.group with | some g => s.routeTwi (8 * g + b) | none => s
    s.edgeGap t i b was

/-- An event of a page latches its cause (R106): a page whose EN is 0 latches nothing. -/
def State.raise (s : State) (t : PageType) (b : Nat) (i : Nat := 0) : State :=
  if s.en t i then s.setCause t i b else s

/-- A level-type cause: CAUSE_RAW shows the level, and the cause is set when the condition begins (R103, R106;
assumption 4). -/
def State.level (s : State) (t : PageType) (b : Nat) (lvl : Bool) (i : Nat := 0) : State :=
  let raw := s.rd (F.CAUSE_RAW t i)
  let s := s.wr (F.CAUSE_RAW t i) (if lvl then setBit raw b else clrBit raw b)
  if lvl && !bit raw b then s.raise t b i else s

/-! ### Radio state (R72) -/

/-- The radio state, coded as PWR.STATE_STAT.STATE: 0 Sleep, 1 Standby, 2 Synth On, 3 Receive, 4 Transmit. -/
def State.radio (s : State) : Nat := s.rd F.PWR_STATE_STAT_STATE

/-- The root-derived domains run from the root: Synth On or above with no root loss outstanding and the XO running (R51,
R56, R62). -/
def State.rootOk (s : State) : Bool := decide (2 ≤ s.radio) && !s.clk.rootLost && decide (s.clk.xo = .stable)

/-- The register bus is reachable (R72, R93): the XO is stable and the device is neither in Sleep nor in reset. -/
def State.busUp (s : State) : Bool :=
  decide (s.clk.xo = .stable) && decide (s.radio ≠ 0) &&
    (match s.boot with | .held => false | .xoStart => false | _ => true)

/-- What happens in a domain that the XO clocks happens only while it runs (R51, R72). -/
def State.whenUp (s : State) (f : State → State) : State := if s.busUp then f s else s

/-- What happens in a domain of the root happens only while the root clocks it (R56). -/
def State.whenRoot (s : State) (f : State → State) : State := if s.rootOk then f s else s

/-- Boot is complete. -/
def State.ready (s : State) : Bool := s.on F.SYS_BOOT_STAT_READY

/-! ### Blocks held in tables -/

/-- An RF input as reset leaves it. -/
def RfSt.init : RfSt :=
  { cal := .idle, gainDue := none, est4 := none, rms4 := 0, filtDue := none, filtFor := [], measured := none, settling := false, fenceHold := [], blank := false,
    retryDue := false, retrying := false, shortRun := 0, okRun := 0, openRun := 0, inRun := 0 }

/-- An empty FIR bank. -/
def BankSt.init : BankSt := { preset := 0, code := 0, taps := [] }

/-- Tap `k` of a FIR bank (R219, R220). -/
def BankSt.tap (b : BankSt) (k : Nat) : Nat :=
  match b.taps.find? fun x => decide (x.1 = k) with
  | some x => x.2
  | none => if b.preset = 0 then 0 else (Config.coef b.preset b.code k).toNat

/-- The idle chain: preset 0 (R226). -/
def Chain.idle : Chain :=
  { input := 0, ftw := 0, k := 8, h := 0, f2 := false, ratio := 2 ^ 32, phaseClr := true, extra := 0, hold := false }

/-- A zero sample that carries nothing. -/
def Smp.zero : Smp := { i := 0, q := 0, mark := false, sat := false, event := false }

/-- A data path whose delay lines are zero (R229). -/
def DspSt.init : DspSt :=
  { phase := 0, intI := [0, 0, 0, 0, 0], intQ := [0, 0, 0, 0, 0], count := 0, group := Smp.zero, combI := [0, 0, 0, 0, 0],
    combQ := [0, 0, 0, 0, 0], groups := [], hb := [], line := [], odd := false, event := false, swapLeft := 0, hist := [],
    gap := 2 ^ 32, jumpLeft := 0, jumped := false, extraLeft := 0, due := false, comp := 0, satSeen := false,
    word := 0, fresh := false }

/-- A lane as reset leaves it. -/
def LaneSt.init : LaneSt :=
  { chain := Chain.idle, run := false, preset := 0, engine := 0, freq := 0, rate := 0, stopped := false, due := false, swapDue := false, bank0 := BankSt.init,
    bank1 := BankSt.init, joins := false, delayDue := false, runMarked := false, runSettles := false, dsp := DspSt.init }

/-- A cluster as a cold reset leaves it: it tests itself at its next power-up (R84, R90). -/
def ClusSt.init : ClusSt :=
  { unfencing := false, testDue := true, bankReady := false, hot := false, therm := { warn := 0, hot := 0, cool := 0 } }

def State.rfi (s : State) (i : Nat) : RfSt := tget RfSt.init s.rf i
def State.lane (s : State) (n : Nat) : LaneSt := tget LaneSt.init s.lanes n
def State.clu (s : State) (c : Nat) : ClusSt := tget ClusSt.init s.pwr.clus c

/-- Change the state of one RF input. -/
def State.updRf (s : State) (i : Nat) (f : RfSt → RfSt) : State :=
  { s with rf := tput RfSt.init s.rf i (f (s.rfi i)) }

/-- Change the state of one lane. -/
def State.updLane (s : State) (n : Nat) (f : LaneSt → LaneSt) : State :=
  { s with lanes := tput LaneSt.init s.lanes n (f (s.lane n)) }

/-- Change the state of one cluster. -/
def State.updClu (s : State) (c : Nat) (f : ClusSt → ClusSt) : State :=
  { s with pwr := { s.pwr with clus := tput ClusSt.init s.pwr.clus c (f (s.clu c)) } }

/-- A trigger of a placement pass (R244); `loss` for the loss of a resource, which restarts a pass that runs (R245). -/
def State.trigger (s : State) (loss : Bool := false) : State :=
  { s with place := { s.place with due := true, loss := s.place.loss || loss, redo := s.place.redo || loss } }

/-- A lane is lost to PLACE (R234, R254). -/
def State.lostLane (s : State) (n : Nat) : State :=
  { s with place := { s.place with lostLanes := n :: s.place.lostLanes } }.trigger true

/-- An engine is lost to PLACE (R254, R290, R313); key 1 + e for OFDM, 17 + e for analogue. -/
def State.lostEng (s : State) (key : Nat) : State :=
  { s with place := { s.place with lostEngs := key :: s.place.lostEngs } }.trigger true

/-- A cluster is lost to PLACE (R85, R254). -/
def State.lostClus (s : State) (c : Nat) : State :=
  { s with place := { s.place with lostClus := c :: s.place.lostClus, hold := true } }.trigger true

/-- An unfenced cluster returns to PLACE (R86, R244). -/
def State.backClus (s : State) : State := { s with place := { s.place with hold := true } }.trigger

/-! ### Free values -/

/-- Take one 32-bit free value: the next entry of the unconstrained sequence. -/
def State.take (s : State) : Word × State := (Config.freeWord s.free, { s with free := s.free + 1 })

/-! ### Memory (R98, R100) -/

/-- What a byte of the SRAM banks that nothing has written reads as: bank initialisation writes zero to every word
before a bank can be reached (R83). -/
def memDefault (_ : Nat) : Byte := 0

/-- The stored byte at address `a` of the SRAM window. -/
def State.byte (s : State) (a : Nat) : Byte := tget 0 s.mem a

/-- Store a byte of the SRAM window. -/
def State.setByte (s : State) (a : Nat) (v : Byte) : State := { s with mem := tput 0 s.mem a v }

/-- The memory is in canonical form. -/
def Memory.wf (m : List Host.Cell) : Bool := twf memDefault m

/-- The 32-bit word at an aligned address, its byte at the address itself in bits [7:0]. (assumption 3) -/
def State.memWord (s : State) (a : Nat) : Word :=
  BitVec.ofNat 32 ((s.byte a).toNat + (s.byte (a + 1)).toNat * 0x100 + (s.byte (a + 2)).toNat * 0x10000
    + (s.byte (a + 3)).toNat * 0x1000000)

/-- Store a 32-bit word at an aligned address. -/
def State.setMemWord (s : State) (a : Nat) (v : Word) : State :=
  (((s.setByte a (v.setWidth 8)).setByte (a + 1) ((v >>> 8).setWidth 8)).setByte (a + 2)
    ((v >>> 16).setWidth 8)).setByte (a + 3) ((v >>> 24).setWidth 8)

/-- Drop the stored bytes of a range of addresses: they read 0 again. -/
def State.clearMem (s : State) (lo hi : Nat) : State :=
  { s with mem := s.mem.filter fun c => decide (c.1 < lo) || decide (hi ≤ c.1) }

end Sys2Proof.Machine
end

