-- ==== Sys2Proof/Machine/Dsp.lean ====
section
/-! DEFINITION. The data path of a lane, sample by sample: mixer, CIC, half-band stages, scaler, FIR, resampler and phase delay
(R208 to R230). What spec/ leaves open of it is assumption 96. -/
namespace Sys2Proof.Machine
open Sys2Proof

/-! ### Arithmetic -/

/-- `v` divided by 2^`n`, to the nearest whole number, halves upward. (assumption 5) -/
def roundShift (n : Nat) (v : Int) : Int := if n = 0 then v else (v + 2 ^ (n - 1)) / 2 ^ n

/-- `v` clipped to `n` bits of two's complement. -/
def clip (n : Nat) (v : Int) : Int := max (-(2 ^ (n - 1))) (min (2 ^ (n - 1) - 1) v)

/-- A sample clipped to `n` bits per component; a component that is clipped makes it SATURATED (R230). -/
def Smp.clip (x : Smp) (n : Nat) : Smp :=
  let i := Machine.clip n x.i
  let q := Machine.clip n x.q
  { x with i := i, q := q, sat := x.sat || decide (i ≠ x.i) || decide (q ≠ x.q) }

/-- The sum of products of the taps with a line, newest first: its components rounded by 2^`n`. It is marked and SATURATED if a
sample of its span is (R228, R230), and marked while the span reaches into the zeros of a restart (R229). -/
def Smp.ofLine (taps : List Int) (n : Nat) (l : List Smp) : Smp :=
  let span := l.take taps.length
  let dot (f : Smp → Int) : Int := ((taps.zip span).map fun x => x.1 * f x.2).foldl (· + ·) 0
  { i := roundShift n (dot Smp.i), q := roundShift n (dot Smp.q), mark := span.any Smp.mark || decide (l.length < taps.length),
    sat := span.any Smp.sat, event := false }

/-! ### Mixer and CIC (R213 to R217) -/

/-- Cosine and sine of `r` / 2^20 of a turn, in the first quarter turn, in units of 2^-60, from their series: 2 pi is
7244019458077122842 units. -/
def quarterWave (r : Nat) : Int × Int :=
  let one : Int := 2 ^ 60
  let x : Int := 7244019458077122842 * r / 2 ^ 20
  let x2 := x * x / one
  let series (k0 : Nat) : Int :=
    (List.range 13).foldr (fun k (acc : Int) => one - x2 * acc / (one * ((2 * k + k0) * (2 * k + k0 + 1) : Nat))) one
  (series 1, x * series 2 / one)

/-- Cosine and sine of `p` / 2^20 of a turn, in units of 2^-60. -/
def wave (p : Nat) : Int × Int :=
  let (c, s) := quarterWave (p % 2 ^ 18)
  match p / 2 ^ 18 % 4 with
  | 0 => (c, s)
  | 1 => (-s, c)
  | 2 => (-c, -s)
  | _ => (s, -c)

/-- A table entry of 18 bits in Q1.17 for a value in units of 2^-60: the nearest, or one beside it (R215; assumption 96). -/
def tableEntry (v : Int) (round : BitVec 8) : Int :=
  let m : Int := 2 ^ 17 - 1
  max (-m) (min m (roundShift 43 v + ((round.toNat % 3 : Nat) : Int) - 1))

/-- The NCO's cosine and sine for the top 20 bits of the phase (R215). -/
def ncoCos (p : Nat) : Int := tableEntry (wave p).1 (Config.cosRound p)
def ncoSin (p : Nat) : Int := tableEntry (wave p).2 (Config.sinRound p)

/-- ADC sample `x` times e^(-j 2 pi phase / 2^48), to 12 bits per component (R213, R215); the phase moves on by FTW. -/
def DspSt.mix (d : DspSt) (ftw : Nat) (x : Int) : DspSt × Int × Int :=
  let p := d.phase / 2 ^ 28
  ({ d with phase := (d.phase + ftw) % 2 ^ 48 }, Machine.clip 12 (roundShift 17 (x * ncoCos p)),
    Machine.clip 12 (roundShift 17 (-(x * ncoSin p))))

/-- The integrators take an input (R216): their new values, the last of which the combs see. -/
def integrate (l : List Nat) (x : Int) : List Nat :=
  (l.foldl (fun (acc : Nat × List Nat) a => let v := (a + acc.1) % 2 ^ 42; (v, acc.2 ++ [v])) ((x % 2 ^ 42).toNat, [])).2

/-- The combs take an input (R216): their new delay lines, and the output. -/
def comb (l : List Nat) (y : Nat) : List Nat × Nat :=
  l.foldl (fun (acc : List Nat × Nat) z => (acc.1 ++ [acc.2], (acc.2 + 2 ^ 42 - z) % 2 ^ 42)) ([], y)

/-- S of a CIC decimation: 5 x log2 K, rounded up (R217). -/
def cicShift (k : Nat) : Nat := if k < 2 then 0 else Nat.log2 (k ^ 5 - 1) + 1

/-- The CIC takes a mixed sample; every K of them give an output of 24 bits (R216, R217). An input reaches five outputs. -/
def DspSt.cic (d : DspSt) (k : Nat) (x : Smp) : DspSt × Option Smp :=
  let g := { d.group with mark := d.group.mark || x.mark, event := d.group.event || x.event }
  let d := { d with intI := integrate d.intI x.i, intQ := integrate d.intQ x.q, count := d.count + 1, group := g }
  if d.count < k then (d, none)
  else
    let (ci, yi) := comb d.combI (d.intI.getLast?.getD 0)
    let (cq, yq) := comb d.combQ (d.intQ.getLast?.getD 0)
    let out (y : Nat) : Int := roundShift (cicShift k - 12) (ofField 42 y)
    ({ d with combI := ci, combQ := cq, count := 0, group := Smp.zero, groups := (g.mark :: d.groups).take 4 },
      some { i := out yi, q := out yq, mark := g.mark || d.groups.any id || decide (d.groups.length < 4), sat := false, event := g.event })

/-! ### Half-band stages and scaler (R217, R218) -/

def halfBandTaps : List Int := (List.range 31).map fun k => (Config.halfBand k).toInt

/-- A half-band stage takes an input; every second one gives an output (R218). -/
def HbSt.push (b : HbSt) (x : Smp) : HbSt × Option Smp :=
  let line := (x :: b.line).take 31
  let ev := b.event || x.event
  if b.odd then
    ({ line := line, odd := false, event := false }, some { (Smp.ofLine halfBandTaps 23 line).clip 24 with event := ev })
  else ({ line := line, odd := true, event := ev }, none)

/-- The half-band stages in turn: each takes what the one before gives. -/
def pushStages : List HbSt → Option Smp → List HbSt × Option Smp
  | [], x => ([], x)
  | b :: l, none => (b :: l, none)
  | b :: l, some x =>
    let (b, y) := b.push x
    let (l, z) := pushStages l y
    (b :: l, z)

/-- The scaler's factor as mantissa of 18 bits and shift (R217): g = 2^S / K^5 times the compensation of `comp` thousandths of a
dB, the mantissa in units of 2^-17. -/
def scaler (k : Nat) (comp : Int) : Nat × Int :=
  let c := if comp = 0 then 2 ^ 32 else (Config.gainFactor comp).toNat
  let p := (c * 2 ^ cicShift k + k ^ 5 / 2) / k ^ 5
  let sh := max (-10) (min 10 ((Nat.log2 p : Int) - 32))
  let m := (p * 2 ^ (25 - sh).toNat + 2 ^ 39) / 2 ^ 40
  (min m (2 ^ 18 - 1), sh)

/-- The lane scaler (R217): saturating. -/
def Smp.scale (x : Smp) (k : Nat) (comp : Int) : Smp :=
  let (m, sh) := scaler k comp
  let f (v : Int) : Int := roundShift (17 - sh).toNat (v * m)
  ({ x with i := f x.i, q := f x.q }).clip 24

/-! ### FIR, resampler and phase delay (R219 to R225) -/

/-- The FIR takes an input; under F = 2 every second one gives an output, with the bank in use (R219, R220). -/
def DspSt.fir (d : DspSt) (f2 : Bool) (bank : BankSt) (x : Smp) : DspSt × Option Smp :=
  let line := (x :: d.line).take 128
  let ev := d.event || x.event
  if f2 && !d.odd then ({ d with line := line, odd := true, event := ev }, none)
  else
    let y := (Smp.ofLine ((List.range 128).map fun k => ofField 18 (bank.tap k)) 17 line).clip 24
    ({ d with line := line, odd := false, event := false, swapLeft := d.swapLeft - 1 },
      some { y with event := ev, mark := y.mark || decide (0 < d.swapLeft) })

/-- The taps of the prototype at a position with 32 fraction bits: its top 6 select a phase, the next 10 interpolate between it and
the next, in units of 2^-27 (R222). -/
def protoTaps (frac : Nat) : List Int :=
  let ph := frac / 2 ^ 26
  let f : Int := (frac / 2 ^ 16 % 2 ^ 10 : Nat)
  (List.range 16).map fun k => (Config.prototype ph k).toInt * (2 ^ 10 - f) + (Config.prototype (ph + 1) k).toInt * f

/-- The 40-bit output word (R209). -/
def Smp.word (x : Smp) (invalid : Bool) : Nat :=
  toField 18 x.i * 2 ^ 22 + toField 18 x.q * 2 ^ 4 + b2n invalid * 8 + b2n x.sat * 4 + b2n x.event * 2 + b2n x.mark

/-- Where the next output reads the history, relative to its newest input, with 32 fraction bits (R222, R225). -/
def DspSt.readAt (d : DspSt) (c : Chain) (delay : Nat) : Int := (d.gap : Int) - (delay * c.ratio / 64 : Nat)

/-- One output sample: the history read D x rho behind the position (R222, R225), rounded to 18 bits with a sine at ADC full
scale at 2^15 (R209), and its flags (R228 to R231). -/
def DspSt.emit (d : DspSt) (c : Chain) (delay : Nat) (invalid : Bool) : DspSt :=
  let pos := d.readAt c delay
  let back := (-(pos / 2 ^ 32)).toNat
  let l := d.hist.drop back
  let y := (Smp.ofLine (protoTaps (pos % 2 ^ 32).toNat) (17 + 10 + 7) l).clip 18
  let span := y.mark || decide (0 < d.jumpLeft)
  let ev := d.jumped || (l.take 16).any Smp.event
  let hist := if ev then d.hist.take back ++ l.map fun x => { x with event := false } else d.hist
  let y := { y with event := ev, mark := span || decide (0 < d.extraLeft) || invalid }
  { d with hist := hist, jumpLeft := d.jumpLeft - 1, jumped := false, extraLeft := if span then c.extra else d.extraLeft - 1,
           satSeen := d.satSeen || y.sat, word := y.word invalid, fresh := true }

/-- The resampler gives the outputs whose position its newest input reaches (R222): at most two for a ratio of 0.5 or more. -/
def DspSt.outputs (c : Chain) (trim : Int) (delay : Nat) (invalid : Bool) : Nat → DspSt → DspSt
  | 0, d => d
  | n + 1, d =>
    if d.gap < 2 ^ 32 then
      let d := d.emit c delay invalid
      DspSt.outputs c trim delay invalid n { d with gap := (d.gap + c.ratio + trim : Int).toNat }
    else d

/-! ### One ADC sample -/

/-- What the lane does with one ADC sample `x` (R208): `held` a sample of a marked interval of the input, `trim` and `delay` as in
force. -/
def DspSt.sample (c : Chain) (bank : BankSt) (trim : Int) (delay : Nat) (held invalid : Bool) (d : DspSt) (x : Int) : DspSt :=
  let ev := d.due
  let (d, i, q) := { d with due := false }.mix c.ftw x
  let (d, y) := d.cic c.k { i := i, q := q, mark := held || ev, sat := false, event := ev }
  match y with
  | none => d
  | some y =>
    let (hb, z) := pushStages d.hb (some y)
    let d := { d with hb := hb }
    match z with
    | none => d
    | some z =>
      let (d, w) := d.fir c.f2 bank (z.scale c.k d.comp)
      match w with
      | none => d
      | some w =>
        DspSt.outputs c trim delay invalid 3 { d with hist := (w :: d.hist).take 528, gap := d.gap - 2 ^ 32 }

/-! ### Events (R214, R220, R224, R225, R229) -/

/-- A restart zero-fills all delay lines but the integrators (R229). A line that has not filled up again holds those zeros behind
what it holds, and they count as marked. -/
def DspSt.restart (d : DspSt) (h : Nat) : DspSt :=
  { DspSt.init with phase := d.phase, intI := d.intI, intQ := d.intQ, comp := d.comp, satSeen := d.satSeen, word := d.word,
                    due := d.due, hb := List.replicate h { line := [], odd := false, event := false } }

/-- Some sample of a line of length `n` is marked, or the line still reaches into the zeros of a restart. -/
def lineMarked (n : Nat) (l : List Smp) : Bool := (l.take n).any Smp.mark || decide (l.length < n)

/-- A marked sample, or an event, is still on its way through the lane: its run of UNSETTLED samples goes on (R228). -/
def DspSt.unsettled (d : DspSt) (c : Chain) (delay : Nat) : Bool :=
  d.due || d.group.mark || d.groups.any id || decide (d.groups.length < 4) || d.hb.any (fun b => lineMarked 31 b.line) ||
    lineMarked 128 d.line || decide (0 < d.swapLeft) || lineMarked ((-(d.readAt c delay / 2 ^ 32)).toNat + 16) d.hist ||
    decide (0 < d.jumpLeft) || d.jumped || decide (0 < d.extraLeft)

/-- Where an event of R229 enters the data path. -/
inductive Entry where
  /-- At ADC sample k of a boundary. -/
  | input
  /-- At the first FIR output after the boundary: a bank swap. -/
  | fir
  /-- At the first output after the boundary: a delay jump. -/
  | output
  /-- At the first output at new settings: a restart. -/
  | restart
deriving DecidableEq, Repr

/-- An event begins (R220, R225, R229). -/
def DspSt.begin (d : DspSt) (c : Chain) : Entry → DspSt
  | .input => { d with due := true }
  | .fir => { d with event := true, swapLeft := if c.f2 then 64 else 128 }
  | .output => { d with jumped := true, jumpLeft := (16 * 2 ^ 32 + c.ratio - 1) / c.ratio + 2 }
  | .restart => { d with jumped := true }

end Sys2Proof.Machine
end

