-- ==== Sys2Proof/Machine/ProtOps.lean ====
section
/-! DEFINITION. The Access Rights Table and the records of refused accesses (R112 to R119, R129). -/
namespace Sys2Proof.Machine
open Sys2Proof

/-- Entry `k` of the Access Rights Table (R114). -/
def State.art (s : State) (k : Nat) : Nat := s.rd (F.PROT_ART_ENTRIES (k / 4)) / 2 ^ (8 * (k % 4)) % 256

/-- Entry of the SRAM window in the Access Rights Table (R98). -/
def sramArt : Nat := 80

/-- Entry of the Access Rights Table of an address (R98). -/
def artIndex (a : Nat) : Nat :=
  match pageOf a with
  | some (t, i, _) => if t = .hamper ∨ t = .qw then t.map.2.2 else t.map.2.2 + i
  | none => sramArt

/-- Words that the management controller, initiator level 3, never writes (R120): CAUSE, CAUSE_EN and CAUSE_FORCE of every
page, the IRQ page and PROT.ART. -/
def mgmtNever (lvl a : Nat) : Bool :=
  decide (lvl = 3) && (match pageOf a with
    | some (t, _, o) =>
      decide (t = .irq) || (decide (t = .prot) && decide (0x800 ≤ o)) ||
        (decide (t ≠ .hamper) && decide (t ≠ .qw) && decide (0x010 ≤ o) && decide (o < 0x01C))
    | none => false)

/-- The rights of initiator level `lvl` at entry `k` (R114). -/
def State.mayAccess (s : State) (lvl k : Nat) (write : Bool) : Bool := bit (s.art k) (2 * lvl + b2n write)

/-- SYS cause MGMT_FAULT with its detail (R119, R128). -/
def State.mgmtFault (s : State) (code addr : Nat) : State :=
  ((s.wr F.SYS_MGMT_FAULT_CODE code).wr F.SYS_MGMT_FAULT_ADDR addr).raise .sys C.SYS_MGMT_FAULT

/-- PROT cause raised with a non-range refusal of each kind: 0 Denied, 1 Reserved, 2 Misaligned, 3 Locked, 4 Bad key. -/
def kindCause (kind : Nat) : Nat :=
  [C.PROT_DENIED, C.PROT_RESERVED, C.PROT_ALIGN, C.PROT_LOCKED, C.PROT_BAD_KEY].getD kind C.PROT_DENIED

/-- An access is refused by a check other than range checking (R112, R117, R118): the first is captured, each is counted
and raises its cause, and one that finds the capture valid raises CAPT_OVF. A refusal at level 3 ends the management
controller's task (R119). -/
def State.refuse (s : State) (lvl a : Nat) (write : Bool) (kind : Nat) : State :=
  let s := s.sat F.PROT_COUNT_ACCESS
  let s :=
    if s.on F.PROT_ACCESS_CAPT_VALID then s.raise .prot C.PROT_CAPT_OVF
    else s.setReg F.PROT_ACCESS_CAPT_VALID.addr
      (BitVec.ofNat 32 (2 ^ 31 + b2n write * 2 ^ 30 + kind * 2 ^ 27 + lvl * 2 ^ 24 + a % 2 ^ 24))
  let s := s.raise .prot (kindCause kind)
  if lvl = 3 then s.mgmtFault 1 a else s

/-- The first access of a task of the management controller that the table refuses; the accesses are byte addresses, each
read (false) or written (true) (R119). -/
def State.mgmtDenied (s : State) (l : List (Nat × Bool)) : Option (Nat × Bool) :=
  l.find? fun x => !s.mayAccess 3 (artIndex x.1) x.2

/-- A task of the management controller that needs the accesses `l`: it is carried out, or abandoned with the first of them
that is refused (R21, R119). -/
def State.mgmtTask (s : State) (l : List (Nat × Bool)) (task : State → State) : State :=
  match s.mgmtDenied l with
  | some (a, write) => s.refuse 3 a write 0
  | none => task s

/-- A write is rejected under range checking (R110, R112): page count, capture, cause. -/
def State.rangeReject (s : State) (lvl a : Nat) (w : Word) (reason : Nat) : State :=
  let s := s.sat F.PROT_COUNT_RANGE
  let s :=
    if s.on F.PROT_RANGE_CAPT_VALID then s.raise .prot C.PROT_CAPT_OVF
    else (s.setReg F.PROT_RANGE_CAPT_VALID.addr (BitVec.ofNat 32 (2 ^ 31 + reason * 2 ^ 26 + lvl * 2 ^ 24 + a % 2 ^ 24))).setReg
      F.PROT_RANGE_DATA_DATA.addr w
  s.raise .prot C.PROT_RANGE

end Sys2Proof.Machine
end

