-- ==== Sys2Proof/Machine/LaneOps.lean ====
section
/-! DEFINITION. Lanes and RF inputs: the operations other blocks use (R186 to R236). -/
namespace Sys2Proof.Machine
open Sys2Proof

/-! ### Rates and availability -/

/-- Rate code in force for input `i`: 0 Off, 1 Full, 2 Half, 3 Quarter (R58). -/
def State.rate (s : State) (i : Nat) : Nat := getBits (s.reg F.CLK_SAMP_ACTIVE_RATE0.addr) (2 * i + 1) (2 * i)

/-- Staged rate code of input `i`. -/
def State.staged (s : State) (i : Nat) : Nat := getBits (s.reg F.CLK_SAMP_STAGE_RATE0.addr) (2 * i + 1) (2 * i)

/-- Sampling rate in Hz of a rate code other than Off (R24). -/
def rateHz (r : Nat) : Nat := 1966080000 / 2 ^ (r - 1)

/-- The device samples: Receive or Transmit with the root in use (R72). -/
def State.sampling (s : State) : Bool := decide (3 ≤ s.radio) && !s.clk.rootLost

/-- The inputs sample or are being calibrated for it: Receive, Transmit, or Synth On to Receive, with the root in use (R195). -/
def State.calibrates (s : State) : Bool := s.sampling || (decide (s.pwr.trans = some .synthToRx) && !s.clk.rootLost)

/-- The calibration of input `i` has failed and none has passed since (R196). A page reset returns RESULT to 0 and so ends the
failed condition. (assumption 114) -/
def State.calFailed (s : State) (i : Nat) : Bool := decide (2 ≤ s.rd (F.RFIN_CAL_RESULT i))

/-- The input is unavailable to its lanes (R231). -/
def State.inputLost (s : State) (i : Nat) : Bool := s.calFailed i || decide (s.rate i = 0) || !s.en .rfin i

/-- Input `i` stands as at rate Off or in calibration, or is powered down after a failed one: its AGC holds
(R190, R196). -/
def State.inputHeld (s : State) (i : Nat) : Bool :=
  s.calFailed i || decide (s.rate i = 0) || !s.en .rfin i || !s.sampling || decide ((s.rfi i).cal ≠ .idle)

/-- The cluster runs (CLUS.STAT.POWER is 4). -/
def State.clusOn (s : State) (c : Nat) : Bool := decide (s.rd (F.CLUS_STAT_POWER c) = 4)

/-- LANE.STAT.RUNNING: the lane is clocked and producing output (R102, R234, R236). -/
def State.laneRunning (s : State) (n : Nat) : Bool :=
  (s.lane n).run && s.sampling && s.clusOn (n / 6) && s.en .lane n

/-- The lane is at Expert level (R210). -/
def State.laneExpert (s : State) (n : Nat) : Bool := s.isExpert .lane n

/-- The lanes whose chain is connected to input `i` and configured to produce output. -/
def State.lanesOn (s : State) (i : Nat) : List Nat :=
  (s.lanes.filter fun p => decide (p.2.chain.input = i) && p.2.run).map (·.1)

/-- STAT.STATE of the engine with key `k`. -/
def State.engState (s : State) (k : Nat) : Nat := if k < 17 then s.rd (F.OFDM_STAT_STATE (k - 1)) else s.rd (F.ANA_STAT_STATE (k - 17))

/-- The key of the engine a lane feeds; 0 for none. -/
def State.laneEng (s : State) (n : Nat) : Nat :=
  (s.lane n).engine

/-- A lane holds detection: the engine it feeds, held or borrowed, is past Search (R190, R270). -/
def State.laneDetects (s : State) (n : Nat) : Bool := decide (s.laneEng n ≠ 0) && decide (2 ≤ s.engState (s.laneEng n))

/-- Some lane on input `i` holds detection. -/
def State.inputDetects (s : State) (i : Nat) : Bool := (s.lanesOn i).any s.laneDetects

/-! ### UNSETTLED runs (R228, R229) -/

/-- An event of R229 begins or extends the lane's UNSETTLED run, and enters its data path; `settles` for an application, a
restart or the end of INPUT_LOST, whose run raises SETTLED at its end (R235). -/
def State.markLaneAt (s : State) (n : Nat) (settles : Bool) (e : Entry) : State :=
  if s.laneRunning n then
    s.updLane n fun l => { l with runMarked := true, runSettles := l.runSettles || settles, dsp := l.dsp.begin l.chain e }
  else s

/-- A marked interval at the input ends (R229, R231): what follows belongs to its run; `settles` where it ends INPUT_LOST. -/
def State.markEnd (s : State) (n : Nat) (settles : Bool) : State :=
  if s.laneRunning n then s.updLane n fun l => { l with runMarked := true, runSettles := l.runSettles || settles } else s

/-- An event at an ADC sample. -/
def State.markLane (s : State) (n : Nat) (settles : Bool) : State := s.markLaneAt n settles .input

/-- Mark every lane on an input. -/
def State.markInput (s : State) (i : Nat) (settles : Bool) : State := s.each (s.lanesOn i) fun s n => s.markLane n settles

/-- The lane's input carries a marked interval: calibration zeros, filter settling or an unavailable input (R229). -/
def State.laneInterval (s : State) (n : Nat) : Bool :=
  let i := (s.lane n).chain.input
  decide ((s.rfi i).cal ≠ .idle) || (s.rfi i).settling || s.inputLost i

/-- The level of INPUT_LOST for one lane (R231): the marked interval is one event, which begins with it. -/
def State.laneSync (s : State) (n : Nat) : State :=
  let lost := s.laneRunning n && s.inputLost (s.lane n).chain.input
  let was := bit (s.rd (F.CAUSE_RAW .lane n)) C.LANE_INPUT_LOST
  let s := s.level .lane C.LANE_INPUT_LOST lost n
  if lost && !was then s.markLane n false else if was && !lost then s.markEnd n true else s

/-- The level of INPUT_LOST for every configured lane. -/
def State.lanesSync (s : State) : State := s.each (s.lanes.map (·.1)) State.laneSync

/-! ### Derivation (R213, R222, R226, R229) -/

/-- The tuning word of a carrier at sampling rate `fs`, rounding halves upward (R213). -/
def ftwOf (freq fs : Nat) : Nat := (freq * 2 ^ 49 + fs) / (2 * fs) % 2 ^ 48

/-- K, H and RATIO of a preset at a rate code (R226); F is 2 but for preset 0. -/
def presetChain (preset rate : Nat) : Nat × Nat × Nat :=
  if preset = 1 ∨ preset = 4 then
    if rate = 1 then (64, 8, 0x140000000) else if rate = 2 then (40, 8, 0x100000000) else (40, 7, 0x100000000)
  else if preset = 2 then (40, 7 - rate, 0x100000000)
  else if preset = 3 then (60, 4 - rate, 0x100000000)
  else if preset = 5 then (40, 8 - rate, 0x100000000)
  else if preset = 6 then (30, 3 - rate, 0x10624DD2F)
  else if preset = 7 then (27, 3 - rate, 0x0FEDCBA98)
  else (8, 0, 0x100000000)

/-- The chain a Basic lane derives from preset, input and frequency at a rate other than Off (R210, R226). -/
def deriveChain (preset input freq rate : Nat) : Chain :=
  let (k, h, r) := presetChain preset rate
  { input := input, ftw := ftwOf freq (rateHz rate), k := k, h := h, f2 := decide (preset ≠ 0), ratio := r,
    phaseClr := true, extra := 0, hold := false }

/-- SINGLE_N of a chain (R229): the ceiling of (L / F + 16) / rho, plus 2. -/
def Chain.singleN (c : Chain) : Nat :=
  let f := if c.f2 then 2 else 1
  let num := (159 * 2 ^ c.h - 26 + 16 * f * 2 ^ c.h) * 2 ^ 32
  let den := 2 ^ c.h * f * c.ratio
  (num + den - 1) / den + 2

/-- SWAP_N of a chain (R229). -/
def Chain.swapN (c : Chain) : Nat :=
  let f := if c.f2 then 2 else 1
  let num := (128 + 16 * f) * 2 ^ 32
  let den := f * c.ratio
  (num + den - 1) / den + 2

/-- LATENCY of a chain in 1/64 output samples (R225): the values printed for preset 3 at Full, and preset 2 at Full and at
Quarter; otherwise a free value. (assumption 11) -/
def Chain.latency (c : Chain) : Nat :=
  if c.f2 && decide (c.ratio = 2 ^ 32) && decide ((c.k, c.h) = (60, 3)) then 2942
  else if c.f2 && decide (c.ratio = 2 ^ 32) && decide ((c.k, c.h) = (40, 6)) then 3370
  else if c.f2 && decide (c.ratio = 2 ^ 32) && decide ((c.k, c.h) = (40, 4)) then 3114
  else (Config.latency c.k c.h c.f2 c.ratio).toNat

/-- LANE.LATENCY: 0 while the lane is idle. -/
def State.laneLatency (s : State) (n : Nat) : Nat := if (s.lane n).run then (s.lane n).chain.latency else 0

/-- FIR input rate of a chain in Hz at a rate code, rounded up (R208). -/
def Chain.firHz (c : Chain) (rate : Nat) : Nat := (rateHz rate + c.k * 2 ^ c.h - 1) / (c.k * 2 ^ c.h)

/-- The Expert registers of a Basic lane read the derived values (R108, R210). -/
def State.showChain (s : State) (n : Nat) (c : Chain) : State :=
  ((((((((((s.wr (F.LANE_X_XBAR_INPUT n) c.input).wr (F.LANE_X_FTW_LO_FTW_LO n) c.ftw).wr (F.LANE_X_FTW_HI_FTW_HI n)
    (c.ftw / 2 ^ 32)).wr (F.LANE_X_FTW_HI_PHASE_CLR n) (b2n c.phaseClr)).wr (F.LANE_X_CHAIN_FIR_DEC2 n) (b2n c.f2)).wr
    (F.LANE_X_CHAIN_HB n) c.h).wr (F.LANE_X_CHAIN_CIC_DEC n) c.k).wr (F.LANE_X_RATIO_LO_FRAC n) c.ratio).wr
    (F.LANE_X_RATIO_HI_INT n) (c.ratio / 2 ^ 32)).wr (F.LANE_X_SETTLE_EXTRA n) c.extra).wr (F.LANE_X_TRIM_HOLD n) (b2n c.hold)

/-- The chain staged in the Expert registers (R211). -/
def State.stagedChain (s : State) (n : Nat) : Chain :=
  { input := s.rd (F.LANE_X_XBAR_INPUT n)
    ftw := s.rd (F.LANE_X_FTW_LO_FTW_LO n) + s.rd (F.LANE_X_FTW_HI_FTW_HI n) * 2 ^ 32
    k := s.rd (F.LANE_X_CHAIN_CIC_DEC n)
    h := s.rd (F.LANE_X_CHAIN_HB n)
    f2 := s.on (F.LANE_X_CHAIN_FIR_DEC2 n)
    ratio := s.rd (F.LANE_X_RATIO_LO_FRAC n) + s.rd (F.LANE_X_RATIO_HI_INT n) * 2 ^ 32
    phaseClr := s.on (F.LANE_X_FTW_HI_PHASE_CLR n)
    extra := s.rd (F.LANE_X_SETTLE_EXTRA n)
    hold := s.on (F.LANE_X_TRIM_HOLD n) }

/-- Why an APPLY is rejected with reason 2 (R227): true when one of the cases holds. -/
def State.applyBad (s : State) (n : Nat) : Bool :=
  let c := s.stagedChain n
  decide (c.ratio < 0x080000000) || decide (0x200000000 < c.ratio) || decide (c.k < 8) || decide (64 < c.k) ||
    decide (8 < c.h) || decide (s.rate c.input = 0) ||
    decide (20480000 < c.firHz (s.rate c.input))

/-- The engine that the measuring Hamper on lane `n` has borrowed for it (R353); 0 for none. -/
def State.lentKey (s : State) (n : Nat) : Nat :=
  match s.watch.find? fun x => decide (x.1 = s.rd (F.LANE_ASSIGN_HAMPER n)) with
  | some x => if s.on (F.LANE_ASSIGN_PLACED n) then (x.2.meas.bind Meas.eng).getD 0 else 0
  | none => 0

/-- The key of the engine a lane is to feed, held or borrowed, as in LaneSt: 0 none, 1 + e OFDM, 17 + e analogue. -/
def State.engineKey (s : State) (n : Nat) : Nat :=
  if s.on (F.LANE_ASSIGN_ENG_VALID n) then
    if s.on (F.LANE_ASSIGN_ENG_TYPE n) then 17 + s.rd (F.LANE_ASSIGN_ENGINE n) else 1 + s.rd (F.LANE_ASSIGN_ENGINE n)
  else s.lentKey n

/-- The bandwidth code a channel filter starts with (R281): BW_FIX in AM, 0 otherwise. -/
def State.startCode (s : State) (n preset : Nat) : Nat :=
  if preset = 1 ∧ 17 ≤ s.engineKey n then s.rd (F.ANA_AM_CFG_BW_FIX (s.engineKey n - 17)) else 0

/-- Load a bank of a lane from the preset table (R220). -/
def State.loadBank (s : State) (n bank preset code : Nat) : State :=
  let b : BankSt := { preset := preset, code := code, taps := [] }
  s.updLane n fun l => if bank = 0 then { l with bank0 := b } else { l with bank1 := b }

/-- Ask for a Basic bank swap: the standby bank is loaded and waits for the boundary (R220). -/
def State.askSwap (s : State) (n preset code : Nat) : State :=
  (s.loadBank n (1 - s.rd (F.LANE_STAT_ACTIVE_BANK n)) preset code).updLane n fun l => { l with swapDue := true }

/-- SINGLE_N and SWAP_N of the chain in force; an idle lane shows 0 (R226, R229). -/
def State.showSettle (s : State) (n : Nat) : State :=
  let l := s.lane n
  if l.run then (s.wr (F.LANE_SETTLE_SINGLE_N n) l.chain.singleN).wr (F.LANE_SETTLE_SWAP_N n) l.chain.swapN
  else (s.wr (F.LANE_SETTLE_SINGLE_N n) 0).wr (F.LANE_SETTLE_SWAP_N n) 0

/-- Put a chain into force. A restart zero-fills the delay lines and sets TRIM to 0 (R224, R229). A new tuning word or input
clears the phase accumulator where PHASE_CLR asks for it (R214); a lane that starts or takes another input begins without
compensation (assumption 96). -/
def State.putChain (s : State) (n : Nat) (c : Chain) (restart : Bool) : State :=
  let s := s.updLane n fun l =>
    let d := if restart then l.dsp.restart c.h else l.dsp
    let d := if c.phaseClr && (decide (c.ftw ≠ l.chain.ftw) || decide (c.input ≠ l.chain.input)) then { d with phase := 0 } else d
    let d := if l.run && decide (c.input = l.chain.input) then d else { d with comp := 0 }
    { l with chain := c, run := true, rate := s.rate c.input, dsp := d }
  let s := if restart then s.wr (F.LANE_TRIM n) 0 else s
  s.showSettle n

/-- An application changed something: RETUNED and APPLIES (R211), and the UNSETTLED run of R229 where the chain restarts, or the
tuning or the input changed; `none` for neither. -/
def State.appliedLane (s : State) (n : Nat) (event : Option Entry) : State :=
  let s := (s.raise .lane C.LANE_RETUNED n).bump (F.LANE_COUNT_APPLIES n)
  match event with
  | some e => s.markLaneAt n true e
  | none => s

/-- The tuning word or the input of a chain changes. -/
def Chain.retunes (a b : Chain) : Bool := decide (a.ftw ≠ b.ftw) || decide (a.input ≠ b.input)

/-- The event with which chain `a` follows chain `b` (R229). -/
def Chain.eventOf (a b : Chain) (restart : Bool) : Option Entry :=
  if restart then some .restart else if a.retunes b then some .input else none

/-- Presets 1 and 4 share their chain: a change between them swaps banks instead of restarting (R220, R226). -/
def swapPair (a b : Nat) : Bool := (decide (a = 1) && decide (b = 4)) || (decide (a = 4) && decide (b = 1))

/-- The chain that preset 0 derives from the Basic fields (R210, R226): at rate Off the tuning word keeps its last value (R211). -/
def State.idleChain (s : State) (n : Nat) : Chain :=
  let i := s.rd (F.LANE_ASSIGN_INPUT n)
  { Chain.idle with input := i, ftw := if s.rate i = 0 then (s.stagedChain n).ftw else ftwOf (s.rd (F.LANE_FREQ_FREQ_HZ n)) (rateHz (s.rate i)) }

/-- Stop a lane: preset 0, no output (R226, R234). The host's coefficients on an Expert lane stay. -/
def State.idleLane (s : State) (n : Nat) : State :=
  let expert := s.laneExpert n
  let s := s.updLane n fun l =>
    { l with chain := { Chain.idle with input := l.chain.input }, run := false, preset := 0, engine := 0, due := false, stopped := false,
             swapDue := false, delayDue := false, runMarked := false, runSettles := false,
             bank0 := if expert then l.bank0 else BankSt.init, bank1 := if expert then l.bank1 else BankSt.init,
             joins := false, dsp := { l.dsp.restart 0 with due := false, word := 0, fresh := false } }
  let s := s.wr (F.LANE_STAT_SLEWING n) 0
  let s := if expert then s else s.showChain n (s.idleChain n)
  (s.showSettle n).laneSync n

/-- Take a Basic update of a lane into force at a common boundary (R211, R220, R224, R229); `force`: with a restart (R64,
R233). While the input's rate is Off the update stays held, a release to preset 0 like any other. (assumption 6) A new input is at
another rate where its rate differs from the last one other than Off at which the chain ran (R212). (assumption 117) -/
def State.applyBasic (s : State) (n : Nat) (force : Bool) : State :=
  let preset := s.rd (F.LANE_ASSIGN_PRESET n)
  let input := s.rd (F.LANE_ASSIGN_INPUT n)
  let freq := s.rd (F.LANE_FREQ_FREQ_HZ n)
  let l := s.lane n
  if s.rate input = 0 then s
  else if preset = 0 then
    if l.run then ((s.idleLane n).raise .lane C.LANE_RETUNED n).bump (F.LANE_COUNT_APPLIES n)
    else s.updLane n fun l => { l with due := false, joins := false, dsp := { l.dsp with word := 0 } }
  else
    let c := deriveChain preset input freq (s.rate input)
    let key := s.engineKey n
    let s := s.updLane n fun l => { l with due := false, stopped := false, preset := preset, engine := key, freq := freq }
    let s := if key ≠ l.engine then s.wr (F.LANE_TRIM n) 0 else s
    let s := s.showChain n c
    let restart := force || !l.run || decide (c.k ≠ l.chain.k) || decide (c.h ≠ l.chain.h) || decide (c.f2 ≠ l.chain.f2) ||
      decide (c.ratio ≠ l.chain.ratio) || decide (s.rate input ≠ l.rate) || (decide (preset ≠ l.preset) && !swapPair preset l.preset)
    if restart then
      ((s.loadBank n (s.rd (F.LANE_STAT_ACTIVE_BANK n)) preset (s.startCode n preset)).putChain n c true).appliedLane n (some .restart)
    else
      let s := s.when (decide (preset ≠ l.preset)) fun s => s.askSwap n preset (s.startCode n preset)
      if c = l.chain ∧ preset = l.preset ∧ key = l.engine then s else (s.putChain n c false).appliedLane n (c.eventOf l.chain false)

/-- Take the staged Expert fields into force at a common boundary (R211, R229). -/
def State.applyExpert (s : State) (n : Nat) : State :=
  let s := s.wr (F.LANE_X_APPLY_APPLY n) 0
  let l := s.lane n
  let c := s.stagedChain n
  if l.run ∧ c = l.chain then s
  else
    let restart := !l.run || decide (c.k ≠ l.chain.k) || decide (c.h ≠ l.chain.h) || decide (c.f2 ≠ l.chain.f2) ||
      decide (c.ratio ≠ l.chain.ratio) || decide (s.rate c.input ≠ l.rate)
    (s.putChain n c restart).appliedLane n (c.eventOf l.chain restart)

/-- An update of PLACE reaches an Expert lane (R210, R211, R224): only the engine it feeds changes; a chain that its cluster had
stopped starts again with the values in force. -/
def State.followExpert (s : State) (n : Nat) : State :=
  let l := s.lane n
  let key := s.engineKey n
  let s := s.updLane n fun l => { l with due := false, stopped := false, engine := key }
  let s := if key ≠ l.engine then s.wr (F.LANE_TRIM n) 0 else s
  let s := if key ≠ l.engine then s.appliedLane n none else s
  if l.stopped then (s.putChain n l.chain true).markLaneAt n true .restart else s

/-- PLACE writes a lane's Basic fields (R210): the Expert registers of a Basic lane read the derived values at once
while the input's rate is not Off, and the update waits for the next common boundary. -/
def State.setLane (s : State) (n : Nat) (hamper : Option Nat) (engine : Option (Bool × Nat)) (input preset freq : Nat)
    (joins : Bool := false) : State :=
  let s := (s.wr (F.LANE_ASSIGN_PLACED n) (b2n hamper.isSome)).wr (F.LANE_ASSIGN_HAMPER n) (hamper.getD 0)
  let s := s.wr (F.LANE_ASSIGN_ENG_VALID n) (b2n engine.isSome)
  let s := (s.wr (F.LANE_ASSIGN_ENG_TYPE n) (b2n ((engine.getD (false, 0)).1))).wr (F.LANE_ASSIGN_ENGINE n)
    (engine.getD (false, 0)).2
  let s := ((s.wr (F.LANE_ASSIGN_INPUT n) input).wr (F.LANE_ASSIGN_PRESET n) preset).wr (F.LANE_FREQ_FREQ_HZ n) freq
  let s := if s.laneExpert n || decide (s.rate input = 0) then s
    else s.showChain n (if preset = 0 then s.idleChain n else deriveChain preset input freq (s.rate input))
  s.updLane n fun l => { l with due := true, joins := joins }

/-- A restart of a configured lane on a root return or a rate commit of input `i` (R64, R233): a Basic lane derives its chain
anew at the present rate, with an update that waits and whose own input has a rate, else from what it has in force; an Expert
lane keeps the values it has in force. -/
def State.restartLane (s : State) (n i : Nat) : State :=
  let l := s.lane n
  if s.rate i = 0 then s
  else if s.laneExpert n then (if l.run then (s.putChain n l.chain true).markLaneAt n true .restart else s)
  else if l.due && decide (s.rate (s.rd (F.LANE_ASSIGN_INPUT n)) ≠ 0) then s.applyBasic n true
  else if l.run then
    let c := deriveChain l.preset i l.freq (s.rate i)
    let s := if l.due then s else s.showChain n c
    (s.putChain n c true).markLaneAt n true .restart
  else s

/-- A delay target for a lane (R225): the last writer wins. -/
def State.setDelay (s : State) (n : Nat) (slew : Bool) (target : Nat) : State :=
  let s := (s.wr (F.LANE_DELAY_TARGET n) target).wr (F.LANE_DELAY_MODE n) (b2n slew)
  let s := (s.wr (F.LANE_X_DELAY_TARGET n) target).wr (F.LANE_X_DELAY_MODE n) (b2n slew)
  if slew then
    let s := s.updLane n fun l => { l with delayDue := false }
    if s.rd (F.LANE_DELAY_NOW n) = target then (s.wr (F.LANE_STAT_SLEWING n) 0).raise .lane C.LANE_DELAY_SET n
    else s.wr (F.LANE_STAT_SLEWING n) 1
  else (s.wr (F.LANE_STAT_SLEWING n) 0).updLane n fun l => { l with delayDue := true }

/-- A timing trim of the engine (R224): ignored under HOLD, clamped to one thousandth of RATIO. -/
def State.setTrim (s : State) (n : Nat) (t : Int) : State :=
  if (s.lane n).chain.hold then s
  else
    let lim : Int := ((s.lane n).chain.ratio / 1000 : Nat)
    let c := max (-lim) (min lim t)
    let s := s.wr (F.LANE_TRIM n) (toField 32 c)
    if c ≠ t then s.raise .lane C.LANE_TRIM_LIMIT n else s

/-! ### Gain (R186 to R196) -/

/-- LNA setting and attenuation the AGC uses for a total gain (R186). -/
def gainTable (g : Int) : Nat × Nat :=
  if 13 ≤ g then (2, (24 - g).toNat) else if 1 ≤ g then (1, (12 - g).toNat) else (0, (-g).toNat)

/-- Total gain in dB of input `i`. -/
def State.gain (s : State) (i : Nat) : Int := ofField 8 (s.rd (F.RFIN_GAIN_STAT_TOTAL i))

/-- The measured gain of a setting, in thousandths of a dB (R188, R195): the LNA gain and attenuator step that the last calibration
found, free values; before the first one the nominal values. (assumption 96) -/
def State.measuredGain (s : State) (i lna att : Nat) : Int :=
  match (s.rfi i).measured with
  | some k => (Config.freeWord (k + lna)).toInt - (Config.freeWord (k + 3 + att)).toInt
  | none => 12000 * (lna : Int) - 1000 * att

/-- Every lane on the input multiplies its samples by 10^(-d / 20000) from here on (R188). -/
def State.compensate (s : State) (i : Nat) (d : Int) : State :=
  s.each (s.lanesOn i) fun s n => s.updLane n fun l => { l with dsp := { l.dsp with comp := l.dsp.comp + d } }

/-- Put a gain into force at a common boundary (R187, R188): counted, compensated and marked in every lane on the input, and
GAIN_STEP raised in Frozen or Manual (R206). A manual setting that only exchanges LNA gain and attenuation is a step too, though G
keeps its value (R194). -/
def State.putGain (s : State) (i : Nat) (g : Int) (lna att : Nat) : State :=
  let same := decide (g = s.gain i) && decide (lna = s.rd (F.RFIN_GAIN_STAT_LNA i)) && decide (att = s.rd (F.RFIN_GAIN_STAT_ATT i))
  let d := s.measuredGain i lna att - s.measuredGain i (s.rd (F.RFIN_GAIN_STAT_LNA i)) (s.rd (F.RFIN_GAIN_STAT_ATT i))
  let st := s.rd (F.RFIN_GAIN_STAT_AGC_STATE i)
  let s := ((s.wr (F.RFIN_GAIN_STAT_TOTAL i) (toField 8 g)).wr (F.RFIN_GAIN_STAT_LNA i) lna).wr
    (F.RFIN_GAIN_STAT_ATT i) att
  if same then s
  else
    let s := ((s.bump (F.RFIN_OVL_STEPS i)).compensate i d).markInput i false
    if st = 0 ∨ st = 2 then s.raise .rfin C.RFIN_GAIN_STEP i else s

/-- An AGC step of `d` dB, kept within the range of R186. -/
def State.stepGain (s : State) (i : Nat) (d : Int) : State :=
  let g := max (-31) (min 24 (s.gain i + d))
  s.putGain i g (gainTable g).1 (gainTable g).2

/-- The manual gain in force (R194). -/
def State.manualGain (s : State) (i : Nat) : State :=
  let lna := s.rd (F.RFIN_GAIN_CTRL_MAN_LNA i)
  let att := s.rd (F.RFIN_GAIN_CTRL_MAN_ATT i)
  s.putGain i (12 * (lna : Int) - att) lna att

/-- Enter Frozen or Fast as the lanes on the input hold detection or not (R190). -/
def State.startAgc (s : State) (i : Nat) : State :=
  if s.inputDetects i then (s.wr (F.RFIN_GAIN_STAT_AGC_STATE i) 2).raise .rfin C.RFIN_AGC_FROZEN i
  else s.wr (F.RFIN_GAIN_STAT_AGC_STATE i) 1

/-- Follow the lanes' detection on input `i`: the first detection freezes the AGC, the loss of the last returns it to
Fast (R190). -/
def State.agcFollow (s : State) (i : Nat) : State :=
  let st := s.rd (F.RFIN_GAIN_STAT_AGC_STATE i)
  let left := if s.inputDetects i || decide (st ≠ 2) then [] else (s.rfi i).fenceHold.filter fun n => (s.lanesOn i).contains n
  let s := s.updRf i fun r => { r with fenceHold := left }
  if (st = 1 ∧ s.inputDetects i = true) ∨ (st = 2 ∧ s.inputDetects i = false ∧ left = []) then
    (s.startAgc i).updRf i fun r => { r with gainDue := if r.gainDue = some .manual then r.gainDue else none }
  else s

/-- A fence takes the last lanes that hold detection on an input: while lanes of other clusters remain there the AGC stays Frozen,
so that they see no change of gain because of the fence (R26; assumption 97). -/
def State.agcHold (s : State) (cs : List Nat) : State :=
  s.each (List.range 4) fun s i =>
    let gone (n : Nat) : Bool := cs.contains (n / 6)
    let holders := (s.lanesOn i).filter s.laneDetects
    if s.rd (F.RFIN_GAIN_STAT_AGC_STATE i) = 2 ∧ holders ≠ [] ∧ holders.all gone = true then
      s.updRf i fun r => { r with fenceHold := (s.lanesOn i).filter fun n => !gone n }
    else s

/-- Follow detection on every input. -/
def State.agcFollowAll (s : State) : State := s.each (List.range 4) State.agcFollow

/-- Put an input into Hold: rate Off, EN at 0, or calibration running (R190). Manual mode shows 0 (R207). -/
def State.holdInput (s : State) (i : Nat) : State :=
  let s := s.wr (F.RFIN_GAIN_STAT_AGC_STATE i) (if s.on (F.RFIN_GAIN_CTRL_MODE i) then 0 else 3)
  s.updRf i fun r => { r with est4 := none, gainDue := if s.on (F.RFIN_GAIN_CTRL_MODE i) then r.gainDue else none }

/-- The accesses of a calibration of input `i` (R21, R119; assumption 87). -/
def calTask (i : Nat) : List (Nat × Bool) := [((F.RFIN_CAL_RECAL i).addr, false), ((F.RFIN_CAL_RECAL i).addr, true)]

/-- Start the calibration of an input (R195), or ask for one more after the one that runs (R11). RECAL clears as the
calibration starts. The management controller sequences it under its rights to the RFIN page (R21, R119). -/
def State.startCal (s : State) (i : Nat) : State :=
  if (s.rfi i).cal ≠ .idle then s.updRf i fun r => { r with cal := .again }
  else
    s.mgmtTask (calTask i) fun s =>
      let s := (s.wr (F.RFIN_CAL_RECAL i) 0).updRf i fun r => { r with cal := .running }
      (s.holdInput i).markInput i false

/-- Calibrate every enabled input at a rate other than Off (R64, R73); one whose calibration already runs goes on with it. -/
def State.calAll (s : State) : State :=
  s.each (List.range 4) fun s i => if s.rate i ≠ 0 ∧ s.en .rfin i ∧ (s.rfi i).cal = .idle then s.startCal i else s

/-- An input powers down: its calibration ends without a result, its AGC holds, and nothing overloads it (R82, R190, R203). -/
def State.downInput (s : State) (i : Nat) : State :=
  ((s.updRf i fun r => { r with cal := .idle, settling := false }).holdInput i).level .rfin C.RFIN_OVERLOAD false i

/-! ### Filter selection (R197 to R199) -/

/-- Entry `k` of the filter table covers frequency `f` in Hz. -/
def State.filtCovers (s : State) (i k f : Nat) : Bool :=
  s.on (F.RFIN_FILT_TABLE_LO_VALID i k) &&
    decide (s.rd (F.RFIN_FILT_TABLE_LO_LOW_KHZ i k) * 1000 ≤ f) && decide (f ≤ s.rd (F.RFIN_FILT_TABLE_HI_HIGH_KHZ i k) * 1000)

/-- The lowest valid entry whose range contains every frequency of the list (R197). -/
def State.filtEntry (s : State) (i : Nat) (fs : List Nat) : Option Nat :=
  (List.range 4).find? fun k => fs.all (s.filtCovers i k)

/-- The lanes placed on input `i`, lowest first. -/
def State.placedOn (s : State) (i : Nat) : List Nat :=
  (List.range 24).filter fun n => s.rd (F.LANE_ASSIGN_PRESET n) ≠ 0 && decide (s.rd (F.LANE_ASSIGN_INPUT n) = i)

/-- The lane is held by a placed Hamper with its engine: it does not measure (R241). -/
def State.laneHeld (s : State) (n : Nat) : Bool := s.on (F.LANE_ASSIGN_ENG_VALID n)

/-- The lanes on input `i` with the carriers whose change may choose its filter anew (R197, R349): beside another lane that a placed
Hamper holds, the carrier of a measurement does not. -/
def State.inputLanes (s : State) (i : Nat) : List (Nat × Nat) :=
  let on := s.placedOn i
  on.map fun n => (n, if !s.laneHeld n && decide (on ≠ [n]) then 0 else s.rd (F.LANE_FREQ_FREQ_HZ n))

/-- The lowest entry that serves every lane placed on an input or, where the carrier of a measurement leaves none, every lane held
there (R197; assumption 111). -/
def State.filtFit (s : State) (i : Nat) : Option Nat :=
  let at_ (l : List Nat) : Option Nat :=
    if l = [] then none else s.filtEntry i (l.map fun n => s.rd (F.LANE_FREQ_FREQ_HZ n))
  (at_ (s.placedOn i)).orElse fun _ => at_ ((s.placedOn i).filter s.laneHeld)

/-- Code and zone the table gives an input for its lanes (R197): unchanged with no lane placed. -/
def State.filtTable (s : State) (i : Nat) : Nat × Nat :=
  match s.filtFit i with
  | some k => (s.rd (F.RFIN_FILT_TABLE_LO_CODE i k), s.rd (F.RFIN_FILT_TABLE_LO_ZONE2 i k))
  | none => (s.rd (F.RFIN_FILT_CTRL_CODE i), s.rd (F.RFIN_FILT_CTRL_ZONE2 i))

/-- Ask for a filter code and zone: a change waits for the next common boundary (R199). -/
def State.askFilt (s : State) (i : Nat) (want : Nat × Nat) : State :=
  let now := (s.rd (F.RFIN_FILT_CTRL_CODE i), s.rd (F.RFIN_FILT_CTRL_ZONE2 i))
  s.updRf i fun r => { r with filtDue := if want = now then none else some want }

/-- The filter of an input is chosen anew (R197): the manual one under MODE 1, else the table's. -/
def State.filtChoose (s : State) (i : Nat) : State :=
  let s := s.updRf i fun r => { r with filtFor := s.inputLanes i }
  s.askFilt i (if s.on (F.RFIN_FILT_CTRL_MODE i) then (s.rd (F.RFIN_FILT_CTRL_MAN_CODE i), s.rd (F.RFIN_FILT_CTRL_MAN_ZONE2 i))
    else s.filtTable i)

/-- The lanes on an input may have changed: only such a change chooses its filter anew (R200). -/
def State.filtEval (s : State) (i : Nat) : State :=
  if s.on (F.RFIN_FILT_CTRL_MODE i) ∨ s.inputLanes i = (s.rfi i).filtFor then s else s.filtChoose i

/-- The lane of a measurement came to, or left, input `i`: the filter follows it only where no other lane is (R349, R355). -/
def State.filtMeas (s : State) (n i : Nat) : State :=
  if (s.placedOn i).any fun m => decide (m ≠ n) then s.updRf i fun r => { r with filtFor := s.inputLanes i } else s.filtEval i

/-! ### Antenna supply (R202, R203) -/

/-- ANT_PWR_EN as MODE, the radio state, EN and FAULT select it (R202). -/
def State.antWant (s : State) (i : Nat) : Bool :=
  let m := s.rd (F.RFIN_ANT_CTRL_MODE i)
  let st := s.radio
  let f := s.rd (F.RFIN_ANT_STAT_FAULT i)
  s.en .rfin i && decide (f ≠ 3) && (decide (f ≠ 2) || (s.rfi i).retrying) &&
    ((decide (m = 1) && decide (1 ≤ st)) ||
     (decide (m = 2) && (decide (2 ≤ st) || decide (s.pwr.trans = some .standbyToSynth) || (decide (st = 1) && s.pwr.lockFailed))))

/-- Drive ANT_PWR_EN: a rising edge begins the blanking of R203. -/
def State.antEval (s : State) (i : Nat) : State :=
  let want := s.antWant i
  if want = s.on (F.RFIN_ANT_STAT_PWR i) then s
  else (s.wr (F.RFIN_ANT_STAT_PWR i) (b2n want)).updRf i fun r =>
    { r with blank := want, shortRun := 0, okRun := 0, openRun := 0, inRun := 0 }

/-- Drive every ANT_PWR_EN output. -/
def State.antEvalAll (s : State) : State := s.each (List.range 4) State.antEval

end Sys2Proof.Machine
end

