-- ==== Sys2Proof/Machine/Crc.lean ====
section
/-! DEFINITION. The cyclic redundancy checks that spec/ defines: CRC-32C (R459) and the packet error code of the
two-wire port; and the broadcast checks it names. -/
namespace Sys2Proof.Machine

/-- One bit of a reflected 32-bit CRC with polynomial 0x1EDC6F41. -/
def crc32cBit (c : BitVec 32) : BitVec 32 :=
  if c.getLsbD 0 then (c >>> 1) ^^^ (0x82F63B78 : BitVec 32) else c >>> 1

/-- One byte. -/
def crc32cByte (c : BitVec 32) (b : Nat) : BitVec 32 :=
  (List.range 8).foldl (fun c _ => crc32cBit c) (c ^^^ BitVec.ofNat 32 (b % 256))

/-- CRC-32C of a list of bytes. -/
def crc32cBytes (l : List Nat) : Nat := ((l.foldl crc32cByte 0xFFFFFFFF) ^^^ (0xFFFFFFFF : BitVec 32)).toNat

/-- The bytes of a word, bits [31:24] first. -/
def wordBytes (w : Nat) : List Nat := [w / 0x1000000 % 256, w / 0x10000 % 256, w / 0x100 % 256, w % 256]

/-- CRC-32C of a list of words, bits [31:24] of each first (R459). -/
def crc32c (l : List Nat) : Nat := crc32cBytes (l.flatMap wordBytes)

/-- CRC-8 with polynomial 0x07 and initial value 0 over a list of bytes: the packet error code (R167). -/
def crc8 (l : List Nat) : Nat :=
  l.foldl (fun c b =>
    (List.range 8).foldl (fun c _ => if 128 ≤ c then (c * 2 % 256) ^^^ 7 else c * 2) (c ^^^ (b % 256))) 0

/-- CRC-16 with polynomial 0x1021 and initial value 0xFFFF over a list of bytes, not reflected (R137). -/
def crc16 (l : List Nat) : Nat :=
  l.foldl (fun c b =>
    (List.range 8).foldl (fun c _ => if 32768 ≤ c then (c * 2 % 65536) ^^^ 0x1021 else c * 2) (c ^^^ (b % 256 * 256))) 0xFFFF

/-! ### Broadcast checks (R316; assumption 124) -/

/-- CRC of `n` bits with polynomial `poly` and initial value `init` over a list of bits, first bit first. -/
def crcBits (n poly init : Nat) (l : List Bool) : Nat :=
  l.foldl (fun c b => if decide (2 ^ (n - 1) ≤ c) = b then c * 2 % 2 ^ n else (c * 2 % 2 ^ n) ^^^ poly) init

/-- Bits [`n` - 1 : 0] of a number, the most significant first. -/
def bitList (n v : Nat) : List Bool := (List.range n).map fun i => v.testBit (n - 1 - i)

/-- The number that bits spell, the most significant first. -/
def bitsNat (l : List Bool) : Nat := l.foldl (fun n b => 2 * n + (if b then 1 else 0)) 0

/-- The last `n` bits of a block are the inverted CRC of what stands before them. -/
def crcHolds (n poly : Nat) (l : List Bool) : Bool :=
  bitsNat (l.drop (l.length - n)) == 2 ^ n - 1 - crcBits n poly (2 ^ n - 1) (l.take (l.length - n)) && n ≤ l.length

/-- The bits of bytes. -/
def byteBits (l : List Nat) : List Bool := l.flatMap (bitList 8)

/-- CRC-16 of a FIB or a data packet. -/
def crc16Holds (l : List Nat) : Bool := crcHolds 16 0x1021 (byteBits l)

/-- CRC-8 of a FAC. -/
def facHolds (l : List Bool) : Bool := crcHolds 8 0x1D l

/-- CRC-16 of an SDC, whose AFS index counts as a byte. -/
def sdcHolds (l : List Bool) : Bool := crcHolds 16 0x1021 (List.replicate 4 false ++ l)

/-- The CRC-8 of T2. -/
def crc8T2 (l : List Nat) : Nat := crcBits 8 0xD5 0 (byteBits l)

/-- The mode that a BBFRAME header with a good CRC-8 gives: true for high efficiency (R330). -/
def bbHeader (l : List Nat) : Option Bool :=
  let c := crc8T2 (l.take 9) ^^^ (l.getD 9 0)
  if l.length = 10 ∧ c = 0 then some false else if l.length = 10 ∧ c = 1 then some true else none

end Sys2Proof.Machine
end

