-- ==== Sys2Proof/Machine/PlaceOps.lean ====
section
/-! DEFINITION. Plans: what is held, what is free, and what other blocks ask about placements (R237 to R266). -/
namespace Sys2Proof.Machine
open Sys2Proof

/-! ### Bit masks of granules -/

/-- The 768 granules of a cluster: 12 banks of 64 (R248, R495). -/
def granAll : Nat := 2 ^ 768 - 1

/-- How many of the low `n` bits of a mask are set. -/
def popCount (n v : Nat) : Nat := (List.range n).foldl (fun acc b => if bit v b then acc + 1 else acc) 0

/-- The lowest `k` set bits of a mask, scanning `n` bits from bit `b`. -/
def lowestBits : Nat → Nat → Nat → Nat → Nat
  | 0, _, _, _ => 0
  | n + 1, b, k, v => if k = 0 then 0 else if bit v b then 2 ^ b + lowestBits n (b + 1) (k - 1) v
    else lowestBits n (b + 1) k v

/-- The set bits of a mask among its low `n`. -/
def bitsOf (n v : Nat) : List Nat := (List.range n).filter fun b => bit v b

/-- Bits of `a` that are not in `b`. -/
def maskSub (a b : Nat) : Nat := a - (a &&& b)

def Region.count (r : Region) : Nat := popCount 768 r.mask

/-! ### Lookups -/

def Plan.ham (p : Plan) (h : Nat) : HamSt := tget HamSt.init p.hams h

def Plan.upd (p : Plan) (h : Nat) (f : HamSt → HamSt) : Plan := { p with hams := tput HamSt.init p.hams h (f (p.ham h)) }

def Plan.find (p : Plan) (id : Nat) : Option PChain := p.chains.find? fun c => decide (c.id = id)

def Plan.chainOf (p : Plan) (h : Nat) : Option PChain := (p.ham h).chain.bind p.find

def Plan.altOf (p : Plan) (h : Nat) : Option PChain := (p.ham h).alt.bind p.find

def Plan.setChain (p : Plan) (c : PChain) : Plan := { p with chains := p.chains.map fun d => if d.id = c.id then c else d }

/-- The members of a chain, in index order. -/
def Plan.members (p : Plan) (id : Nat) : List Nat :=
  (p.hams.filter fun x => decide (x.2.chain = some id)).map (·.1)

/-- The Hampers that have a chain as theirs or as the one being faded out. -/
def Plan.users (p : Plan) (id : Nat) : List Nat :=
  (p.hams.filter fun x => decide (x.2.chain = some id) || decide (x.2.alt = some id)).map (·.1)

def PChain.legs (c : PChain) : List Leg := c.main :: c.pair.toList

/-- The secondary leg of a pair is released with its engine, lanes and working banks (R239, R254). -/
def PChain.unpair (c : PChain) : PChain := { c with pair := none, pairWork := 0 }

/-- The primary leg is retuned in place. Two legs never stand on one frequency: a pair that would ends (R16, R252). -/
def PChain.retuned (c : PChain) (f : Nat) : PChain :=
  let d := { c with main := { c.main with freq := f } }
  if d.pair.any fun l => decide (l.freq = f) then d.unpair else d

def PChain.lanes (c : PChain) : List Nat := c.legs.flatMap fun l => l.br.map (·.lane)

/-- The bearer needs an analogue engine (R239). -/
def isAna (b : Nat) : Bool := decide (b < 2)

/-- The bearer is decoded by the cluster's Viterbi/RS unit (R239). -/
def usesVrs (b : Nat) : Bool := decide (2 ≤ b) && decide (b ≤ 4)

/-- Priority of a chain: the highest of its users (R243). -/
def Plan.prio (p : Plan) (id : Nat) : Nat := (p.users id).foldl (fun m h => max m (p.ham h).req.prio) 0

/-- The member whose INPUT_MASK and pins the chain takes: highest priority, then lowest index (R243). -/
def Plan.top (p : Plan) (id : Nat) : Option Nat :=
  (p.members id).foldl (fun best h =>
    match best with
    | none => some h
    | some g => if (p.ham g).req.prio < (p.ham h).req.prio then some h else some g) none

/-! ### Availability -/

/-- The cluster is fenced for some reason (R84). -/
def State.fenced (s : State) (c : Nat) : Bool :=
  bit (s.rd F.PWR_FENCE_FUSE) c || bit (s.rd F.PWR_FENCE_FAULT) c || bit (s.rd F.PWR_FENCE_THERM) c ||
    (s.clu c).unfencing

/-- The engine with key `k` (1 + e OFDM, 17 + e analogue) is enabled. -/
def State.engEn (s : State) (k : Nat) : Bool := if k < 17 then s.en .ofdm (k - 1) else s.en .ana (k - 17)

/-- Key of engine `e` of the type a bearer needs. -/
def engKey (b e : Nat) : Nat := if isAna b then 17 + e else 1 + e

/-- Granules of cluster `c` withdrawn by the background test (R504). -/
def State.withdrawn (s : State) (c : Nat) : Nat :=
  (List.range 12).foldl (fun acc k => acc +
    (s.rd (F.MEM_BAD_MAP_LO_REGIONS (12 * c + k)) + s.rd (F.MEM_BAD_MAP_HI_REGIONS (12 * c + k)) * 2 ^ 32) * 2 ^ (64 * k)) 0

/-- Granules of cluster `c` that a plan holds. -/
def Plan.usedMask (p : Plan) (c : Nat) : Nat :=
  let reg (acc : Nat) (r : Option Region) : Nat :=
    match r with | some r => if r.clus = c then acc ||| r.mask else acc | none => acc
  let a := p.chains.foldl (fun acc d => reg (if d.clus = c then acc ||| d.work ||| d.pairWork else acc) d.deint) 0
  p.hams.foldl (fun acc x => reg (reg acc x.2.region) x.2.blend) a

/-- Free granules of cluster `c`. -/
def State.freeMask (s : State) (p : Plan) (c : Nat) : Nat := maskSub granAll (p.usedMask c ||| s.withdrawn c)

/-- Lanes a plan holds. -/
def Plan.laneUsed (p : Plan) (n : Nat) : Bool := p.chains.any fun c => c.lanes.contains n

/-- The engine with key `k` is held in the plan. -/
def Plan.engHeld (p : Plan) (k : Nat) : Bool :=
  p.chains.any fun c => decide (c.use ≠ .borrow) && c.legs.any fun l => decide (engKey c.bearer l.eng = k)

/-- Something of cluster `c` is placed (R83). -/
def Plan.usesClus (p : Plan) (c : Nat) : Bool :=
  p.chains.any (fun d => decide (d.clus = c)) || decide (p.usedMask c ≠ 0)

/-- The Hamper with a published placement. -/
def State.ham (s : State) (h : Nat) : HamSt := s.place.live.ham h

/-- Hamper `h` is Placed (R261). -/
def State.placed (s : State) (h : Nat) : Bool := decide ((s.ham h).state = 2)

/-- The chain of a Hamper as published. -/
def State.chainOf (s : State) (h : Nat) : Option PChain := s.place.live.chainOf h

/-- The measuring Hamper that has borrowed engine key `k` (R353). -/
def State.borrowed (s : State) (k : Nat) : Option Nat :=
  (s.watch.find? fun x => decide ((x.2.meas.bind fun m => m.eng) = some k)).map (·.1)

/-- The published chain that holds engine key `k`: a borrowed engine is taken at the application only (R268, R294). -/
def State.chainOnEng (s : State) (k : Nat) : Option PChain :=
  if (s.borrowed k).isSome then none
  else s.place.live.chains.find? fun c => decide (c.use ≠ .borrow) && c.legs.any fun l => decide (engKey c.bearer l.eng = k)

/-- The Hampers that take blocks or sound from a chain: its members, and those fading it out. -/
def State.usersOf (s : State) (id : Nat) : List Nat := (s.place.live.users id).filter fun h => decide (h < 128)

/-- The common PLP that the last L1-post of engine `e` associates with PLP `plp` (R328). -/
def State.commonPlp (s : State) (e plp : Nat) : Option Nat :=
  (s.fec.l1.find? fun x => decide (x.1 = e)).bind fun x => (x.2.find? fun g => decide (g.1 = plp)).map (·.2)

/-- The Hampers served by engine key `k`. -/
def State.hampersOn (s : State) (k : Nat) : List Nat :=
  match s.chainOnEng k with | some c => s.usersOf c.id | none => []

/-! ### Cluster power (R83) -/

/-- Power of cluster `c` as R97 codes it. -/
def State.cpow (s : State) (c : Nat) : Nat := s.rd (F.CLUS_STAT_POWER c)

/-- Byte address of bank `b` in the SRAM window (R98). -/
def bankAddr (b : Nat) : Nat := 0x380000 + b * 0x40000

end Sys2Proof.Machine
end

