-- ==== Sys2Proof/Machine/TimeBase.lean ====
section
/-! DEFINITION. The time base: its value, the XO tick, its sources and the Itinerary's windows (R431 to R452). -/
namespace Sys2Proof.Machine
open Sys2Proof

/-! ### Value (R431) -/

/-- One nanosecond in units of the counter. -/
def nsUnit : Nat := 768 * 10 ^ 9

/-- One second. -/
def secUnit : Nat := nsUnit * 10 ^ 9

/-- The counter wraps with its 48 bits of seconds. -/
def timeMod : Nat := secUnit * 2 ^ 48

/-- Seconds of the time base. -/
def State.nowSec (s : State) : Nat := s.time.now / secUnit

/-- Nanoseconds of the time base. -/
def State.nowNs (s : State) : Nat := s.time.now / nsUnit % 10 ^ 9

/-- The time stamp "in µs of the time base, modulo 2^32" (R431). -/
def State.nowUs (s : State) : Nat := s.time.now / (nsUnit * 1000) % 2 ^ 32

/-- What the counter of the time base has run through, without its loads and steps: spans of time are taken on it. -/
def State.elapsed (s : State) : Nat := ((s.time.now : Int) - s.time.moved).toNat

/-- The frequency correction in force, ppb (R436, R440). -/
def State.ppb (s : State) : Int := ofField 24 (s.rd F.TIME_FREQ_PPB)

/-- A move of the time base by a signed number of counter units. -/
def State.moveTime (s : State) (d : Int) : State :=
  { s with time := { s.time with now := (((s.time.now : Int) + d) % (timeMod : Int)).toNat } }

/-- Growth of UNCERT in ppm while the time base is not locked (R442). -/
def State.uncPpm (s : State) : Nat :=
  let c := s.rd F.PWR_TEMP_SYS_CENTRE
  let k := if c < 24 then 0 else min 15 ((c - 24) / 10)
  if s.on (F.TIME_THERMOS_LEARNED k) then 2 else s.rd F.TIME_X_LOOP_RAW_PPM

/-- UNCERT grows by `ppm` of `t` units of time, saturating (R442, R443). -/
def State.growUnc (s : State) (ppm t : Nat) : State :=
  let u := s.time.unc + t * ppm
  let step := nsUnit * 1000 * 10 ^ 6
  let s := { s with time := { s.time with unc := u % step } }
  s.wr F.TIME_UNCERT_US (min 0xFFFFFFFF (s.rd F.TIME_UNCERT_US + u / step))

/-- One XO cycle of the time base (R431, R442, R444). -/
def State.tick (s : State) : State :=
  let d := (15625 : Int) * (10 ^ 9 + s.ppb)
  let lim : Int := (15625 * s.rd F.TIME_X_LOOP_SLEW_PPM * 1000 : Nat)
  let adj := max (-lim) (min lim s.time.slew)
  let s := s.moveTime (d + adj)
  let s := { s with time := { s.time with slew := s.time.slew - adj } }
  if s.rd F.TIME_STAT_STATE = 3 then s else s.growUnc s.uncPpm (15625 * 10 ^ 9)

/-! ### State and source (R434, R440) -/

/-- This device is a slave with a Triuc link up: source 2 stands in place of PPS_IN (R434). -/
def State.usesCascade (s : State) : Bool :=
  decide (s.rd F.SYS_STRAP_CASC_ROLE ≠ 0) && decide (s.rd F.CASC_STAT_UP ≠ 0)

/-- The rank-1 source is enabled in TIME.CFG and the page is enabled (R434, R452). -/
def State.rank1On (s : State) : Bool :=
  s.en .time && (if s.usesCascade then s.on F.TIME_CFG_CASC_EN else s.on F.TIME_CFG_PPS_EN)

/-- STAT.STATE as R440 gives it. -/
def State.timeState (s : State) : Nat :=
  if !s.on F.TIME_STAT_SET then 0
  else if s.on F.TIME_STAT_STEP_PEND then 2
  else if s.time.qual then 3
  else if s.rank1On && s.time.prev.isSome then 2
  else 1

/-- STAT.SRC as R434 gives it. -/
def State.timeSrc (s : State) : Nat :=
  if s.time.qual then (if s.time.casc then 2 else 1) else s.time.base

/-- The frequency correction of the Thermos table for the centre sensor: the entry if it is learned, else between the
nearest learned entries, else the nearest; none learned keeps the last (R440). A fraction of 1 ppb is dropped
downward. (assumption 9) -/
def State.thermosPpb (s : State) : Option Int :=
  let c := s.rd F.PWR_TEMP_SYS_CENTRE
  let k := if c < 24 then 0 else min 15 ((c - 24) / 10)
  let v (j : Nat) : Int := ofField 16 (s.rd (F.TIME_THERMOS_PPB j))
  let ok (j : Nat) : Bool := s.on (F.TIME_THERMOS_LEARNED j)
  if ok k then some (v k)
  else
    match ((List.range k).reverse.find? ok), (((List.range 16).drop (k + 1)).find? ok) with
    | some a, some b => some (v a + (v b - v a) * ((k : Int) - a) / ((b : Int) - a))
    | some a, none => some (v a)
    | none, some b => some (v b)
    | none, none => none

/-- The correction of Thermos and Qualifying, renewed with each sensor sample (R440, R441); with the page disabled the correction
in force stays (R452). -/
def State.thermosFreq (s : State) : State :=
  if s.rd F.TIME_STAT_STATE = 3 ∨ s.rd F.TIME_STAT_STATE = 0 ∨ s.en .time = false then s
  else match s.thermosPpb with
    | some p => s.wr F.TIME_FREQ_PPB (toField 24 p)
    | none => s

/-- Follow state and source after an event: THERMOS and SRC_CHANGE are raised on a change, and UNCERT reads 1 µs, or
the master's plus 1 µs, while Locked (R436, R440, R527, R453). -/
def State.timeEval (s : State) : State :=
  let st := s.timeState
  let src := s.timeSrc
  let oldSt := s.rd F.TIME_STAT_STATE
  let oldSrc := s.rd F.TIME_STAT_SRC
  let s := (s.wr F.TIME_STAT_STATE st).wr F.TIME_STAT_SRC src
  let s := if st = 1 ∧ oldSt ≠ 1 then s.raise .time C.TIME_THERMOS else s
  let s := if src ≠ oldSrc then s.raise .time C.TIME_SRC_CHANGE else s
  if st = 3 then
    { s.wr F.TIME_UNCERT_US (if s.time.casc then min 0xFFFFFFFF (s.time.uncM + 1) else 1) with time := { s.time with unc := 0 } }
  else s

/-- Cancel a pending or armed step (R445, R451). -/
def State.cancelStep (s : State) : State :=
  { s.wr F.TIME_STAT_STEP_PEND 0 with time := { s.time with armed := false, agree := 0 } }

/-! ### The Itinerary (R447 to R449) -/

/-- Duration in µs, gates and power of entry `e` of bank `b`. -/
def State.itinDur (s : State) (b e : Nat) : Nat := if b = 0 then s.rd (F.TIME_ITIN0_DUR_US e) else s.rd (F.TIME_ITIN1_DUR_US e)
def State.itinGates (s : State) (b e : Nat) : Nat :=
  if b = 0 then s.rd (F.TIME_ITIN0_CTRL_GATES e) else s.rd (F.TIME_ITIN1_CTRL_GATES e)
def State.itinPower (s : State) (b e : Nat) : Nat :=
  if b = 0 then s.rd (F.TIME_ITIN0_CTRL_POWER e) else s.rd (F.TIME_ITIN1_CTRL_POWER e)

/-- Length of bank `b`. -/
def State.itinLen (s : State) (b : Nat) : Nat := s.rd (F.TIME_LEN b)

/-- Anchor of bank `b`, in counter units. -/
def State.anchor (s : State) (b : Nat) : Nat :=
  (s.rd (F.TIME_ANCHOR_SEC_LO_SEC_LO b) + s.rd (F.TIME_ANCHOR_SEC_HI_SEC_HI b) * 2 ^ 32) * secUnit +
    s.rd (F.TIME_ANCHOR_NS_NS b) * nsUnit

/-- Cumulative ends of the windows of bank `b`, in µs from the cycle start. -/
def State.itinEnds (s : State) (b : Nat) : List Nat :=
  ((List.range (s.itinLen b)).foldl (fun (acc : Nat × List Nat) e =>
    (acc.1 + s.itinDur b e, acc.2 ++ [acc.1 + s.itinDur b e])) (0, [])).2

/-- Cycle length of bank `b` in µs. -/
def State.itinCycle (s : State) (b : Nat) : Nat := (List.range (s.itinLen b)).foldl (fun n e => n + s.itinDur b e) 0

def usUnit : Nat := nsUnit * 1000

/-- Cycle index of bank `b` at time `t` (R448); boundaries lie before the anchor too. -/
def State.cycleAt (s : State) (b t : Nat) : Int :=
  let c := s.itinCycle b * usUnit
  if c = 0 then 0 else ((t : Int) - s.anchor b) / c

/-- The entry of bank `b` in force at time `t`; none before the anchor (R448). -/
def State.entryAt (s : State) (b t : Nat) : Option Nat :=
  let c := s.itinCycle b * usUnit
  if t < s.anchor b ∨ c = 0 then none
  else
    let o := (t - s.anchor b) % c
    some (((s.itinEnds b).filter fun e => decide (e * usUnit ≤ o)).length)

/-- Window ends of bank `b` from its anchor up to time `t`. -/
def State.endsBy (s : State) (b t : Nat) : Nat :=
  let c := s.itinCycle b * usUnit
  if t < s.anchor b ∨ c = 0 then 0
  else (t - s.anchor b) / c * s.itinLen b + (((s.itinEnds b).filter fun e => decide (e * usUnit ≤ (t - s.anchor b) % c)).length)

/-- The active bank. -/
def State.itinBank (s : State) : Nat := s.rd F.TIME_STAT_ITIN_BANK

/-- The Itinerary runs. -/
def State.itinOn (s : State) : Bool := s.on F.TIME_STAT_ITIN_RUN

/-- µs left in the entry in force: ITIN_REMAIN. -/
def State.itinRemain (s : State) : Nat :=
  let b := s.itinBank
  let c := s.itinCycle b * usUnit
  if !s.itinOn || decide (s.time.now < s.anchor b) || decide (c = 0) then 0
  else
    let o := (s.time.now - s.anchor b) % c
    match (s.itinEnds b).find? fun e => decide (o < e * usUnit) with
    | some e => (e * usUnit - o) / usUnit
    | none => 0

end Sys2Proof.Machine
end

