-- ==== Sys2Proof/Machine/QueueOps.lean ====
section
/-! DEFINITION. Output queues: what other blocks do to them (R455 to R475). -/
namespace Sys2Proof.Machine
open Sys2Proof

def QueueSt.init : QueueSt :=
  { live := false, pkts := [], seq := 0, credit := 0, gapDue := false, polArmed := false, refArmed := false, latWarned := false }

def State.queue (s : State) (n : Nat) : QueueSt := tget QueueSt.init s.sched.queues n

def State.updQueue (s : State) (n : Nat) (f : QueueSt → QueueSt) : State :=
  { s with sched := { s.sched with queues := tput QueueSt.init s.sched.queues n (f (s.queue n)) } }

/-- Words 0 to 2 of a packet (R457). -/
def Packet.head (h : Nat) (p : Packet) : List Nat :=
  [p.cls * 2 ^ 28 + b2n p.gap * 2 ^ 27 + h * 2 ^ 20 + p.pad * 2 ^ 18 + p.payload.length, p.seq * 2 ^ 16, p.time]

/-- Every word of a packet, the CRC stored at admission last. -/
def Packet.words (h : Nat) (p : Packet) : List Nat := p.head h ++ p.payload ++ [p.crc]

/-- Length of a packet in words: LEN + 4. -/
def Packet.size (p : Packet) : Nat := p.payload.length + 4

/-- Bytes a queue holds. -/
def QueueSt.used (q : QueueSt) : Nat := q.pkts.foldl (fun n p => n + 4 * p.size) 0

/-- Words and packets published to the readout window (R151, R466). -/
def QueueSt.pubWords (q : QueueSt) : Nat := (q.pkts.filter (·.pub)).foldl (fun n p => n + p.size) 0
def QueueSt.pubPkts (q : QueueSt) : Nat := (q.pkts.filter (·.pub)).length

/-- Queue quota in bytes, rate in kb/s, credit cap in bits, DEST and priority in force (R462). -/
def State.quota (s : State) (n : Nat) : Nat := (s.ham n).qIn * 1024
def State.qRate (s : State) (n : Nat) : Nat := (s.ham n).req.rate / 0x10000
def State.qCap (s : State) (n : Nat) : Nat := (s.ham n).req.rate % 0x10000 * 8192
def State.toStrm (s : State) (n : Nat) : Bool := bit (s.ham n).req.dest 16
def State.toReadout (s : State) (n : Nat) : Bool := !s.toStrm n || bit (s.ham n).req.dest 17

/-- The queue is open to delivery (R464, R473). -/
def State.qOpen (s : State) (n : Nat) : Bool :=
  s.en .sched && (!s.on (F.SCHED_QCFG_GATED n) || bit (s.rd F.SCHED_STAT_GATES) (s.rd (F.SCHED_QCFG_GATE n)))

/-- Raise OUTPUT on the SCHED page and capture the first event (R475). -/
def State.schedEvent (s : State) (code n : Nat) : State :=
  let s := if s.on F.SCHED_EVENT_VALID then s
    else ((s.wr F.SCHED_EVENT_VALID 1).wr F.SCHED_EVENT_CODE code).wr F.SCHED_EVENT_QUEUE n
  s.raise .sched C.DATA_OUTPUT

/-- Raise OUTPUT on the STRM page and capture the first event (R475). -/
def State.strmEvent (s : State) (code n : Nat) : State :=
  let s := if s.on F.STRM_ERR_VALID then s
    else ((s.wr F.STRM_ERR_VALID 1).wr F.STRM_ERR_CODE code).wr F.STRM_ERR_QUEUE n
  s.raise .strm C.DATA_OUTPUT

/-- OVER follows USED and the quota (R462). -/
def State.overEval (s : State) (n : Nat) : State :=
  let above := (s.queue n).live && decide (s.quota n < (s.queue n).used)
  if above = s.on (F.SCHED_QSTAT0_OVER n) then s
  else (s.wr (F.SCHED_QSTAT0_OVER n) (b2n above)).schedEvent (if above then 3 else 4) n

/-- Hand an item to the scheduler; for a Hamper without a queue it is discarded and counted nowhere (R455). -/
def State.offer (s : State) (h cls pad : Nat) (payload : List Nat) (ok : Bool := true) : State :=
  if (s.queue h).live then
    { s with sched := { s.sched with items := s.sched.items ++
        [{ hamper := h, cls := cls, pad := pad, payload := payload.map (· % 2 ^ 32), ok := ok }] } }
  else s

/-- A break of the integrity chain at a stage of R424: counted, recorded and raised. -/
def State.chainBreak (s : State) (stage h : Nat) : State :=
  (((s.sat F.DATA_CHAIN_COUNT).wr F.DATA_CHAIN_HAMPER h).wr F.DATA_CHAIN_STAGE stage).raise .data C.DATA_CHAIN_BREAK

/-- Mark the packets that satisfy a test as published. -/
def publishWhere (f : Packet → Bool) (q : QueueSt) : QueueSt :=
  { q with pkts := q.pkts.map fun p => if f p then { p with pub := true } else p }

/-- Publish what may be published while the gate is open: packets whose send has ended, and of a queue without STRM every
packet, checked as it is read out (R456, R459, R464, R466). -/
def State.publishQueue (s : State) (n : Nat) : State :=
  if !(s.queue n).live || !s.qOpen n then s
  else if s.toStrm n then s.updQueue n (publishWhere fun p => p.sent)
  else
    (s.each ((s.queue n).pkts.filter fun p => !p.pub && p.bad) fun s _ => s.chainBreak 6 n).updQueue n (publishWhere fun _ => true)

/-- Every live queue, after a change of gates or of the SCHED page. -/
def State.publishAll (s : State) : State := s.each (s.sched.queues.map (·.1)) State.publishQueue

/-- The gates change (R448, R464). -/
def State.setGates (s : State) (g : Nat) : State := (s.wr F.SCHED_STAT_GATES g).publishAll

/-- Record the latency of a packet that leaves now (R467). -/
def State.latency (s : State) (n time : Nat) : State :=
  let l := (s.nowUs + 2 ^ 32 - time) % 2 ^ 32
  let s := if s.rd (F.SCHED_QLAT_HWM_US n) < l then s.wr (F.SCHED_QLAT_HWM_US n) l else s
  let w := s.rd F.SCHED_CFG_LAT_WARN_MS
  if 0 < w ∧ w * 1000 < l ∧ (s.queue n).latWarned = false then
    (s.updQueue n fun q => { q with latWarned := true }).schedEvent 6 n
  else s

/-- The send in progress is of queue `n`. -/
def State.sendingQ (s : State) (n : Nat) : Bool := s.on F.STRM_STAT_SENDING && decide (s.rd F.STRM_STAT_QUEUE = n)

/-- A send is abandoned (R471). -/
def State.abortSend (s : State) (words : Nat) : State :=
  let n := s.rd F.STRM_STAT_QUEUE
  let s := s.wr F.STRM_WORDS (s.rd F.STRM_WORDS + words)
  (((s.wr F.STRM_STAT_SENDING 0).wr F.STRM_STAT_QUEUE 0).sat F.STRM_COUNT_ABORTS).strmEvent 1 n

/-- Create the queue of a Hamper: empty, SEQ 0, credit full (R455, R461). -/
def State.makeQueue (s : State) (n : Nat) : State :=
  (s.updQueue n fun q => { QueueSt.init with live := true, credit := s.qCap n, latWarned := q.latWarned }).wr
    (F.SCHED_QSTAT0_OVER n) 0

/-- The send in progress ends without its packet sent; the whole words that have left count (R477). -/
def State.cutSend (s : State) : State :=
  ((s.wr F.STRM_WORDS (s.rd F.STRM_WORDS + (if s.on F.STRM_STAT_SENDING then s.sched.nib / 8 else 0))).wr
    F.STRM_STAT_SENDING 0).wr F.STRM_STAT_QUEUE 0

/-- Release the queue of a Hamper with its packets (R455, R473). What the latency mark has reported outlives it (R467, R476). -/
def State.dropQueue (s : State) (n : Nat) : State :=
  let s := if s.sendingQ n then s.cutSend else s
  let s := { s with sched := { s.sched with items := s.sched.items.filter fun i => decide (i.hamper ≠ n) } }
  (s.updQueue n fun q => { QueueSt.init with latWarned := q.latWarned }).wr (F.SCHED_QSTAT0_OVER n) 0

/-- A queue loses its region and goes on in the rebuilt one with its SEQ and credit; a send is abandoned (R473, R474). -/
def State.loseQueue (s : State) (n : Nat) : State :=
  if !(s.queue n).live then s
  else
    let s := if s.sendingQ n then s.abortSend (s.sched.nib / 8) else s
    (s.updQueue n fun q => { q with pkts := [], gapDue := true }).overEval n

/-- After a publication of the Hamper's quota, rate and burst (R462): the credit is clamped to the new cap. -/
def State.retuneQueue (s : State) (n : Nat) : State :=
  (s.updQueue n fun q => if q.live then { q with credit := min q.credit (s.qCap n) } else q).overEval n

/-- A queue follows the publication of its Hamper (R455, R462). -/
def State.queueEval (s : State) (n : Nat) (lost : Bool) : State :=
  let want := s.placed n && decide (0 < (s.ham n).qIn)
  let have_ := (s.queue n).live
  if want && !have_ then s.makeQueue n
  else if !want && have_ then s.dropQueue n
  else if want then (if lost then s.loseQueue n else s).retuneQueue n
  else s

/-- RUN follows EN and the radio state (R472). -/
def State.strmEval (s : State) : State :=
  let s := s.wr F.STRM_STAT_RUN (b2n (s.en .strm && decide (2 ≤ s.radio)))
  s.wr F.STRM_STAT_FALLBACK (b2n (s.clk.rootLost && s.en .strm && decide (2 ≤ s.radio)))

/-- The port stops at once (R472). -/
def State.strmStop (s : State) : State := s.cutSend.strmEval

/-- A root loss puts a running port on the fallback clock (R472, R475). -/
def State.strmLoss (s : State) : State :=
  let s := s.strmEval
  if s.on F.STRM_STAT_FALLBACK then s.strmEvent 2 0 else s

/-- Every queue is discarded at Standby entry, counted and reported once (R473). -/
def State.dropAllQueues (s : State) : State :=
  let live := (s.sched.queues.filter fun x => x.2.live).map (·.1)
  let n := s.sched.queues.foldl (fun n x => n + x.2.pkts.length) 0
  let s := (s.each live State.dropQueue).sat F.SCHED_COUNT_STANDBY_LOST n
  if live.isEmpty then s else s.schedEvent 5 0

end Sys2Proof.Machine
end

