-- ==== Sys2Proof/Machine/AudOps.lean ====
section
/-! DEFINITION. Audio ports: routing, compaction and the changes that wait for a zero crossing (R386 to R394). -/
namespace Sys2Proof.Machine
open Sys2Proof

/-- A port as reset leaves it. -/
def AudSt.init : AudSt :=
  { staged := false, group := false, correct := 0, framed := false, pos := 0, level := 4, zc := [], muteL := 0, muteR := 0, feeds := [],
    fromL := [], fromR := [], balls := .off, last := [], frame := [] }

def State.port (s : State) (n : Nat) : AudSt := tget AudSt.init s.aud n

def State.updAud (s : State) (n : Nat) (f : AudSt → AudSt) : State :=
  { s with aud := tput AudSt.init s.aud n (f (s.port n)) }

/-- A port sends frames. -/
def State.audRun (s : State) (n : Nat) : Bool := s.on (F.AUD_STAT_RUN n)

/-- Slots per frame N (R380). -/
def State.audSlots (s : State) (n : Nat) : Nat := 2 * 2 ^ s.rd (F.AUD_CFG_SLOTS n)

/-- Hamper `h` names port `n` and pair `p` in the request in force (R386). -/
def State.namesPair (s : State) (h n p : Nat) : Bool :=
  let d := (s.ham h).req.dest
  s.placed h && decide (h < 128) && bit d 31 && decide (d / 2 ^ 28 % 4 = n) && decide (d / 2 ^ 24 % 16 = p)

/-- The placed Hampers that name a pair, in ascending order. -/
def State.pairHampers (s : State) (n p : Nat) : List Nat :=
  (s.place.live.hams.map (·.1)).filter fun h => s.namesPair h n p

/-- Owner of a pair: the highest PRIORITY, then the lowest index (R387). -/
def State.pairOwner (s : State) (n p : Nat) : Option Nat :=
  (s.pairHampers n p).foldl (fun best h =>
    match best with
    | none => some h
    | some g => if (s.ham g).req.prio < (s.ham h).req.prio then some h else some g) none

/-- Physical slot of a logical slot under the mask in use: the k-th active slot (R388). -/
def State.physSlot (s : State) (n k : Nat) : Option Nat :=
  (bitsOf (s.audSlots n) (s.rd (F.AUD_SLOT_MASK_ACTIVE n)))[k]?

/-- The mapping of ROUTE[p] follows the mask in use (R388, R389). -/
def State.showPhys (s : State) (n : Nat) : State :=
  s.each (List.range 8) fun s p =>
    let l := s.physSlot n (2 * p)
    let r := s.physSlot n (2 * p + 1)
    if s.on (F.AUD_ROUTE_VALID n p) then
      ((s.wr (F.AUD_ROUTE_PHYS_L n p) (l.getD 0)).wr (F.AUD_ROUTE_PHYS_VALID n p) (b2n l.isSome)).wr
        (F.AUD_ROUTE_PHYS_R n p) (r.getD 0)
    else ((s.wr (F.AUD_ROUTE_PHYS_L n p) 0).wr (F.AUD_ROUTE_PHYS_VALID n p) 0).wr (F.AUD_ROUTE_PHYS_R n p) 0

/-- ROUTE[p].FADING: the owner blends, or a change of the pair waits (R399). -/
def State.showFading (s : State) (n p : Nat) : State :=
  let blend := s.on (F.AUD_ROUTE_VALID n p) && (s.ham (s.rd (F.AUD_ROUTE_HAMPER n p))).alt.isSome
  let waits := (s.port n).zc.any fun z => decide (z.pair = p)
  s.wr (F.AUD_ROUTE_FADING n p) (b2n (s.on (F.AUD_ROUTE_VALID n p) && (blend || waits)))

/-! ### Streams (R271, R371, R386) -/

def AdecHam.init : AdecHam :=
  { bad := 0, known := false, muted := false, fade := false, drc := false, format := 0, channels := 0, srIn := 0, kbps := 0 }

/-- The stream of Hamper `h` from chain `id`. -/
def State.adecHam (s : State) (h id : Nat) : AdecHam := tget AdecHam.init s.adec.hams (128 * id + h)
def State.updAdec (s : State) (h id : Nat) (f : AdecHam → AdecHam) : State :=
  { s with adec := { s.adec with hams := tput AdecHam.init s.adec.hams (128 * id + h) (f (s.adecHam h id)) } }

/-- The chain that supplies the sound of Hamper `h`: during a blend the one being faded out (R348). -/
def State.soundId (s : State) (h : Nat) : Option Nat := (s.ham h).alt.orElse fun _ => (s.ham h).chain

/-- The sound of Hamper `h` is muted by its engine or its audio decoder (R271, R371). -/
def State.soundMuted (s : State) (h : Nat) : Bool :=
  match (s.soundId h).bind s.place.live.find with
  | none => false
  | some c => if isAna c.bearer then decide (s.engState (17 + c.main.eng) ≠ 3) else (s.adecHam h c.id).muted

/-- A pair is to be silent: muted by AUD.MUTE, or its source is. -/
def State.pairMuted (s : State) (n p : Nat) : Bool :=
  let feed := tget 0 (s.port n).feeds p
  bit (s.rd (F.AUD_MUTE_PAIRS n)) p || (decide (feed ≠ 0) && s.soundMuted (feed - 1))

/-- Its source has been muted or unmuted, and no change of the pair waits. -/
def State.pairStale (s : State) (n p : Nat) : Bool :=
  let a := s.port n
  (decide (bit a.muteL p ≠ s.pairMuted n p) || decide (bit a.muteR p ≠ s.pairMuted n p)) && !a.zc.any fun z => decide (z.pair = p)

/-- A change that waits takes effect on a channel: the feed of the pair, the mute of AUD.MUTE and that of its source reach it
(R394). -/
def State.zcApply (s : State) (n p : Nat) (right : Bool) : State :=
  let feed := tget 0 (s.port n).feeds p
  let put (v : Nat) : Nat := if s.pairMuted n p then setBit v p else clrBit v p
  s.updAud n fun a =>
    if right then { a with muteR := put a.muteR, fromR := tput 0 a.fromR p feed }
    else { a with muteL := put a.muteL, fromL := tput 0 a.fromL p feed }

/-- Ask for a change of a pair at a zero crossing. A second change replaces the first; a port that sends no frames makes
it at once (R394; assumption 10). -/
def State.zcAsk (s : State) (n p : Nat) : State :=
  let s :=
    if s.audRun n then
      s.updAud n fun a => { a with zc := (a.zc.filter fun z => decide (z.pair ≠ p)) ++ [{ pair := p, left := true, right := true }] }
    else (s.zcApply n p false).zcApply n p true
  s.showFading n p

/-- The pairs of a port follow the placements (R386, R387): a new feed is a route change, and a source that is silent where it was not a
mute, under R394. -/
def State.audEval (s : State) (n : Nat) : State :=
  let s := s.each (List.range 8) fun s p =>
    let l := s.pairHampers n p
    let o := s.pairOwner n p
    let feed := match o with | some h => h + 1 | none => 0
    let s := (s.wr (F.AUD_ROUTE_VALID n p) (b2n o.isSome)).wr (F.AUD_ROUTE_HAMPER n p) (o.getD 0)
    let put (f : Fld) (b : Bool) (s : State) : State := s.wr f (if b then setBit (s.rd f) p else clrBit (s.rd f) p)
    let s := put (F.AUD_STAT_ROUTED n) o.isSome s
    let s := put (F.AUD_STAT_CONFLICT n) (decide (1 < l.length)) s
    if tget 0 (s.port n).feeds p = feed then (if s.pairStale n p then s.zcAsk n p else s.showFading n p)
    else (s.updAud n fun a => { a with feeds := tput 0 a.feeds p feed }).zcAsk n p
  s.showPhys n

def State.audEvalAll (s : State) : State := s.each (List.range 4) State.audEval

/-- The sound of Hamper `h` is muted or unmuted by its engine or decoder, or ends a crossfade: a change of each pair it
feeds (R271, R364, R371, R394). -/
def State.audChange (s : State) (h : Nat) : State :=
  s.each (List.range 4) fun s n => s.each (List.range 8) fun s p =>
    if tget 0 (s.port n).feeds p = h + 1 then s.zcAsk n p else s

end Sys2Proof.Machine
end

