-- ==== Sys2Proof/Machine/Scan.lean ====
section
/-! DEFINITION. The frequencies of a scan (R239, R374). -/
namespace Sys2Proof.Machine
open Sys2Proof

/-- Accepted ranges of a bearer, ascending (R239). -/
def bearerRanges (b : Nat) : List (Nat × Nat) :=
  if b = 0 then [(144000, 288000), (522000, 1710000), (2300000, 26100000)]
  else if b = 1 then [(64000000, 108000000)]
  else if b = 2 then [(174000000, 240000000), (1452000000, 1492000000)]
  else if b = 3 then [(144000, 26100000)]
  else if b = 4 then [(47000000, 68000000), (87500000, 108000000), (174000000, 240000000)]
  else [(174000000, 240000000), (470000000, 862000000)]

/-- Channel centres of EN 300 401 in kHz: Band III, then L-band. (assumption 13) -/
def dabRaster : List Nat :=
  [174928, 176640, 178352, 180064, 181936, 183648, 185360, 187072, 188928, 190640, 192352, 194064, 195936, 197648, 199360,
   201072, 202928, 204640, 206352, 208064, 209936, 210096, 211648, 213360, 215072, 216928, 217088, 218640, 220352, 222064,
   223936, 224096, 225648, 227360, 229072, 230784, 232496, 234208, 235776, 237488, 239200] ++
  (List.range 23).map fun k => 1452960 + 1712 * k

/-- The first frequency above `f` on the grid `f + k × step` that lies in an accepted range (R374). -/
def stepFrom (b f step : Nat) : Option Nat :=
  (bearerRanges b).findSome? fun r =>
    let g := if r.1 ≤ f + step then f + step else f + (r.1 - f + step - 1) / step * step
    if g ≤ r.2 then some g else none

/-- The next step of a scan (R374). -/
def scanNext (b f step : Nat) : Option Nat :=
  if step ≠ 0 then stepFrom b f step
  else if b = 0 then stepFrom b f 9000
  else if b = 1 ∨ b = 4 then stepFrom b f 100000
  else if b = 2 then (dabRaster.map (· * 1000)).find? fun g => decide (f < g)
  else if b = 3 then stepFrom b f 5000
  else (((List.range 9).map fun k => 177500000 + 7000000 * k) ++ ((List.range 49).map fun k => 474000000 + 8000000 * k)).find?
    fun g => decide (f < g)

end Sys2Proof.Machine
end

