-- ==== Sys2Proof/Machine/EngOps.lean ====
section
/-! DEFINITION. Engines: what they hold, how they start, return to Search and stop (R267 to R315). Key 1 + e is OFDM
engine e, key 17 + e analogue engine e. -/
namespace Sys2Proof.Machine
open Sys2Proof

def RdsStream.init : RdsStream :=
  { sync := false, seek := [], bit := 0, pos := 0, bads := [], grp := [], cPrime := false, start := 0 }

/-- Silence. -/
def AnaAudio.off : AnaAudio := { on := false, sepNum := 0, sepDen := 1, attNum := 0, attDen := 1 }

def AnaSt.init : AnaSt :=
  { det := 0, lock := 0, low := 0, timedOut := false, quals := [], pilots := 0, lastPi := none, pi := none, capture := false,
    rds := [], fm := 0, am := 0, rdsCfg := 0, bwDue := none, nbSlot := 0, nb0 := 0, nb1 := 0, buffer := 0, fills := [],
    audio := AnaAudio.off, audioTo := AnaAudio.off }

/-- What a return to Search leaves of an engine: the settings in force, and the counts of the blanker. -/
def AnaSt.cleared (a : AnaSt) : AnaSt :=
  { AnaSt.init with fm := a.fm, am := a.am, rdsCfg := a.rdsCfg, nbSlot := a.nbSlot, nb0 := a.nb0, nb1 := a.nb1, buffer := a.buffer }

def OfdmSt.init : OfdmSt :=
  { miss := 0, timedOut := false, resid := false, fibs := 0, fac := 0, qam := 0, span := 0, quals := [], entered := 0, est := [],
    erased := false, freq := 0, pos := 0, trimmed := false, start := none, cells := [], prev := [], phase := [], win := [], soft := [] }

def State.anaS (s : State) (e : Nat) : AnaSt := tget AnaSt.init s.ana e
def State.updAna (s : State) (e : Nat) (f : AnaSt → AnaSt) : State := { s with ana := tput AnaSt.init s.ana e (f (s.anaS e)) }
def State.ofdmS (s : State) (e : Nat) : OfdmSt := tget OfdmSt.init s.ofdm e
def State.updOfdm (s : State) (e : Nat) (f : OfdmSt → OfdmSt) : State :=
  { s with ofdm := tput OfdmSt.init s.ofdm e (f (s.ofdmS e)) }

/-- The lanes that feed engine key `k`. -/
def State.lanesOfEng (s : State) (k : Nat) : List Nat :=
  (s.lanes.filter fun p => decide (p.2.engine = k) && p.2.run).map (·.1)

/-- The Hampers whose sound or service comes from chain `id` now: during a blend, from the chain being faded out. -/
def State.servedBy (s : State) (id : Nat) : List Nat :=
  (s.place.live.hams.filter fun x => decide (x.1 < 128) &&
    (decide (x.2.alt = some id) || (decide (x.2.chain = some id) && x.2.alt.isNone))).map (·.1)

/-- The Hampers whose QUAL engine key `k` reports: those its chain serves with it as the primary. -/
def State.reportsTo (s : State) (k : Nat) : List Nat :=
  match s.chainOnEng k with
  | some c => if engKey c.bearer c.main.eng = k then s.servedBy c.id else []
  | none => []

/-- Report QUAL to the Hampers of an engine (R261, R272, R310): SEQ stays. -/
def State.putQual (s : State) (k q : Nat) : State := s.each (s.reportsTo k) fun s h => s.wr (F.HAMPER_RSTAT_QUAL h) q

/-- Mean of a list, to the nearest whole number, halves upward. (assumption 5) -/
def meanOf (l : List Nat) : Nat := if l.isEmpty then 0 else (2 * l.foldl (· + ·) 0 + l.length) / (2 * l.length)

/-! ### RDS groups (R288) -/

/-- A field of FM_CFG, AM_CFG or RDS_CFG as the window at work has it (R289). -/
def State.anaCfg (s : State) (e : Nat) (f : Fld) : Nat :=
  let a := s.anaS e
  getBits (if f.addr = (F.ANA_FM_CFG_BW_FIX e).addr then a.fm else if f.addr = (F.ANA_AM_CFG_BW_FIX e).addr then a.am else a.rdsCfg)
    f.hi f.lo

/-- A group that is complete is delivered as DELIVER allows, as one record per queue of the chain's members. -/
def State.rdsGroup (s : State) (e k : Nat) (r : RdsStream) : State :=
  let g (i : Nat) : Nat × Nat := r.grp.getD i (4, 0)
  let err (i : Nat) : Nat := (g i).1
  let word (i : Nat) : Nat := if 3 ≤ (g i).1 then 0 else (g i).2
  let d := s.anaCfg e (F.ANA_RDS_CFG_DELIVER e)
  let ok := if d = 0 then decide (err 1 < 3) else decide (d = 1) && (List.range 4).all fun i => decide (err i < 3)
  if ok && decide (s.rd (F.ANA_ASSIGN_MODE e) = 1) then
    let rec4 := [k * 2 ^ 30 + b2n r.cPrime * 2 ^ 29 + err 0 * 0x1000 + err 1 * 0x100 + err 2 * 0x10 + err 3, r.start,
                 word 0 * 0x10000 + word 1, word 2 * 0x10000 + word 3]
    s.each (s.hampersOn (17 + e)) fun s h => s.offer h 2 0 rec4
  else s

/-- Stream `k` of an engine is enabled (R283). -/
def State.rdsOn (s : State) (e k : Nat) : Bool :=
  decide (s.anaCfg e (F.ANA_RDS_CFG_EN e) = 1) && (decide (k = 0) || bit (s.anaCfg e (F.ANA_RDS_CFG_RDS2_EN e)) (k - 1))

/-- A stream loses block sync: a group begun is complete at the loss (R284, R288). -/
def State.rdsLose (s : State) (e k : Nat) : State :=
  let r := tget RdsStream.init (s.anaS e).rds k
  let s := if r.sync && !r.grp.isEmpty then s.rdsGroup e k r else s
  let s := s.updAna e fun a => { a with rds := tput RdsStream.init a.rds k RdsStream.init }
  s.wr (F.ANA_STAT_RDS_SYNC e) (clrBit (s.rd (F.ANA_STAT_RDS_SYNC e)) k)

/-! ### Analogue engines -/

/-- The bandwidth code an engine begins with: 0 in FM, BW_FIX in AM (R281). -/
def State.startBw (s : State) (e : Nat) (am : Bool) : Nat := if am then s.rd (F.ANA_AM_CFG_BW_FIX e) else 0

/-- The engine runs the AM demodulator: it holds or measures an AM carrier, whose lane uses preset 1. -/
def State.isAm (s : State) (e : Nat) : Bool :=
  decide (s.rd (F.ANA_ASSIGN_MODE e) = 2) ||
    (decide (s.rd (F.ANA_ASSIGN_MODE e) = 3) && decide (s.rd (F.LANE_ASSIGN_PRESET (s.rd (F.ANA_ASSIGN_LANE0 e))) = 1))

/-- A bandwidth code is in force: a change raises CFG_CHANGE (R281). -/
def State.bwNow (s : State) (e code : Nat) : State :=
  let s := s.updAna e fun a => { a with bwDue := none }
  if s.rd (F.ANA_STAT_BW_IN_USE e) = code then s else (s.wr (F.ANA_STAT_BW_IN_USE e) code).raise .ana C.ACQ_CFG_CHANGE e

/-- The bank lane `n` uses from its next swap on, or now where none waits. -/
def State.nextBank (s : State) (n : Nat) : BankSt :=
  let l := s.lane n
  if decide (s.rd (F.LANE_STAT_ACTIVE_BANK n) = 0) ≠ l.swapDue then l.bank0 else l.bank1

/-- Bring the engine's lanes to a bandwidth code (R220, R281): those whose bank in force or asked for has another one, or holds the
filter of another preset, load the standby bank and wait for the swap. The banks of an Expert lane are the host's (R210). -/
def State.putBw (s : State) (e code : Nat) : State :=
  let l := (s.lanesOfEng (17 + e)).filter fun n => !s.laneExpert n &&
    (decide ((s.nextBank n).code ≠ code) || decide ((s.nextBank n).preset ≠ (s.lane n).preset))
  if l.isEmpty then s.bwNow e code
  else (s.each l fun s n => s.askSwap n (s.lane n).preset code).updAna e fun a => { a with bwDue := some code }

/-- What a return to Search clears (R271). -/
def State.anaClear (s : State) (e : Nat) : State :=
  let s := s.each (List.range 4) fun s k => s.rdsLose e k
  let was := s.on (F.ANA_STAT_STEREO e)
  let s := ((s.wr (F.ANA_STAT_PILOT e) 0).wr (F.ANA_STAT_STEREO e) 0).wr (F.ANA_STAT_IDENT e) 0
  let s := (s.wr (F.ANA_STAT_PI e) 0).wr (F.ANA_STAT_SYNC_DET e) 0
  let s := if was then s.raise .ana C.ACQ_CFG_CHANGE e else s
  (s.putQual (17 + e) 0).updAna e AnaSt.cleared

/-- An analogue engine leaves its state for another one; from Locked on its sound is mute (R271). -/
def State.anaLeave (s : State) (e st : Nat) : State :=
  let heard := if s.engState (17 + e) = 3 then s.hampersOn (17 + e) else []
  ((s.anaClear e).wr (F.ANA_STAT_STATE e) st).each heard State.audChange

/-- The settings of an engine as they stand written come into force, with the length of its bridge buffer: at its start, and with
each window of 2 ms (R278, R289). An RDS stream that is no longer enabled loses its sync. (assumption 99) -/
def State.anaTake (s : State) (e : Nat) : State :=
  let s := s.updAna e fun a =>
    { a with fm := s.reg (F.ANA_FM_CFG_BW_FIX e).addr, am := s.reg (F.ANA_AM_CFG_BW_FIX e).addr,
             rdsCfg := s.reg (F.ANA_RDS_CFG_EN e).addr, buffer := s.rd (F.ANA_X_NB_BRIDGE_MAX e) }
  s.each ((List.range 4).filter fun k => !s.rdsOn e k && (tget RdsStream.init (s.anaS e).rds k).sync) fun s k => s.rdsLose e k

/-- An analogue engine returns to, or begins, Search (R269, R271, R281). A bandwidth swap that waits is cancelled (R289); the swap of
a preset change stays (R220). -/
def State.anaSearch (s : State) (e : Nat) : State :=
  let first := decide (s.engState (17 + e) = 0)
  let bw := (s.anaS e).bwDue.isSome
  let s := s.anaLeave e 1
  let s := if first then s.anaTake e else s
  let s := s.each (if bw then s.lanesOfEng (17 + e) else []) fun s n =>
    s.updLane n fun l => { l with swapDue := l.swapDue && decide (l.bank0.preset ≠ l.bank1.preset) }
  let code := s.startBw e (s.isAm e)
  let s := if first then s.wr (F.ANA_STAT_BW_IN_USE e) code else s
  (s.putBw e code).agcFollowAll

/-- An analogue engine goes Idle. -/
def State.anaIdle (s : State) (e : Nat) : State :=
  if s.engState (17 + e) = 0 then s
  else (((s.anaLeave e 0).wr (F.ANA_STAT_BW_IN_USE e) 0).wr (F.ANA_QUAL e) 0).agcFollowAll

/-! ### Decoders behind an OFDM engine -/

/-- FEC.FOUND of Hamper `h`: it is resolved on some engine (R319). -/
def State.showFound (s : State) (h : Nat) : State :=
  let f := F.FEC_FOUND_HAMPERS (h / 32)
  s.wr f (if s.fec.res.any (fun r => decide (r.key % 128 = h)) then setBit (s.rd f) (h % 32) else clrBit (s.rd f) (h % 32))

/-- Resolutions that satisfy a test end. -/
def State.unresolveIf (s : State) (gone : ResSt → Bool) : State :=
  let hs := ((s.fec.res.filter gone).map fun r => r.key % 128).eraseDups
  let s := { s with fec := { s.fec with res := s.fec.res.filter fun r => !gone r } }
  s.each hs State.showFound

/-- OFDM engine `e` is not Locked, so no Hamper is resolved on it; the frames of R319 count anew from LOCKED. -/
def State.unresolve (s : State) (e : Nat) : State :=
  let s := { s with fec := { s.fec with tries := s.fec.tries.filter fun x => decide (x.1 / 128 ≠ e) } }
  s.unresolveIf fun r => decide (r.key / 128 = e)

/-- The FEC unit discards an engine's deinterleaver contents and superframe buffers, and what it read of its signalling, and
resolves nothing any more (R319, R334). -/
def State.fecRestart (s : State) (e : Nat) : State :=
  let keep (l : List (Nat × Nat)) : List (Nat × Nat) := l.filter fun x => decide (x.1 / 64 ≠ e)
  let s := { s with fec := { s.fec with deint := keep s.fec.deint, fire := keep s.fec.fire, phase := keep s.fec.phase,
                                        drm := s.fec.drm.filter fun x => decide (x.1 ≠ e),
                                        l1Due := s.fec.l1Due.filter fun x => decide (x ≠ e),
                                        l1 := s.fec.l1.filter fun x => decide (x.1 ≠ e),
                                        l1Drop := s.fec.l1Drop.filter fun x => decide (x ≠ e),
                                        links := s.fec.links.filter fun x => decide (x.eng ≠ e),
                                        vrs := s.fec.vrs.filter fun x => decide (x.1 / 64 ≠ e) } }
  s.unresolve e

/-- What leaving Acquire or Locked clears (R298). -/
def State.ofdmClear (s : State) (e : Nat) : State :=
  let s := ((((s.wr (F.OFDM_STAT_DRM_MODE e) 0).wr (F.OFDM_STAT_DRM_OCC e) 0).wr (F.OFDM_STAT_T2_FFT e) 0).wr
    (F.OFDM_STAT_T2_GI e) 0).wr (F.OFDM_STAT_T2_PP e) 0
  let s := (((s.wr (F.OFDM_STAT_T2_EXT e) 0).wr (F.OFDM_STAT_MODE_VALID e) 0).wr (F.OFDM_SYNC_FREQ_OFS e) 0).wr
    (F.OFDM_SYNC_RATE_ERR e) 0
  let s := ((s.wr (F.OFDM_QUAL e) 0).wr (F.OFDM_QUAL_BEYOND_DB e) 0).wr (F.OFDM_QUAL_MER e) 0
  let s := (s.putQual (1 + e) 0).wr (F.OFDM_STAT_BRANCHES e) 0
  (s.updOfdm e fun _ => OfdmSt.init).fecRestart e

/-- An OFDM engine returns to, or begins, Search (R297). -/
def State.ofdmSearch (s : State) (e : Nat) : State := ((s.ofdmClear e).wr (F.OFDM_STAT_STATE e) 1).agcFollowAll

/-- An OFDM engine goes Idle; SEEN tells of the signal it received and ends with it. (assumption 120) -/
def State.ofdmIdle (s : State) (e : Nat) : State :=
  if s.engState (1 + e) = 0 then s
  else (((s.ofdmClear e).wr (F.OFDM_STAT_STATE e) 0).wr (F.OFDM_STAT_SEEN e) 0).agcFollowAll

/-! ### Engines as their pages show them (R267, R294, R309) -/

def WatchSt.init : WatchSt := { cands := [], next := 0, extra := false, meas := none, scan := 0, cycle := 0 }

def State.watcher (s : State) (w : Nat) : WatchSt := tget WatchSt.init s.watch w
def State.updWatch (s : State) (w : Nat) (f : WatchSt → WatchSt) : State :=
  { s with watch := tput WatchSt.init s.watch w (f (s.watcher w)) }

/-- The lane of a measuring Hamper. -/
def State.watchLane (s : State) (w : Nat) : Option Nat := (s.chainOf w).bind fun c => c.main.br.head?.map Branch.lane

/-- STD of a bearer (R315). -/
def stdOf (b : Nat) : Nat := if b = 2 then 1 else if b = 3 then 2 else if b = 4 then 3 else if b = 5 then 4 else if b = 6 then 5 else 0

/-- IDENT of a confirmed PI: against ID0 of the Hamper as it stands now (R286). -/
def State.identCode (s : State) (e p : Nat) : Nat :=
  let id0 := (s.ham (s.rd (F.ANA_ASSIGN_HAMPER e))).req.id0
  if id0 = 0 ∨ p = id0 % 0x10000 then 1 else 2

/-- ANA.ASSIGN of engine `e`, and IDENT, which follows ID0. -/
def State.showAna (s : State) (e : Nat) : State :=
  let (placed, ham, mode, lanes) := match s.chainOnEng (17 + e) with
    | some c =>
      let h := (s.place.live.top c.id).getD 0
      (1, (if h < 128 then h else (s.ham h).req.link), (if c.bearer = 1 then 1 else 2), c.main.br.map Branch.lane)
    | none => match s.borrowed (17 + e) with
      | some w => (0, 0, 3, (s.watchLane w).toList)
      | none => (0, 0, 0, [])
  let s := ((s.wr (F.ANA_ASSIGN_PLACED e) placed).wr (F.ANA_ASSIGN_HAMPER e) ham).wr (F.ANA_ASSIGN_MODE e) mode
  let s := (s.wr (F.ANA_ASSIGN_LANE0_VALID e) (b2n (decide (0 < lanes.length)))).wr (F.ANA_ASSIGN_LANE0 e) (lanes.getD 0 0)
  let s := (s.wr (F.ANA_ASSIGN_LANE1_VALID e) (b2n (decide (1 < lanes.length)))).wr (F.ANA_ASSIGN_LANE1 e) (lanes.getD 1 0)
  let s := if lanes.length < 2 then
      (((s.wr (F.ANA_DIV_STAT_EXCL0 e) 0).wr (F.ANA_DIV_STAT_EXCL1 e) 0).wr (F.ANA_DIV_STAT_W0 e) 0).wr (F.ANA_DIV_STAT_W1 e) 0
    else s
  let s := match (s.anaS e).pi with
    | some p => s.wr (F.ANA_STAT_IDENT e) (s.identCode e p)
    | none => s
  s.wr (F.ANA_STAT_BRANCHES e) (lanes.length - s.rd (F.ANA_DIV_STAT_EXCL0 e) - s.rd (F.ANA_DIV_STAT_EXCL1 e))

/-- Fields of byte `b` of OFDM.BRANCH. -/
def F.BR_VALID (e b : Nat) : Fld := ⟨0x38044 + 0x1000 * e, 8 * b + 7, 8 * b + 7⟩
def F.BR_EXCL (e b : Nat) : Fld := ⟨0x38044 + 0x1000 * e, 8 * b + 6, 8 * b + 6⟩
def F.BR_LANE (e b : Nat) : Fld := ⟨0x38044 + 0x1000 * e, 8 * b + 4, 8 * b⟩
def F.BR_SNR (e b : Nat) : Fld := ⟨0x38064 + 0x1000 * e, 8 * b + 7, 8 * b⟩

/-- BRANCHES of an OFDM engine: branches in the sums of R306. -/
def State.showSums (s : State) (e : Nat) : State :=
  let n := ((List.range 4).filter fun b =>
    s.on (F.BR_VALID e b) && !s.on (F.BR_EXCL e b) && bit (s.ofdmS e).entered b).length
  s.wr (F.OFDM_STAT_BRANCHES e) n

/-- BRANCH of engine `e` for branches on `lanes`: what the engine holds of a branch that stays moves with it to its place (R308,
R309); a new branch waits for its training. -/
def State.showBranches (s : State) (e : Nat) (lanes : List Nat) : State :=
  let o := s.ofdmS e
  let from_ (b : Nat) : Option Nat := (lanes[b]?).bind fun n =>
    (List.range 4).find? fun c => s.on (F.BR_VALID e c) && decide (s.rd (F.BR_LANE e c) = n)
  let l := (List.range 4).map fun b => (b, from_ b)
  let t := s.each l fun t x =>
    (((t.wr (F.BR_VALID e x.1) (b2n (decide (x.1 < lanes.length)))).wr (F.BR_LANE e x.1) (lanes.getD x.1 0)).wr (F.BR_EXCL e x.1)
      ((x.2.map fun c => s.rd (F.BR_EXCL e c)).getD 0)).wr (F.BR_SNR e x.1) ((x.2.map fun c => s.rd (F.BR_SNR e c)).getD 0)
  t.updOfdm e fun p =>
    { p with entered := l.foldl (fun m x => if x.2.any (bit o.entered ·) then setBit m x.1 else m) 0
             est := o.est.filter fun x => lanes.contains x.1 }

/-- OFDM.ASSIGN and BRANCH of engine `e`. -/
def State.showOfdm (s : State) (e : Nat) : State :=
  let (placed, ham, mode, std, comb, lanes) := match s.chainOnEng (1 + e) with
    | some c =>
      let h := (s.place.live.top c.id).getD 0
      let leg := (c.legs.find? fun (l : Leg) => decide (l.eng = e)).getD c.main
      (1, (if h < 128 then h else (s.ham h).req.link), 1, stdOf c.bearer, b2n c.pair.isSome, leg.br.map Branch.lane)
    | none => match s.borrowed (1 + e) with
      | some w => (0, 0, 2, stdOf (((s.watcher w).meas.map Meas.bearer).getD 0), 0, (s.watchLane w).toList)
      | none => (0, 0, 0, 0, 0, [])
  let s := ((s.wr (F.OFDM_ASSIGN_PLACED e) placed).wr (F.OFDM_ASSIGN_HAMPER e) ham).wr (F.OFDM_ASSIGN_MODE e) mode
  let s := (s.wr (F.OFDM_ASSIGN_STD e) std).wr (F.OFDM_ASSIGN_COMB e) comb
  (s.showBranches e lanes).showSums e

/-- ASSIGN of every engine follows the placements and the borrowings. -/
def State.showEngines (s : State) : State := (s.each (List.range 8) State.showOfdm).each (List.range 16) State.showAna

/-! ### Records (R356) -/

/-- A five-word record. -/
def recWords (type bearer : Nat) (valid detected identOk : Bool) (source qual low freq : Nat) (level snr : Int) (ident last : Nat) :
    List Nat :=
  [type * 2 ^ 28 + bearer * 2 ^ 25 + b2n valid * 2 ^ 24 + b2n detected * 2 ^ 23 + b2n identOk * 2 ^ 22 + source * 2 ^ 18 +
     qual * 0x100 + low, freq, toField 16 level * 0x10000 + toField 16 snr, ident, last]

/-- A Scan Hamper goes on to its next step; after the last, a TYPE 2 record follows and the scan restarts (R374). The
TYPE 2 record has no carrier: its words 1 and 2 are free values. (assumption 1) -/
def State.scanOn (s : State) (w : Nat) : State :=
  let q := (s.ham w).req
  match (scanNext q.bearer (s.watcher w).scan q.step).filter fun g => decide (g ≤ q.stop) with
  | some g => s.updWatch w fun x => { x with scan := g }
  | none =>
    let s := s.updWatch w fun x => { x with scan := q.freq, cycle := (x.cycle + 1) % 256 }
    let (a, s) := s.take
    let (b, s) := s.take
    s.offer w 3 0 [2 * 2 ^ 28 + q.bearer * 2 ^ 25 + (s.watcher w).cycle, a.toNat, b.toNat, 0, s.nowUs]

/-- A measurement ends without a result: counted, and reported with VALID at 0; a scan goes on to its next step (R354, R355, R356,
R374). -/
def State.abandon (s : State) (w : Nat) (m : Meas) : State :=
  let s := s.bump F.PLACE_FOLLOW_CNT2_ABANDONED
  let scan := decide ((s.ham w).req.role = 3)
  let s := s.offer w 3 0 (recWords 1 m.bearer false false false (if scan then 8 else m.source) 0 0 m.freq 0 0 0 s.nowUs)
  s.when scan fun s => s.scanOn w

/-! ### Either kind -/

def State.engSearch (s : State) (k : Nat) : State := if k < 17 then s.ofdmSearch (k - 1) else s.anaSearch (k - 17)
def State.engIdle (s : State) (k : Nat) : State := if k < 17 then s.ofdmIdle (k - 1) else s.anaIdle (k - 17)

/-- An engine that no lane feeds is Idle (R267, R294). -/
def State.engCheck (s : State) (k : Nat) : State := if k ≠ 0 ∧ (s.lanesOfEng k).isEmpty then s.engIdle k else s

/-- Every engine. -/
def engKeys : List Nat := (List.range 24).map (· + 1)

/-- Keys of the engines of cluster `c`. -/
def engsOf (c : Nat) : List Nat := [1 + 2 * c, 2 + 2 * c] ++ (List.range 4).map (17 + 4 * c + ·)

/-- A jump-mode target reaches its lane (R225). -/
def State.jumpDelay (s : State) (n : Nat) : State :=
  let t := s.rd (F.LANE_DELAY_TARGET n)
  let s := s.updLane n fun l => { l with delayDue := false }
  let s := if s.rd (F.LANE_DELAY_NOW n) = t then s else (s.wr (F.LANE_DELAY_NOW n) t).markLaneAt n false .output
  s.raise .lane C.LANE_DELAY_SET n

/-- The delay target an engine wants on lane `n` of its lanes `l`: the largest LATENCY minus its own (R276, R295). -/
def State.wantDelay (s : State) (l : List Nat) (n : Nat) : Nat :=
  (l.foldl (fun m x => max m (s.laneLatency x)) 0 - s.laneLatency n) % 2 ^ 14

/-- The engine aligns its lanes as lane `n` starts: in jump mode, at the starting application's own boundary; a lane of
a running engine whose target changes is slewed, unless `n` is a branch added to it: then an OFDM engine writes no other lane, an
analogue one jumps both (R276, R295). An analogue engine leaves a lane that has no delay and needs none (R276). A slew that runs goes
on over a restart (R232). -/
def State.alignLanes (s : State) (k n : Nat) (added : Bool) : State :=
  let l := s.lanesOfEng k
  s.each l fun s m =>
    let t := s.wantDelay l m
    let there := decide (t = s.rd (F.LANE_DELAY_TARGET m))
    if s.on (F.LANE_STAT_SLEWING m) then (if there then s else s.setDelay m true t)
    else if m = n ∨ (if added then decide (17 ≤ k) else decide (s.engState k ≤ 1)) = true then
      (if 17 ≤ k ∧ t = 0 ∧ s.rd (F.LANE_DELAY_TARGET m) = 0 then s else (s.setDelay m false t).jumpDelay m)
    else if added || there then s
    else s.setDelay m true t

/-- CAL_OFS in 1/64 output samples of lane `n`, whose output rate follows from its chain, halves upward (R530). -/
def State.calShift (s : State) (n : Nat) (ns : Int) : Int :=
  let l := s.lane n
  let c := l.chain
  let num := ns * (64 * rateHz l.rate * 2 ^ 32 : Nat)
  let den : Int := (c.k * 2 ^ c.h * (if c.f2 then 2 else 1) * c.ratio * 10 ^ 9 : Nat)
  (2 * num + den) / (2 * den)

/-- The cascade writes the delay of each lane of an exporting engine, in slew mode: the target of R295 and the calibrated offset
of this device, within the range of a target (R225, R530). -/
def State.alignExport (s : State) (k : Nat) (c : PChain) : State :=
  let e := ((s.place.live.top c.id).getD 128) - 128
  let l := s.lanesOfEng k
  s.each l fun s m =>
    s.setDelay m true (max 0 (min (2 ^ 14 - 1) (s.wantDelay l m + s.calShift m (tget 0 s.casc.ofs e)))).toNat

/-- Engine key `k` is no longer borrowed: the lane that measured with it feeds none. -/
def State.unlend (s : State) (k : Nat) : State :=
  s.each ((s.lanes.filter fun x => decide (x.2.engine = k) && decide (s.engineKey x.1 ≠ k)).map (·.1)) fun s n =>
    s.updLane n fun l => { l with engine := 0 }

/-- A placement takes engine key `k` from the measurement that borrowed it: that is abandoned, and the engine begins from Idle
(R268, R294, R354). -/
def State.takeEngine (s : State) (k : Nat) : State :=
  match s.borrowed k with
  | none => s
  | some w => match (s.watcher w).meas with
    | none => s
    | some m => ((((s.abandon w m).updWatch w fun x => { x with meas := none }).unlend k).engIdle k).showEngines

/-- The consequences of an application or restart of lane `n`, whose engine was `old` (R269, R276, R295, R297, R309). Any start of a
lane returns an analogue engine to Search; a branch added to a running OFDM engine does not. An engine with EN at 0 stays Idle (R290,
R313). The delay of a measuring lane is no concern of the engine it borrows. An exporting engine does not acquire, and the cascade
aligns its lanes (R530). -/
def State.laneApplied (s : State) (n old : Nat) : State :=
  let k := (s.lane n).engine
  let joins := (s.lane n).joins
  let s := s.updLane n fun l => { l with joins := false }
  let s := if old ≠ k then s.engCheck old else s
  let s := s.when (s.laneHeld n) fun s => s.takeEngine k
  if k = 0 ∨ !(s.lane n).run then s.engCheck old
  else if !s.engEn k then s
  else match (s.chainOnEng k).filter fun c => decide (c.use = .remote) with
    | some c => s.alignExport k c
    | none =>
      let added := joins && decide (1 ≤ s.engState k)
      let s := s.when (s.laneHeld n) fun s => s.alignLanes k n added
      if added && decide (k < 17) then s else s.engSearch k

end Sys2Proof.Machine
end

