-- ==== Sys2Proof/Machine/FecOps.lean ====
section
/-! DEFINITION. What the decoders and the audio decode engines do for other blocks: blocks, bindings, combining
(R335 to R343, R368 to R373). -/
namespace Sys2Proof.Machine
open Sys2Proof

/-- A decoded block (R339). `corrected`: it needed a correction or more than one pass; `intact`: its CRC-32C holds where
it is next verified. -/
structure Block where
  kind : Nat
  check : Nat             -- 0 no broadcast check, 1 passed, 2 failed
  uncorr : Bool
  erased : Bool
  combined : Bool
  iter : Nat
  engine : Nat
  counter : Nat
  stream : Nat
  pad : Nat
  payload : List Nat
  corrected : Bool
  intact : Bool

/-- The header words and the payload (R339). -/
def Block.words (b : Block) : List Nat :=
  (b.kind % 16 * 2 ^ 28 + b.check % 4 * 2 ^ 26 + b2n b.uncorr * 2 ^ 25 + b2n b.erased * 2 ^ 24 + b2n b.combined * 2 ^ 23 +
    b.iter % 128 * 2 ^ 16 + b.engine % 16 * 2 ^ 12 + b.payload.length % 4096) ::
  (b.counter % 65536 * 2 ^ 16 + b.stream % 256 * 2 ^ 8 + b.pad % 4 * 2 ^ 6) :: b.payload

/-- The block carries one of the two flags of R340. -/
def Block.bad (b : Block) : Bool := b.uncorr || decide (b.check = 2)

/-- Capture an event in FEC.LAST_BAD until VALID is cleared (R343). -/
def State.lastBad (s : State) (cause kind : Nat) (ldpc : Bool) (unit h stream : Nat) : State :=
  if s.on F.FEC_LAST_BAD_VALID then s
  else ((((((s.wr F.FEC_LAST_BAD_VALID 1).wr F.FEC_LAST_BAD_CAUSE cause).wr F.FEC_LAST_BAD_KIND kind).wr
    F.FEC_LAST_BAD_UTYPE (b2n ldpc)).wr F.FEC_LAST_BAD_UNIT unit).wr F.FEC_LAST_BAD_HAMPER h).wr F.FEC_LAST_BAD_STREAM stream

/-- Raise the cause a block calls for: UNCORR, else CRC_FAIL on a failed broadcast check (R339). -/
def State.blockCause (s : State) (b : Block) (ldpc : Bool) (unit h : Nat) : State :=
  if b.uncorr then (s.lastBad C.FEC_UNCORR b.kind ldpc unit h b.stream).raise .fec C.FEC_UNCORR
  else if b.check = 2 then (s.lastBad C.FEC_CRC_FAIL b.kind ldpc unit h b.stream).raise .fec C.FEC_CRC_FAIL
  else s

/-- A block of Hamper `h` discarded and counted as uncorrectable, with what LAST_BAD captures of it (R327, R333, R334, R343, R345). -/
def State.blockLost (s : State) (h kind : Nat) (ldpc : Bool) (unit stream : Nat) : State :=
  ((s.lastBad C.FEC_UNCORR kind ldpc unit h stream).bump (F.FEC_HSTAT0_BLOCKS_BAD h)).raise .fec C.FEC_UNCORR

/-- What re-encoding a decoded block of engine `e` shows enters the estimate of the present second; a block with UNCORR does not
(R342). -/
def State.berNote (s : State) (e : Nat) (f : Flips) (uncorr : Bool) : State :=
  let (n, w) := tget (0, 0) s.fec.ber e
  if uncorr then s else { s with fec := { s.fec with ber := tput (0, 0) s.fec.ber e (n + f.bits, w + f.wrong) } }

/-- The level of BER_WARN (R342). -/
def State.berEval (s : State) : State :=
  s.level .fec C.FEC_BER_WARN ((List.range 8).any fun e => decide (10 * s.rd F.FEC_BER_CFG_WARN < s.rd (F.FEC_BER e)))

/-- The block goes to the Hamper's queue (R340, R458). -/
def State.queueBlock (s : State) (h : Nat) (b : Block) : State := s.offer h 1 b.pad b.words b.intact

/-- The audio decode engine that takes the sound of chain `id` for Hamper `h` (R368). -/
def State.adecFor (s : State) (h id : Nat) : Option Nat :=
  if (s.ham h).chain = some id then (s.ham h).adec else (s.ham h).adecAlt

/-- The audio decode engines stop their work for cluster `c` at the frame boundary (R27): what waits of its chains, and of input
regions in its banks, is dropped. -/
def State.adecStop (s : State) (c : Nat) : State :=
  let stays (x : AdecIn) : Bool :=
    !((s.place.live.find x.chain).any fun d => decide (d.clus = c)) && !((s.ham x.ham).region.any fun r => decide (r.clus = c))
  { s with adec := { s.adec with ready := s.adec.ready.filter stays } }

/-- Deliver a block of chain `id` to one Hamper (R325, R340, R343): counts, its audio frames with their checks, the queue. -/
def State.deliver (s : State) (id h : Nat) (b : Block) (aus : List (Option Bool)) : State :=
  let s := if b.bad then s.bump (F.FEC_HSTAT0_BLOCKS_BAD h) else s.bump (F.FEC_HSTAT0_BLOCKS_OK h)
  let s := if b.corrected then s.bump (F.FEC_HSTAT1_CORRECTED h) else s
  let s := match s.adecFor h id with
    | some e =>
      let due := aus.map fun c => ({ eng := e, ham := h, chain := id, uncorr := b.uncorr, check := c } : AdecIn)
      { s with adec := { s.adec with ready := s.adec.ready ++ due } }
    | none => s
  if b.bad && !s.on F.FEC_OUT_CFG_PASS_BAD then s else s.queueBlock h b

/-- The Viterbi/RS unit of an OFDM engine, or for L1 the LDPC/BCH unit that decodes it, that of the chain's top member. -/
def State.sigUnit (s : State) (k : Nat) (ldpc : Bool) : Nat :=
  if ldpc then
    (match s.chainOnEng k with | some c => (s.place.live.top c.id).bind fun h => (s.ham h).ldpc | none => none).getD 0
  else (k - 1) / 2

/-- A signalling block goes to the queue of every member while SIG_OUT is 1 and its check passed (R340). -/
def State.deliverSig (s : State) (k : Nat) (b : Block) : State :=
  let s := s.blockCause b (decide (b.kind = 8)) (s.sigUnit k (decide (b.kind = 8))) (s.rd (F.OFDM_ASSIGN_HAMPER b.engine))
  if s.on F.FEC_OUT_CFG_SIG_OUT ∧ b.check = 1 then s.each (s.hampersOn k) fun s h => s.queueBlock h b else s

/-- What OFDM engine `e` has resolved for Hamper `h` (R319, R326). -/
def State.resOn (s : State) (e h : Nat) : Option ResSt := s.fec.res.find? fun r => decide (r.key = 128 * e + h)

/-- What chain `c` has resolved for Hamper `h`, on any of its legs. -/
def State.resOf (s : State) (c : PChain) (h : Nat) : Option ResSt := c.legs.findSome? fun l => s.resOn l.eng h

/-- A frame of a Locked engine has passed: it counts for each Hamper of its chain that it has not resolved (R319). -/
def State.countTries (s : State) (e : Nat) : State :=
  s.each ((s.hampersOn (1 + e)).filter fun h => (s.resOn e h).isNone) fun s h =>
    { s with fec := { s.fec with tries := tput 0 s.fec.tries (128 * e + h) (min 11 (tget 0 s.fec.tries (128 * e + h) + 1)) } }

/-! ### Ensemble Combining (R336, R337) -/

/-- Combining ends (R337). -/
def State.combOff (s : State) (u reason : Nat) : State :=
  let s := { s with fec := { s.fec with combRun := tput 0 s.fec.combRun u 0 } }
  if s.on (F.FEC_COMB_STAT_ACTIVE u) then
    ((((s.wr (F.FEC_COMB_STAT_ACTIVE u) 0).wr (F.FEC_COMB_STAT_OFF_REASON u) reason).wr (F.FEC_COMB_STAT_SKEW u) 0).wr
      (F.FEC_COMB_STAT_SHARE_B u) 0).raise .fec C.FEC_COMB_OFF
  else s

/-- The combining pair of unit `u`. -/
def State.pairOn (s : State) (u : Nat) : Option PChain :=
  s.place.live.chains.find? fun c => decide (c.clus = u) && decide (c.use = .held) && c.pair.isSome

/-- A leg of a pair was retuned by a publication: combining ends, to resume under R336 (R337). -/
def State.combRetuned (s : State) (old : Plan) : State :=
  s.each (List.range 4) fun s u =>
    match s.pairOn u with
    | some c => (match old.find c.id with
      | some d => if c.legs.map (·.freq) = d.legs.map (·.freq) then s else s.combOff u 5
      | none => s)
    | none => s

/-! ### LDPC/BCH units (R332, R333) -/

def LdpcSt.init : LdpcSt := { fifo := [], cur := none, turn := [] }

def State.ldpc (s : State) (u : Nat) : LdpcSt := tget LdpcSt.init s.fec.ldpc u

def State.updLdpc (s : State) (u : Nat) (f : LdpcSt → LdpcSt) : State :=
  { s with fec := { s.fec with ldpc := tput LdpcSt.init s.fec.ldpc u (f (s.ldpc u)) } }

/-- BACKLOG and CAPPED of a unit follow its FIFOs (R333). -/
def State.ldpcShow (s : State) (u : Nat) : State :=
  let n := (s.ldpc u).fifo.length
  (s.wr (F.FEC_LDPC_STAT_BACKLOG u) n).wr (F.FEC_LDPC_STAT_CAPPED u) (b2n (decide (s.rd F.FEC_X_LDPC_LOAD_THR < n)))

/-- KIND of the packets of a T2 Hamper (R240, R339). -/
def State.t2Kind (s : State) (h : Nat) : Nat := 9 + (s.ham h).req.id1 % 2

/-- Block `b` of LDPC/BCH unit `u` is discarded and counted as uncorrectable: of its Hamper, or, for L1, which has none, as the
cause alone (R62, R334, R343, R345; assumption 101). -/
def State.lblockLost (s : State) (u : Nat) (b : LBlock) : State :=
  if b.who < 128 then s.blockLost b.who (s.t2Kind b.who) true u b.plp
  else (s.lastBad C.FEC_UNCORR 8 true u (s.rd (F.OFDM_ASSIGN_HAMPER b.eng)) b.plp).raise .fec C.FEC_UNCORR

/-- The blocks that the Viterbi/RS units have partly decoded are discarded and counted as uncorrectable (R62, R345). -/
def State.vrsCut (s : State) (l : List VrsCut) : State :=
  if s.en .fec then
    s.each (l.filter fun x => (s.chainOf x.ham).any fun c => usesVrs c.bearer) fun s x =>
      s.blockLost x.ham x.kind false (((s.chainOf x.ham).map fun c => c.clus).getD 0) x.stream.toNat
  else s

/-- Discard the waiting blocks of a unit that satisfy a test; they count as uncorrectable (R334, R345). -/
def State.ldpcDiscard (s : State) (u : Nat) (gone : LBlock → Bool) : State :=
  let l := (s.ldpc u).fifo.filter gone
  let s := s.updLdpc u fun x => { x with fifo := x.fifo.filter fun b => !gone b }
  let s := s.each l (·.lblockLost u ·)
  s.ldpcShow u

/-! ### Bindings after a publication -/

/-- FEC registers follow the placements: bindings, pairs, and what is no longer resolved (R319, R334, R335, R337). -/
def State.fecEval (s : State) : State :=
  let hs := s.place.live.hams.filter fun x => decide (x.1 < 128)
  let s := s.each [0, 1] fun s u =>
    let s := s.wr (F.FEC_LDPC_STAT_BOUND u) ((hs.filter fun x => decide (x.2.ldpc = some u)).length)
    let bound (b : LBlock) : Bool := decide (128 ≤ b.who) || (s.ham b.who).ldpc.isSome
    let s := s.updLdpc u fun x => { x with fifo := x.fifo.filter bound }
    s.ldpcShow u
  let s := s.each (List.range 4) fun s u =>
    let p := (s.pairOn u).isSome
    let s := if p then s else s.combOff u 5
    s.wr (F.FEC_COMB_STAT_PAIRED u) (b2n p)
  s.unresolveIf fun r => !(s.hampersOn (1 + r.key / 128)).contains (r.key % 128)

/-- ADEC.HSTAT of Hamper `h` shows the stream that supplies its sound (R371, R372). -/
def State.showAdec (s : State) (h : Nat) : State :=
  let a := match s.soundId h with | some id => s.adecHam h id | none => AdecHam.init
  ((((s.wr (F.ADEC_HSTAT0_MUTED h) (b2n a.muted)).wr (F.ADEC_HSTAT0_FORMAT h) a.format).wr (F.ADEC_HSTAT0_CHANNELS h) a.channels).wr
    (F.ADEC_HSTAT0_SR_IN h) a.srIn).wr (F.ADEC_HSTAT0_KBPS h) a.kbps

/-- The audio decode engine that a Hamper's request binds to chain `id`. -/
def HamSt.adecOf (q : HamSt) (id : Nat) : Option Nat :=
  if q.chain = some id then q.adec else if q.alt = some id then q.adecAlt else none

/-- Audio decode bindings follow the placements: an unbound Hamper shows FORMAT none, a new binding starts afresh
(R372, R379). -/
def State.adecEval (s : State) (old : Plan) : State :=
  s.each ((s.place.live.hams ++ old.hams).map (·.1)) fun s h =>
    let q := s.ham h
    let o := old.ham h
    if 128 ≤ h ∨ (q.adec = o.adec ∧ q.adecAlt = o.adecAlt ∧ q.chain = o.chain ∧ q.alt = o.alt) then s
    else
      let stays (id : Nat) : Bool := (q.adecOf id).isSome && decide (q.adecOf id = o.adecOf id)
      let s := { s with adec := { s.adec with
        ready := s.adec.ready.filter fun x => decide (x.ham ≠ h) || decide (q.adecOf x.chain = some x.eng)
        hams := s.adec.hams.filter fun x => decide (x.1 % 128 ≠ h) || stays (x.1 / 128) } }
      (s.wr (F.ADEC_HSTAT0_ENGINE h) (q.adec.getD 0)).showAdec h

end Sys2Proof.Machine
end

