-- ==== Sys2Proof/Machine/ClusOps.lean ====
section
/-! DEFINITION. Cluster power as other blocks drive it (R83 to R87). -/
namespace Sys2Proof.Machine
open Sys2Proof

/-- The contents of a cluster's banks are lost. -/
def State.loseBanks (s : State) (c : Nat) : State := s.clearMem (bankAddr (12 * c)) (bankAddr (12 * c + 12))

/-- The lanes of a cluster that stops send nothing: a run of UNSETTLED samples ends with them. -/
def State.stopClusLanes (s : State) (c : Nat) : State :=
  s.each ((List.range 6).map (6 * c + ·)) fun s n =>
    let s := s.updLane n fun l =>
      { l with runMarked := false, runSettles := false, run := false, stopped := l.stopped || l.run, due := l.due || l.run,
               dsp := { l.dsp with due := false } }
    s.laneSync n

/-- A cluster loses its power: clocks, lanes, engines and banks (R83, R85, R102). FEC blocks of its engines that wait at
an LDPC/BCH unit are discarded (R334), the sound that waits for an audio decode engine is dropped (R27). -/
def State.clusDown (s : State) (c pow : Nat) : State :=
  let s := ((s.wr (F.CLUS_STAT_POWER c) pow).updClu c fun k => { k with bankReady := false }).loseBanks c
  let s := s.each [0, 1] fun s u => s.ldpcDiscard u fun b => decide (b.eng / 2 = c)
  ((s.adecStop c).stopClusLanes c).each (engsOf c) State.engIdle

/-- A power-up of a cluster begins (R83, R86). POWER_UPS counts with it; EN at 0 of the CLUS page freezes it (R97). -/
def State.clusUp (s : State) (c : Nat) : State :=
  let s := (s.wr (F.CLUS_STAT_POWER c) 1).updClu c fun k => { k with bankReady := false }
  if s.en .clus c then s.bump (F.CLUS_COUNT_POWER_UPS c) else s

/-- The power of an unfenced cluster follows the radio state, IDLE_OFF and its use (R72, R83). -/
def State.clusEval (s : State) (c : Nat) : State :=
  if s.fenced c then s
  else
    let want := decide (2 ≤ s.radio) && (!s.on F.PWR_CLUS_CTRL_IDLE_OFF || s.place.live.usesClus c)
    if want && decide (s.cpow c = 0) then s.clusUp c
    else if !want && decide (1 ≤ s.cpow c) && decide (s.cpow c ≤ 4) then s.clusDown c 0
    else s

def State.clusEvalAll (s : State) : State := s.each (List.range 4) State.clusEval

end Sys2Proof.Machine
end

