-- ==== Sys2Proof/Machine/Place.lean ====
section
/-! DEFINITION. How PLACE decides: validation, order, minimum placements, displacement, branches and pins
(R239 to R260). Every function here works on a plan and reads the device's state only for what is available. -/
namespace Sys2Proof.Machine
open Sys2Proof

/-! ### Bearers (R239) -/

/-- Lane preset of a bearer. -/
def bearerPreset (b : Nat) : Nat := b + 1

/-- Channel width B in Hz. -/
def bearerWidth (b : Nat) : Nat := [20000, 400000, 1536000, 20000, 100000, 7000000, 8000000].getD b 0

/-- L-band, received in the second Nyquist zone (R198). -/
def isLband (f : Nat) : Bool := decide (1452000000 ≤ f) && decide (f ≤ 1492000000)

/-- A frequency is accepted for a bearer (R239). -/
def accepted (b f : Nat) : Bool :=
  let r (lo hi : Nat) : Bool := decide (lo ≤ f) && decide (f ≤ hi)
  if b = 0 then r 144000 288000 || r 522000 1710000 || r 2300000 26100000
  else if b = 1 then r 64000000 108000000
  else if b = 2 then r 174000000 240000000 || isLband f
  else if b = 3 then r 144000 26100000
  else if b = 4 then r 47000000 68000000 || r 87500000 108000000 || r 174000000 240000000
  else if b ≤ 6 then r 174000000 240000000 || r 470000000 862000000
  else false

/-- Working banks of a chain (R239). -/
def bearerBanks (b : Nat) (pair : Bool) : Nat :=
  if b < 2 then 0 else if b = 2 then (if pair then 4 else 2) else 1

/-- ROLE and BEARER permitted together (R241). -/
def roleBearer (role b : Nat) : Bool :=
  if role = 0 then decide (b ≤ 4)
  else if role = 1 ∨ role = 4 then decide (1 ≤ b) && decide (b ≤ 6)
  else if role = 2 then decide (1 ≤ b) && decide (b ≤ 4)
  else role = 3 && decide (b ≤ 6)

/-- Charge on an audio decode engine (R368). -/
def adecCharge (b : Nat) : Nat := if b = 2 then 25 else 50

/-- EId a request asks for (R240). -/
def Req.eid (r : Req) : Nat := if r.bearer = 2 then r.id1 / 0x10000 else 0

/-- The Hamper needs an audio decode engine for bearer `b` (R241). -/
def Req.needsAdec (r : Req) (b : Nat) : Bool := decide (r.role = 0) && usesVrs b

/-- How a chain of this request uses its cluster. -/
def Req.use (r : Req) : ChainUse := if r.role = 5 then .remote else if r.role < 2 then .held else .borrow

/-- The request section of Hamper `n` as written now. -/
def State.reqOf (s : State) (n : Nat) : Req :=
  { en := s.on (F.HAMPER_CTRL_EN n), role := s.rd (F.HAMPER_CTRL_ROLE n), combine := s.on (F.HAMPER_CTRL_COMBINE n),
    bearer := s.rd (F.HAMPER_CTRL_BEARER n), prio := s.rd (F.HAMPER_CTRL_PRIORITY n), link := s.rd (F.HAMPER_CTRL_LINK n),
    div := s.rd (F.HAMPER_CTRL_DIVERSITY n), divMin := s.rd (F.HAMPER_CTRL_DIV_MIN n),
    freq := s.rd (F.HAMPER_FREQ_HZ n), freq2 := s.rd (F.HAMPER_FREQ2_HZ n), id0 := s.rd (F.HAMPER_ID0 n),
    id1 := s.rd (F.HAMPER_ID1 n), minQual := s.rd (F.HAMPER_MIN_QUAL n), mask := s.rd (F.HAMPER_INPUT_MASK n),
    qKib := s.rd (F.HAMPER_QUOTA_QUEUE_KIB n), aKib := s.rd (F.HAMPER_QUOTA_ASSY_KIB n),
    rate := (s.reg (F.HAMPER_RATE_RATE_KBPS n).addr).toNat, dest := (s.reg (F.HAMPER_DEST_STORE n).addr).toNat,
    stop := s.rd (F.HAMPER_SCAN_STOP_HZ n), step := s.rd (F.HAMPER_SCAN_STEP_HZ n),
    pin0 := (s.reg (F.HAMPER_PIN0_LANES n).addr).toNat, pin1 := (s.reg (F.HAMPER_PIN1_FEC n).addr).toNat }

/-! ### Pins (R257 to R260) -/

/-- The pins of a Hamper that are effective: PIN0 and PIN1, 0 where they are not. -/
def State.pinsOf (s : State) (q : HamSt) : Nat × Nat :=
  if s.isExpert .place && q.req.en && decide (q.code = 0) then (q.req.pin0, q.req.pin1) else (0, 0)

def pinLanes (w : Nat × Nat) : Option (List Nat) := if bit w.1 31 then some (bitsOf 24 w.1) else none
def pinEng (w : Nat × Nat) : Option (Bool × Nat) := if bit w.2 31 then some (bit w.2 12, w.2 / 0x100 % 16) else none
def pinFec (w : Nat × Nat) : Option Nat := if bit w.2 30 then some (w.2 / 0x10 % 4) else none
def pinAdec (w : Nat × Nat) : Option Nat := if bit w.2 29 then some (w.2 % 8) else none
def pinMem (w : Nat × Nat) : Option Nat := if bit w.2 28 then some (w.2 / 0x4000 % 4) else none
def pinInputs (w : Nat × Nat) : Option (List Nat) :=
  if bit w.2 27 then some ((List.range 4).map fun b => w.2 / 2 ^ (16 + 2 * b) % 4) else none

/-- Some pin is effective. -/
def anyPin (w : Nat × Nat) : Bool := bit w.1 31 || decide (w.2 / 0x8000000 ≠ 0)

/-- Cluster of an engine index of a type. -/
def engClus (ana : Bool) (e : Nat) : Nat := if ana then e / 4 else e / 2

/-- Clusters the chain pins name (R258). -/
def pinClusters (b : Nat) (w : Nat × Nat) : List Nat :=
  ((pinLanes w).getD []).map (· / 6) ++ (match pinEng w with | some (t, e) => [engClus t e] | none => []) ++
    (match pinFec w with | some v => if usesVrs b then [v] else [] | none => [])

/-- Every element of a list is the same. -/
def allSame : List Nat → Bool
  | [] => true
  | a :: r => r.all fun x => decide (x = a)

/-- No element occurs twice. -/
def distinct : List Nat → Bool
  | [] => true
  | a :: r => !r.contains a && distinct r

/-- Most branches of a role and bearer (R242). -/
def maxBranches (role b : Nat) : Nat := if 2 ≤ role then 1 else if b = 0 then 1 else if b = 1 then 2 else 4

/-- The pinned resources that break R15 to R17, the lane count of R258, or do not match bearer `b`, by the codes of R251.
Under ROLE 2 to 4 a Hamper holds one lane (R241), so that a pin of several breaks the count there. (assumption 110) -/
def pinFaults (r : Req) (b : Nat) (w : Nat × Nat) : List Nat :=
  let no (c : Bool) (e : Nat) : List Nat := if c then [e] else []
  let k := match pinLanes w with | some l => l.length | none => r.div
  no (match pinLanes w with | some l => decide (l.length = 0) || decide (maxBranches r.role b < l.length) | none => false) 1 ++
  no (match pinEng w with
   | some (t, e) => decide (t ≠ isAna b) || (!t && decide (8 ≤ e))
   | none => false) 2 ++
  no (match pinFec w with
   | some v => isAna b || (decide (5 ≤ b) && decide (2 ≤ v))
   | none => false) 3 ++
  no (match pinAdec w with | some v => decide (6 ≤ v) || !r.needsAdec b | none => false) 4 ++
  no (match pinInputs w with | some l => !distinct (l.take k) | none => false) 6 ++
  no (!allSame (pinClusters b w)) (if (pinLanes w).isSome then 1 else 2)

/-- A pin breaks R15 or R16, the lane count of R258, or does not match BEARER (code 8). -/
def pinBad (r : Req) (w : Nat × Nat) : Bool := !(pinFaults r r.bearer w).isEmpty

/-- Two Hampers pin one resource (R260). -/
def pinClash (a b : Req) (v w : Nat × Nat) : Bool :=
  (match pinLanes v, pinLanes w with | some x, some y => x.any y.contains | _, _ => false) ||
  (match pinEng v, pinEng w with | some x, some y => decide (x = y) | _, _ => false) ||
  (match pinFec v, pinFec w with
   | some x, some y => decide (x = y) && decide (decide (5 ≤ a.bearer) = decide (5 ≤ b.bearer)) | _, _ => false) ||
  (match pinAdec v, pinAdec w with | some x, some y => decide (x = y) | _, _ => false)

/-! ### Validation (R242) -/

/-- KiB of the regions of R241 a request counts under code 10. -/
def Req.regionKib (r : Req) : Nat :=
  r.qKib + r.aKib + (if r.needsAdec r.bearer then 64 else 0) + (if r.role = 1 ∧ 5 ≤ r.bearer then 1024 else 0)

/-- The code of R242 for the committed request of Hamper `h`; 0 when it is valid. `others` are the Hampers whose pins
stand before its own. -/
def State.validate (s : State) (p : Plan) (h : Nat) (others : List Nat) : Nat :=
  let r := (p.ham h).req
  let w := s.pinsOf { p.ham h with code := 0 }
  let l := p.ham r.link
  if !roleBearer r.role r.bearer then 1
  else if !accepted r.bearer r.freq || (decide (r.role ≠ 3) && decide (r.freq2 ≠ 0) && !accepted r.bearer r.freq2) ||
      (decide (r.role = 3) && (!accepted r.bearer r.stop || decide (r.stop < r.freq))) then 2
  else if r.mask = 0 then 3
  else if (pinLanes w).isNone && (decide (r.divMin = 0) || decide (r.div < r.divMin) ||
      decide (maxBranches r.role r.bearer < r.div)) then 4
  else if r.role = 2 && (decide (r.link = h) || decide (l.req.role ≠ 0)) then 5
  else if (decide (r.role = 0) && !bit r.dest 31) || (bit r.dest 18 && !s.on (F.STORE_BASKET_CFG_EN (r.dest % 16))) ||
      ((decide (r.role = 3) || decide (r.role = 4)) && decide (r.qKib = 0)) then 6
  else if r.combine && (decide (r.bearer ≠ 2) || decide (r.freq2 = 0)) then 7
  else if pinBad r w then 8
  else if others.any (fun g => decide (g ≠ h) && pinClash r (p.ham g).req w (s.pinsOf (p.ham g))) then 9
  else if 3072 < r.regionKib then 10
  else 0

/-! ### Ranking (R247) -/

/-- Insert by a strict order, after its equals. -/
def insertBy (lt : Nat → Nat → Bool) (x : Nat) : List Nat → List Nat
  | [] => [x]
  | y :: r => if lt x y then x :: y :: r else y :: insertBy lt x r

/-- Sort by a strict order, keeping the order of equals. -/
def sortBy (lt : Nat → Nat → Bool) (l : List Nat) : List Nat := l.reverse.foldl (fun acc x => insertBy lt x acc) []

/-- `a` is served before `b`: an effective pin first, then descending priority, then ascending index. -/
def State.before (s : State) (p : Plan) (a b : Nat) : Bool :=
  let pa := anyPin (s.pinsOf (p.ham a))
  let pb := anyPin (s.pinsOf (p.ham b))
  let x := (p.ham a).req.prio
  let y := (p.ham b).req.prio
  if pa ≠ pb then pa else decide (y < x) || (decide (x = y) && decide (a < b))

/-- The enabled and valid Hampers and exports, in the order of service. -/
def State.order (s : State) (p : Plan) : List Nat :=
  sortBy (s.before p) ((p.hams.filter fun x => x.2.req.en && decide (x.2.code = 0)).map (·.1))

/-- The EId of a chain's ensemble: the one its members ask for, 0 where none of them names one (R240, R243). -/
def Plan.eidOf (p : Plan) (id : Nat) : Nat := (((p.members id).map fun h => (p.ham h).req.eid).find? fun e => decide (e ≠ 0)).getD 0

/-- A chain that Hamper `h` may share under R243, other than its own. -/
def Plan.shareable (p : Plan) (h : Nat) : Option PChain :=
  let q := p.ham h
  if 2 ≤ q.req.role then none
  else p.chains.find? fun c =>
    decide (c.use = .held) && decide (c.bearer = q.bearer) && decide (c.main.freq = q.freq) &&
      !(p.members c.id).isEmpty &&
      (decide (q.bearer ≠ 2) || decide (p.eidOf c.id = 0) || decide (q.req.eid = 0) || decide (p.eidOf c.id = q.req.eid))

/-- A member of the chain that `h` shares, or would join, ranks above it (R243). -/
def Plan.outranked (p : Plan) (h : Nat) : Bool :=
  let q := p.ham h
  match q.chain.orElse fun _ => (p.shareable h).map (·.id) with
  | none => false
  | some id => (p.members id).any fun g => decide (g ≠ h) &&
      (decide (q.req.prio < (p.ham g).req.prio) || (decide (q.req.prio = (p.ham g).req.prio) && decide (g < h)))

/-- The pins of Hamper `h` on its chain: none while another sharing Hamper ranks above it (R243). -/
def State.chainPins (s : State) (p : Plan) (h : Nat) : Nat × Nat := if p.outranked h then (0, 0) else s.pinsOf (p.ham h)

/-! ### Releasing -/

/-- Rates of inputs left with no lane fall to Off (R249). -/
def Plan.normRates (p : Plan) : Plan :=
  { p with rates := (List.range 4).map fun i =>
      if p.chains.any (fun c => c.legs.any fun l => l.br.any fun b => decide (b.input = i)) then p.rates.getD i 0 else 0 }

/-- Release a chain: its lanes, engines, working banks and deinterleaver. -/
def Plan.dropChain (p : Plan) (id : Nat) : Plan :=
  Plan.normRates
    { p with
      chains := p.chains.filter fun c => decide (c.id ≠ id)
      hams := p.hams.map fun x => (x.1, { x.2 with chain := if x.2.chain = some id then none else x.2.chain,
                                                    alt := if x.2.alt = some id then none else x.2.alt }) }

/-- Release a chain that nobody uses any more (R243). -/
def Plan.sweep (p : Plan) : Plan :=
  (p.chains.filter fun c => (p.users c.id).isEmpty).foldl (fun p c => p.dropChain c.id) p

/-- Release everything a Hamper holds. -/
def Plan.release (p : Plan) (h : Nat) : Plan :=
  (p.upd h fun q => { q with chain := none, alt := none, ldpc := none, adec := none, adecAlt := none, region := none,
                             blend := none, qIn := 0, aIn := 0 }).sweep

/-- The second chain of a blend is released, with the blend region unless a standing delay of the old stream needs it; the service
stays on the chain it came from (R361, R364 to R366). -/
def Plan.unblend (p : Plan) (h : Nat) (keep : Bool) : Plan :=
  match p.altOf h with
  | none => p
  | some c =>
    (p.upd h fun q => { q with chain := some c.id, alt := none, adec := q.adecAlt, adecAlt := none,
                               blend := if keep then q.blend else none, bearer := c.bearer, freq := c.main.freq }).sweep

/-- Release a chain with everything its users hold (a whole chain taken under R250). -/
def Plan.evict (p : Plan) (id : Nat) : Plan := ((p.users id).foldl Plan.release p).dropChain id

/-- Branches a member asks of its chain: `n` of them, no more than the chain's bearer and its role allow (R241, R242). -/
def HamSt.branches (q : HamSt) (n : Nat) : Nat :=
  if 2 ≤ q.req.role ∧ q.req.role ≤ 4 then 1 else min n (maxBranches 0 q.bearer)

/-- Branches a chain needs: the largest DIV_MIN of its members, or the pinned lanes (R243, R258). -/
def State.chainMin (s : State) (p : Plan) (id : Nat) : Nat :=
  match (p.top id).bind fun h => pinLanes (s.chainPins p h) with
  | some l => l.length
  | none => (p.members id).foldl (fun m h => max m ((p.ham h).branches (p.ham h).req.divMin)) 0

/-- Branches a chain is to reach. -/
def State.chainMax (s : State) (p : Plan) (id : Nat) : Nat :=
  match (p.top id).bind fun h => pinLanes (s.chainPins p h) with
  | some l => l.length
  | none => (p.members id).foldl (fun m h => max m ((p.ham h).branches (p.ham h).req.div)) 0

/-- Remove branches from a leg. -/
def Leg.without (l : Leg) (bad : Branch → Bool) : Leg := { l with br := l.br.filter fun b => !bad b }

/-- A chain loses branches (R254): below its minimum it is released whole, a secondary leg below it alone. -/
def State.dropBranches (s : State) (p : Plan) (c : PChain) (bad : Branch → Bool) : Plan :=
  let k := max 1 (s.chainMin p c.id)
  let main := c.main.without bad
  if main = c.main ∧ (c.pair.map fun l => l.without bad) = c.pair then p
  else if main.br.length < k then p.dropChain c.id
  else
    let d := { c with main := main, pair := c.pair.map (Leg.without · bad) }
    (p.setChain (if d.pair.any fun (l : Leg) => decide (l.br.length < k) then { d.unpair with pairLost := true } else d)).normRates

/-! ### Inputs and rates (R197, R249) -/

/-- The frequencies of the lanes a plan has on input `i`. -/
def Plan.freqsOn (p : Plan) (i : Nat) : List Nat :=
  p.chains.flatMap fun c => c.legs.flatMap fun l => (l.br.filter fun b => decide (b.input = i)).map fun _ => l.freq

/-- A carrier lies in a Nyquist zone: the second for `two` (R197, R198). -/
def inZone (two : Bool) (f : Nat) : Bool := if two then isLband f else decide (144000 ≤ f) && decide (f ≤ 983000000)

/-- Entry `k` of an input's filter table serves every frequency of the list (R197, R198). -/
def State.entryServes (s : State) (i : Nat) (fs : List Nat) (k : Nat) : Bool :=
  fs.all (s.filtCovers i k) && fs.all (inZone (s.on (F.RFIN_FILT_TABLE_LO_ZONE2 i k)))

/-- The filter of input `i` can serve carrier `f` beside the carriers `l` already there (R197, R249). Under MODE 1 only the
carrier itself is held against the zone. Where `keep` is set, the code and the zone in force must serve them. -/
def State.filtServes (s : State) (i f : Nat) (l : List Nat) (keep : Bool) : Bool :=
  if s.on (F.RFIN_FILT_CTRL_MODE i) then inZone (s.on (F.RFIN_FILT_CTRL_MAN_ZONE2 i)) f
  else if keep then
    (List.range 4).any fun k => s.entryServes i (f :: l) k &&
      decide ((s.rd (F.RFIN_FILT_TABLE_LO_CODE i k), s.rd (F.RFIN_FILT_TABLE_LO_ZONE2 i k)) =
        (s.rfi i).filtDue.getD (s.rd (F.RFIN_FILT_CTRL_CODE i), s.rd (F.RFIN_FILT_CTRL_ZONE2 i)))
  else match s.filtEntry i (f :: l) with
    | some k => s.entryServes i (f :: l) k
    | none => false

/-- Input `i` carries a lane that keeps its assignment through the pass (R26, R249). -/
def Plan.keepsOn (p : Plan) (i : Nat) : Bool :=
  p.chains.any fun c => c.legs.any fun l => l.br.any fun b => decide (b.input = i) && !b.fresh

/-- The lowest rate code sufficient for a carrier: 3 Quarter, 2 Half, 1 Full; L-band needs Full (R249). -/
def needRate (b f : Nat) : Option Nat :=
  if isLband f then some 1
  else [3, 2, 1].find? fun r => decide (2 * f + bearerWidth b < rateHz r)

/-- A raise of the rate of input `i` is permitted for a chain of priority `prio` (R249). -/
def Plan.mayRaise (p : Plan) (loss : Bool) (id prio i : Nat) : Bool :=
  p.chains.all fun c =>
    let on := c.legs.flatMap fun l => l.br.filter fun b => decide (b.input = i)
    decide (c.id = id) || on.isEmpty || (decide (p.prio c.id < prio) && (!loss || on.all fun b => b.fresh))

/-- A fence or an unfence is among the triggers of the pass: nothing of a lane that stays may change (R26). -/
def State.holds (s : State) : Bool := s.place.runHold || s.place.hold

/-- The rate code input `i` runs at once it carries `f` for chain `id`; none when it is not usable (R249). In a pass that a
fence or unfence triggered, an input with a lane that stays keeps its filter and its rate for it (R26; assumption 97). -/
def State.inputRate (s : State) (p : Plan) (loss : Bool) (id prio b f i : Nat) : Option Nat :=
  if s.calFailed i || !s.en .rfin i || !s.filtServes i f (p.freqsOn i) (s.holds && p.keepsOn i) then none
  else match needRate b f with
    | none => none
    | some need =>
      if s.isExpert .clk then (if s.rate i ≠ 0 ∧ s.rate i ≤ need then some (s.rate i) else none)
      else
        let cur := p.rates.getD i 0
        if cur = 0 then some need
        else if cur ≤ need then some cur
        else if p.mayRaise loss id prio i then some need else none

/-- Inputs in the order a branch tries them: those of INPUT_MASK ascending, a Rambler first the input of branch 0 of the
Hamper it follows (R249, R253). -/
def Plan.inputsFor (p : Plan) (h : Nat) : List Nat :=
  let r := (p.ham h).req
  let l := bitsOf 4 r.mask
  if r.role = 2 then
    match (p.chainOf r.link).bind fun c => c.main.br.head? with
    | some b => if l.contains b.input then b.input :: l.filter (fun i => decide (i ≠ b.input)) else l
    | none => l
  else l

/-- Lane `n` can be given to a Hamper: enabled, free, and at Basic level unless it is pinned (R210, R260). -/
def State.laneFree (s : State) (p : Plan) (n : Nat) (pinned : Bool) : Bool :=
  s.en .lane n && !p.laneUsed n && (pinned || !s.laneExpert n)

/-- Free lanes of a cluster, lowest first. -/
def State.freeLanes (s : State) (p : Plan) (c : Nat) : List Nat :=
  ((List.range 6).map (6 * c + ·)).filter fun n => s.laneFree p n false

/-- Free engines of the type bearer `b` needs in a cluster, lowest first. -/
def State.freeEngs (s : State) (p : Plan) (c b : Nat) : List Nat :=
  (if isAna b then (List.range 4).map (4 * c + ·) else (List.range 2).map (2 * c + ·)).filter fun e =>
    s.engEn (engKey b e) && !p.engHeld (engKey b e)

/-- Add one branch to a leg of chain `id` on lane `lane`, or say that no input is usable (code 6). -/
def State.addBranch (s : State) (p : Plan) (loss : Bool) (h id : Nat) (second : Bool) (lane : Nat) : Except Nat Plan :=
  match p.find id with
  | none => .error 1
  | some c =>
    let leg := if second then c.pair.getD c.main else c.main
    let cand := match pinInputs (s.chainPins p ((p.top id).getD h)) with
      | some l => [l.getD leg.br.length 0]
      | none => p.inputsFor ((p.top id).getD h)
    let cand := cand.filter fun i => leg.br.all fun b => decide (b.input ≠ i)
    let ok (i : Nat) : Option (Nat × Nat) := (s.inputRate p loss id (p.prio id) c.bearer leg.freq i).map fun r => (i, r)
    match cand.findSome? ok with
    | none => .error 6
    | some (i, r) =>
      let leg := { leg with br := leg.br ++ [{ lane := lane, input := i, fresh := true }] }
      let c := if second then { c with pair := some leg } else { c with main := leg }
      let rates := if s.isExpert .clk then p.rates else p.rates.set i r
      .ok { p.setChain c with rates := rates }

/-- Add branches on a list of lanes. -/
def State.addBranches (s : State) (loss : Bool) (h id : Nat) (second : Bool) : List Nat → Plan → Except Nat Plan
  | [], p => .ok p
  | n :: r, p =>
    match s.addBranch p loss h id second n with
    | .ok p => s.addBranches loss h id second r p
    | .error e => .error e

/-! ### Units and regions (R248, R368) -/

/-- Load of audio decode engine `e` (R368). -/
def Plan.adecLoad (p : Plan) (e : Nat) : Nat :=
  p.hams.foldl (fun n x =>
    n + (if x.2.adec = some e then adecCharge x.2.bearer else 0) +
      (if x.2.adecAlt = some e then adecCharge ((x.2.alt.bind p.find).elim 2 (·.bearer)) else 0)) 0

/-- Hampers bound to audio decode engine `e`. -/
def Plan.adecBound (p : Plan) (e : Nat) : Nat :=
  (p.hams.filter fun x => decide (x.2.adec = some e) || decide (x.2.adecAlt = some e)).length

/-- Hampers bound to LDPC/BCH unit `u`. -/
def Plan.ldpcBound (p : Plan) (u : Nat) : Nat := (p.hams.filter fun x => decide (x.2.ldpc = some u)).length

/-- The first of a list with the smallest measure. -/
def argMin (f : Nat → Nat) : List Nat → Option Nat
  | [] => none
  | a :: r => some (r.foldl (fun b x => if f x < f b then x else b) a)

/-- The PLPs that the members of a chain name are at most 8, with the common PLPs that go with them (R328). -/
def State.plpsOk (s : State) (p : Plan) (id : Nat) : Bool :=
  let named := (p.members id).map fun h => (p.ham h).req.id0 % 256
  let common := match p.find id with | some c => named.filterMap (s.commonPlp c.main.eng ·) | none => []
  decide ((named ++ common).eraseDups.length ≤ 8)

/-- The LDPC/BCH unit of a chain: the one its members are bound to (R243). -/
def Plan.ldpcOf (p : Plan) (id : Nat) : Option Nat := (p.members id).findSome? fun g => (p.ham g).ldpc

/-- Bind the chain of Hamper `h` to an LDPC/BCH unit: the one pinned for the chain, the one it has, or the one with the fewest
bound Hampers (R243, R248). -/
def State.bindLdpc (s : State) (p : Plan) (h : Nat) : Plan :=
  let set (p : Plan) (g : Nat) (u : Option Nat) : Plan := p.upd g fun q => { q with ldpc := u }
  match pinFec (s.chainPins p h), (p.ham h).chain with
  | some u, some id => (p.members id).foldl (fun p g => set p g (some u)) p
  | some u, none => set p h (some u)
  | none, c =>
    if (p.ham h).ldpc.isSome then p
    else match c.bind p.ldpcOf with
      | some u => set p h (some u)
      | none => set p h (argMin p.ldpcBound [0, 1])

/-- Bind the device-level units a Hamper needs and lacks: codes 3 and 4 when there is none. -/
def State.bindUnits (s : State) (p : Plan) (h : Nat) : Except Nat Plan :=
  let q := p.ham h
  let w := s.pinsOf q
  let needL := decide (q.req.role = 1) && decide (5 ≤ q.bearer)
  let needA := q.req.needsAdec q.bearer
  if needL && (match pinFec (s.chainPins p h) with | some u => decide (2 ≤ u) | none => false) then .error 3
  else if needL && !(match q.chain with | some id => s.plpsOk p id | none => true) then .error 3
  else if (needL || (usesVrs q.bearer && decide (q.req.role < 2))) && !s.en .fec then .error 3
  else
    let p := if needL then s.bindLdpc p h else p.upd h fun q => { q with ldpc := none }
    if !needA then .ok (p.upd h fun q => { q with adec := none })
    else if q.adec.isSome then .ok p
    else if !s.en .adec then .error 4
    else
      let cand := (match pinAdec w with | some e => [e] | none => List.range 6).filter fun e =>
        decide (p.adecLoad e + adecCharge q.bearer ≤ 100)
      match argMin p.adecBound cand with
      | some e => .ok (p.upd h fun q => { q with adec := some e })
      | none => .error 4

/-- Take `n` granules for a region: in cluster `home` if it has room, else in the unfenced cluster, not hot, with the
most free granules; a memory pin allows its cluster only (R248, R258). -/
def State.allocRegion (s : State) (p : Plan) (w : Nat × Nat) (home n : Nat) : Option Region :=
  let room (c : Nat) : Nat := popCount 768 (s.freeMask p c)
  let fit (c : Nat) : Bool := !s.fenced c && decide (n ≤ room c)
  let take (c : Nat) : Region := { clus := c, mask := lowestBits 768 0 n (s.freeMask p c) }
  match pinMem w with
  | some c => if fit c then some (take c) else none
  | none =>
    if fit home then some (take home)
    else (argMin (fun c => 768 - room c) ((List.range 4).filter fun c => fit c && !(s.clu c).hot)).map take

/-- Whole banks for the working buffers of a chain: the highest-numbered banks of the cluster that are wholly free.
(assumption 8) -/
def State.allocWork (s : State) (p : Plan) (c n : Nat) : Option Nat :=
  let free := s.freeMask p c
  let banks := ((List.range 12).reverse.filter fun b => decide (free / 2 ^ (64 * b) % 2 ^ 64 = 2 ^ 64 - 1)).take n
  if banks.length = n then some (banks.foldl (fun m b => m + (2 ^ 64 - 1) * 2 ^ (64 * b)) 0) else none

/-- Granules a Hamper's own region needs now: decoder input, queue and assembly (R241). -/
def HamSt.granules (q : HamSt) (dec : Bool) : Nat :=
  ((if dec then 64 else 0) + q.req.qKib + (if q.req.role = 1 then q.req.aKib else 0)) / 4

/-- The Hamper plays, or fades out, a bearer with a decoder input region. -/
def Plan.wantsDec (p : Plan) (h : Nat) : Bool :=
  let q := p.ham h
  q.req.needsAdec q.bearer || (match p.altOf h with | some c => q.req.needsAdec c.bearer | none => false)

/-- Give a Hamper its own region, with the chain's deinterleaver `deint` granules before it where one is to be placed
(both in one cluster). A region it still holds is kept. Code 5 when there is no room. -/
def State.giveRegion (s : State) (p : Plan) (h id home deint : Nat) : Except Nat Plan :=
  let q := p.ham h
  let w := s.pinsOf q
  let own := if q.region.isSome then 0 else q.granules (p.wantsDec h)
  if deint + own = 0 then
    .ok (p.upd h fun q => if q.region.isSome then q else { q with qIn := q.req.qKib, aIn := q.req.aKib })
  else match s.allocRegion p w home (deint + own) with
    | none => .error 5
    | some r =>
      let dm := lowestBits 768 0 deint r.mask
      let p := if deint = 0 then p else
        match p.find id with
        | some c => p.setChain { c with deint := some { clus := r.clus, mask := dm } }
        | none => p
      .ok (if own = 0 then p else p.upd h fun q =>
        { q with region := some { clus := r.clus, mask := maskSub r.mask dm }, qIn := q.req.qKib, aIn := q.req.aKib })

/-! ### Minimum placement -/

/-- Place a new chain for Hamper `h` in cluster `c`, with a secondary leg on the frequency `second`, if any; the code of R251
that stops it otherwise. -/
def State.tryChain (s : State) (loss : Bool) (h c : Nat) (second : Option Nat) (p : Plan) : Except Nat Plan :=
  let q := p.ham h
  let b := q.bearer
  let pair := second.isSome
  let w := s.chainPins p h
  let u : ChainUse := q.req.use
  let free := s.freeLanes p c
  let k := match pinLanes w with | some l => l.length | none => q.branches q.req.divMin
  let lanes := match pinLanes w with
    | some l => if l.all (fun n => decide (n / 6 = c) && s.laneFree p n true) then l else []
    | none => free.take k
  let rest := free.filter fun n => !lanes.contains n
  if lanes.length < k ∨ k = 0 ∨ (u ≠ ChainUse.remote ∧ maxBranches q.req.role b < k) ∨ (pair = true ∧ rest.length < k) then .error 1
  else
    let engs := s.freeEngs p c b
    let engs1 := match pinEng w with
      | some (t, e) => if u = ChainUse.held then engs.filter (fun x => decide (x = e) && decide (t = isAna b)) else engs
      | none => engs
    match engs1 with
    | [] => .error 2
    | e :: _ =>
      let other := (engs.filter fun x => decide (x ≠ e)).head?
      if pair && other.isNone then .error 2
      else if u = ChainUse.held ∧ 2 ≤ b ∧ s.en .fec = false then .error 3
      else
        let id := p.nextId
        let work := if u = ChainUse.borrow then some 0 else s.allocWork p c (bearerBanks b pair)
        let alone := if u = ChainUse.borrow then 0 else (s.allocWork p c (bearerBanks b false)).getD 0
        let ch : PChain :=
          { id := id, use := u, bearer := b, clus := c,
            main := { freq := q.freq, eng := if u = ChainUse.borrow then 0 else e, br := [] }
            pair := second.map fun f => { freq := f, eng := other.getD 0, br := [] }
            work := alone, pairWork := maskSub (work.getD 0) alone, pairLost := false, deint := none }
        let p := { p with chains := p.chains ++ [ch], nextId := id + 1 }.upd h fun q => { q with chain := some id }
        match s.bindUnits p h with
        | .error e => .error e
        | .ok p =>
          if work.isNone then .error 5
          else match s.giveRegion p h id c (if u = ChainUse.held ∧ 5 ≤ b then 256 else 0) with
            | .error e => .error e
            | .ok p =>
              match s.addBranches loss h id false lanes p with
              | .error e => .error e
              | .ok p => if pair then s.addBranches loss h id true (rest.take k) p else .ok p

/-- Join chain `id`: the branches the new minimum asks for, units and region (R243). -/
def State.tryJoin (s : State) (loss : Bool) (h id : Nat) (p : Plan) : Except Nat Plan :=
  match p.find id with
  | none => .error 1
  | some c =>
    let p := p.upd h fun q => { q with chain := some id }
    let more := s.chainMin p id - c.main.br.length
    let lanes := (s.freeLanes p c.clus).take more
    if lanes.length < more then .error 1
    else match s.bindUnits p h with
      | .error e => .error e
      | .ok p =>
        match s.giveRegion p h id c.clus 0 with
        | .error e => .error e
        | .ok p => s.addBranches loss h id false lanes p

/-- Hamper `h` asks for a combining pair that may be formed: COMBINE, a second frequency other than the one in force (R16),
and no lane pin, which gives the chain exactly the pinned lanes (R258; assumption 98). -/
def State.wantsPair (s : State) (p : Plan) (h : Nat) : Bool :=
  let q := p.ham h
  q.req.combine && decide (q.bearer = 2) && decide (q.freq = q.req.freq) && decide (q.req.freq2 ≠ q.freq) &&
    (pinLanes (s.chainPins p h)).isNone

/-- Form the pair of a placed chain (R250): the cluster's other engine, the further working banks and DIV_MIN lanes. -/
def State.tryPair (s : State) (loss : Bool) (h : Nat) (p : Plan) : Except Nat Plan :=
  match p.chainOf h with
  | none => .error 7
  | some c =>
    let k := s.chainMin p c.id
    let lanes := (s.freeLanes p c.clus).take k
    match (s.freeEngs p c.clus c.bearer).head?, s.allocWork p c.clus 2 with
    | some e, some m =>
      if lanes.length < k then .error 7
      else
        let p := p.setChain { c with pair := some { freq := (p.ham h).req.freq2, eng := e, br := [] }, pairWork := m }
        match s.addBranches loss h c.id true lanes p with
        | .ok p => .ok p
        | .error _ => .error 7
    | _, _ => .error 7

/-! ### Cluster choice (R248) -/

/-- Clusters in the order of preference: powered before idle-off, then fewest free lanes, then lowest index. -/
def State.clusOrder (s : State) (p : Plan) : List Nat :=
  let key (c : Nat) : Nat := (if s.cpow c = 0 then 1000 else 0) + 10 * (s.freeLanes p c).length + c
  sortBy (fun a b => decide (key a < key b)) (List.range 4)

/-- The outcome of attempts: the first plan, or the latest code of R251. -/
def firstOk (l : List (Except Nat Plan)) : Except Nat Plan :=
  l.foldl (fun acc x =>
    match acc, x with
    | .ok p, _ => .ok p
    | .error _, .ok p => .ok p
    | .error a, .error b => .error (max a b)) (.error 1)

/-- Clusters considered for a Hamper: those its chain pins name, or all that are not fenced. -/
def State.clusFor (s : State) (p : Plan) (h : Nat) : List Nat :=
  let q := p.ham h
  let pin := pinClusters q.bearer (s.chainPins p h)
  (s.clusOrder p).filter fun c => !s.fenced c && (pin.isEmpty || pin.all fun d => decide (d = c))

/-- Try clusters that are not hot in order of preference, then hot ones (R248). -/
def State.inClusters (s : State) (p : Plan) (h : Nat) (f : Nat → Except Nat Plan) : Except Nat Plan :=
  let cs := s.clusFor p h
  match firstOk ((cs.filter fun c => !(s.clu c).hot).map f) with
  | .ok p => .ok p
  | .error a =>
    match firstOk ((cs.filter fun c => (s.clu c).hot).map f) with
    | .ok p => .ok p
    | .error b => .error (max a b)

/-! ### Displacement (R250) -/

/-- Something taken: the last branch of a leg, or a whole chain. -/
inductive Taking where
  | branch (id : Nat) (second : Bool)
  | chain (id : Nat)
deriving DecidableEq, Repr

def Taking.id : Taking → Nat
  | .branch i _ => i
  | .chain i => i

def Plan.takeOne (p : Plan) (t : Taking) : Plan :=
  match t with
  | .chain id => p.evict id
  | .branch id second =>
    match p.find id with
    | none => p
    | some c => (p.setChain (if second then { c with pair := c.pair.map fun l => { l with br := l.br.dropLast } }
                             else { c with main := { c.main with br := c.main.br.dropLast } })).normRates

/-- A lane, the engine or the Viterbi/RS unit of a chain is pinned: the chain is never taken whole under R250. -/
def State.protected (s : State) (p : Plan) (id : Nat) : Bool :=
  (p.users id).any fun h =>
    let w := s.pinsOf (p.ham h)
    (pinLanes w).isSome || (pinEng w).isSome || ((pinFec w).isSome && usesVrs (p.ham h).bearer)

/-- The lanes of a chain are pinned: none of them is taken under R250. -/
def State.lanesPinned (s : State) (p : Plan) (id : Nat) : Bool := (p.users id).any fun h => (pinLanes (s.pinsOf (p.ham h))).isSome

/-- A user of the chain has some effective pin: it is no unpinned Hamper (R259). -/
def State.pinnedUser (s : State) (p : Plan) (id : Nat) : Bool := (p.users id).any fun h => anyPin (s.pinsOf (p.ham h))

/-- What may be taken in cluster `c` for priority `prio`, in the order of R250. -/
def State.takings (s : State) (p : Plan) (c prio : Nat) (own : Option Nat) : List Taking :=
  let ids := (p.chains.filter fun d =>
    decide (d.clus = c) && decide (p.prio d.id < prio) && decide (some d.id ≠ own)).map (·.id)
  let ids := sortBy (fun a b => decide (p.prio a < p.prio b) ||
    (decide (p.prio a = p.prio b) && decide ((p.top b).getD 0 < (p.top a).getD 0))) ids
  let extra (id : Nat) : List Taking :=
    match p.find id with
    | none => []
    | some d =>
      let k := max 1 (s.chainMin p id)
      List.replicate (match d.pair with | some l => l.br.length - k | none => 0) (.branch id true) ++
        List.replicate (d.main.br.length - k) (.branch id false)
  (ids.filter fun id => !s.lanesPinned p id).flatMap extra ++ (ids.filter fun id => !s.protected p id).map .chain

/-- The shortest prefix of takings after which `f` succeeds. -/
def prefixFor (f : Plan → Except Nat Plan) : List Taking → List Taking → Plan → Option (List Taking)
  | [], _, _ => none
  | t :: r, acc, p =>
    let q := p.takeOne t
    match f q with
    | .ok _ => some (acc ++ [t])
    | .error _ => prefixFor f r (acc ++ [t]) q

/-- Leave in place what is not needed, from the highest priority taken downwards. -/
def pruneTakings (f : Plan → Except Nat Plan) (p : Plan) : List Taking → List Taking → List Taking
  | [], kept => kept
  | t :: r, kept =>
    match f ((r.reverse ++ kept).foldl Plan.takeOne p) with
    | .ok _ => pruneTakings f p r kept
    | .error _ => pruneTakings f p r (t :: kept)

/-- Place by displacement: victims in one cluster only, the cluster with the lowest highest victim priority, then the
fewest victims, then the lowest index (R250). -/
def State.displace (s : State) (p : Plan) (prio : Nat) (own : Option Nat) (cs : List Nat)
    (f : Nat → Plan → Except Nat Plan) : Option Plan :=
  let best := cs.foldl (fun (best : Option (Nat × Plan)) c =>
    match prefixFor (f c) (s.takings p c prio own) [] p with
    | none => best
    | some l =>
      let l := pruneTakings (f c) p l.reverse []
      let q := l.foldl Plan.takeOne p
      let ids := l.foldl (fun acc t => if acc.contains t.id then acc else t.id :: acc) ([] : List Nat)
      let key := ids.foldl (fun m i => max m (p.prio i)) 0 * 0x10000 + (ids.flatMap p.members).length * 0x10 + c
      match f c q with
      | .error _ => best
      | .ok r => match best with
        | some (k, _) => if key < k then some (key, r) else best
        | none => some (key, r)) none
  best.map (·.2)

/-- First from free resources, then by displacement where PREEMPT is 1: for a new chain in a hot cluster only if no other serves
(R248), for a chain that stands where it is. -/
def State.freeOrTake (s : State) (p : Plan) (h : Nat) (own : Option Nat) (f : Nat → Plan → Except Nat Plan)
    (fixed : Option Nat) : Except Nat Plan :=
  match (match fixed with | some c => f c p | none => s.inClusters p h fun c => f c p) with
  | .ok q => .ok q
  | .error e =>
    if s.on F.PLACE_X_POLICY_PREEMPT then
      let take (cs : List Nat) (g : Nat → Plan → Except Nat Plan) : Option Plan := s.displace p (p.ham h).req.prio own cs g
      let cs := s.clusFor p h
      match (match fixed with
        | some d => take ((List.range 4).filter fun c => !s.fenced c) fun _ q => f d q
        | none => (take (cs.filter fun c => !(s.clu c).hot) f).orElse fun _ => take (cs.filter fun c => (s.clu c).hot) f) with
      | some q => .ok q
      | none => .error e
    else .error e

/-! ### Serving one Hamper -/

/-- Resources pinned by `h` are taken from unpinned Hampers that hold them (R259). A Viterbi/RS unit is held alone by a chain
that combines (R16). -/
def State.takePinned (s : State) (p : Plan) (h : Nat) : Plan :=
  let q := p.ham h
  let w := s.pinsOf q
  let mine (c : PChain) : Bool := decide (q.chain = some c.id)
  let p := p.chains.foldl (fun p c =>
    if mine c || s.pinnedUser p c.id then p
    else
      let hitL : Bool := match pinLanes w with | some l => c.lanes.any l.contains | none => false
      let hitE : Bool := match pinEng w with
        | some (t, e) => decide (c.use ≠ .borrow) && c.legs.any (fun l => decide (engKey c.bearer l.eng = (if t then 17 + e else 1 + e)))
        | none => false
      let hitV : Bool := match pinFec w with
        | some v => usesVrs q.bearer && c.pair.isSome && decide (c.clus = v)
        | none => false
      if hitE || hitV then p.dropChain c.id
      else if hitL then s.dropBranches p c fun b => ((pinLanes w).getD []).contains b.lane
      else p) p
  match pinAdec w with
  | some e =>
    if q.req.needsAdec q.bearer ∧ q.adec ≠ some e then
      (sortBy (fun a b => s.before p b a) ((p.hams.filter fun x => decide (x.2.adec = some e) && decide (x.1 ≠ h) && !anyPin (s.pinsOf x.2)).map (·.1))).foldl
        (fun p g => if p.adecLoad e + adecCharge q.bearer ≤ 100 then p else p.upd g fun x => { x with adec := none }) p
    else p
  | none => p

/-- The chain a Hamper is a member of agrees with the pins it has on it. -/
def State.chainPinsHeld (s : State) (p : Plan) (h : Nat) : Bool :=
  let w := s.chainPins p h
  match p.chainOf h with
  | none => true
  | some c =>
    (match pinLanes w with | some l => decide (sortBy (fun a b => decide (a < b)) (c.lanes) = l) | none => true) &&
      (match pinEng w with | some (_, e) => decide (c.use = .borrow) || decide (c.main.eng = e) | none => true) &&
      (match pinFec w with | some v => !usesVrs c.bearer || decide (c.clus = v) | none => true) &&
      (match pinInputs w with | some l => decide (c.main.br.map (·.input) = l.take c.main.br.length) | none => true)

/-- The placement a Hamper has agrees with its effective pins. -/
def State.pinsHeld (s : State) (p : Plan) (h : Nat) : Bool :=
  let q := p.ham h
  let w := s.pinsOf q
  match p.chainOf h with
  | none => true
  | some c =>
    s.chainPinsHeld p h &&
    (match pinFec (s.chainPins p h) with | some v => !decide (5 ≤ c.bearer) || decide (q.ldpc = some v) | none => true) &&
    (match pinAdec w with | some v => decide (q.adec = some v) | none => true) &&
    (match pinMem w with | some c => q.region.all fun r => decide (r.clus = c) | none => true)

/-- The code of R251 names a resource the Hamper pins: it is Pin lost, not Waiting (R259). -/
def pinnedCode (w : Nat × Nat) (e : Nat) : Bool :=
  (decide (e = 1) && (pinLanes w).isSome) || (decide (e = 2) && (pinEng w).isSome) || (decide (e = 3) && (pinFec w).isSome) ||
    (decide (e = 4) && (pinAdec w).isSome) || (decide (e = 5) && (pinMem w).isSome) || (decide (e = 6) && (pinInputs w).isSome)

/-- The first pinned resource of Hamper `h` that is not available at all, by the codes of R251 (R259): a lane, engine, unit
or bank of a fenced cluster, or of a block that is off. A pin that was committed at Basic level was never validated: one that
breaks R15 to R17 counts as not available (R28, R257). (assumption 110) -/
def State.pinMissing (s : State) (p : Plan) (h : Nat) : Option Nat :=
  let q := p.ham h
  let w := s.pinsOf q
  let v := s.chainPins p h
  let no (c : Bool) (e : Nat) : List Nat := if c then [e] else []
  (pinFaults q.req q.req.bearer (if v = w then w else (0, w.2 / 2 ^ 29 % 2 * 2 ^ 29 + w.2 % 8)) ++
    no (match pinLanes v with | some l => l.any fun n => s.fenced (n / 6) || !s.en .lane n | none => false) 1 ++
    no (match pinEng v with | some (t, e) => s.fenced (engClus t e) || !s.engEn (if t then 17 + e else 1 + e) | none => false) 2 ++
    no (match pinFec v with
      | some c => !s.en .fec || (usesVrs q.bearer && s.fenced c) | none => false) 3 ++
    no ((pinAdec w).isSome && !s.en .adec) 4 ++
    no (match pinMem w with | some c => s.fenced c | none => false) 5).head?

/-- A Hamper could not be given its minimum placement: it holds nothing (R251, R259). -/
def State.waitHam (s : State) (p : Plan) (h e : Nat) : Plan :=
  let st := if pinnedCode (s.pinsOf (p.ham h)) e then 6 else 3
  (p.release h).upd h fun q => { q with state := st, reason := e }

/-- Place a new chain for Hamper `h`, combining first where it asks for it (R250). -/
def State.newChain (s : State) (loss : Bool) (p : Plan) (h : Nat) : Except Nat Plan :=
  let alone (_ : Unit) : Except Nat Plan := s.freeOrTake p h none (fun c q => s.tryChain loss h c none q) none
  if s.wantsPair p h then
    match s.freeOrTake p h none (fun c q => s.tryChain loss h c (some (p.ham h).req.freq2) q) none with
    | .ok q => .ok q
    | .error _ => alone ()
  else alone ()

/-- Give Hamper `h` its chain: the one it may share, or a new one. As the highest member of a chain that does not agree with
its pins, it takes the chain's place: the others join it again at their own turn (R243, R246). -/
def State.serveChain (s : State) (loss : Bool) (p : Plan) (h : Nat) : Plan × Option Nat :=
  let r := match (if (p.ham h).chain.isNone then p.shareable h else none) with
    | some c =>
      if s.chainPinsHeld (p.upd h fun q => { q with chain := some c.id }) h then
        s.freeOrTake p h (some c.id) (fun _ q => s.tryJoin loss h c.id q) (some c.clus)
      else s.newChain loss (p.dropChain c.id) h
    | none => s.newChain loss p h
  match r with
  | .ok q => (q, none)
  | .error e => (p, some e)

/-- Grow a region whose quota was raised: in place, else moved whole (R246). -/
def State.growRegion (s : State) (p : Plan) (h : Nat) : Plan × Bool :=
  let q := p.ham h
  let want := q.granules (p.wantsDec h)
  let have_ := (q.region.map Region.count).getD 0
  let done (p : Plan) (r : Option Region) : Plan := p.upd h fun q => { q with region := r, qIn := q.req.qKib, aIn := q.req.aKib }
  if want ≤ have_ then (done p q.region, true)
  else
    let home := ((p.chainOf h).map (·.clus)).getD 0
    match q.region with
    | some r =>
      let free := s.freeMask p r.clus
      if want - have_ ≤ popCount 768 free then
        (done p (some { r with mask := r.mask ||| lowestBits 768 0 (want - have_) free }), true)
      else
        match s.allocRegion (p.upd h fun q => { q with region := none }) (s.pinsOf q) home want with
        | some r => (done p (some r), true)
        | none => (p, false)
    | none =>
      match s.allocRegion p (s.pinsOf q) home want with
      | some r => (done p (some r), true)
      | none => (p, false)

/-- Hamper `h` asks for combining and has no pair (R250). -/
def Plan.lacksPair (p : Plan) (h : Nat) : Bool :=
  let q := p.ham h
  q.req.combine && decide (q.bearer = 2) && (match p.chainOf h with | some c => c.pair.isNone | none => true)

/-- The member whose FREQ2 the pair of a chain follows: the first in rank that asks for a pair (assumption 98). -/
def State.pairAsker (s : State) (p : Plan) (id : Nat) : Option Nat :=
  (p.members id).foldl (fun best h =>
    if !s.wantsPair p h then best
    else match best with
      | none => some h
      | some g => if (p.ham g).req.prio < (p.ham h).req.prio then some h else some g) none

/-- The secondary leg of chain `id` goes to frequency `f` on the lanes, inputs and engine it has; none where an input of them
does not serve it (R246, R249). -/
def State.retunePair (s : State) (loss : Bool) (p : Plan) (id f : Nat) : Option Plan :=
  match p.find id with
  | none => none
  | some c =>
    match c.pair with
    | none => none
    | some l =>
      let bare := p.setChain { c with pair := some { l with br := [] } }
      (l.br.foldl (fun (acc : Option Plan) b => acc.bind fun p =>
        (s.inputRate bare loss id (p.prio id) c.bearer f b.input).map fun r =>
          if s.isExpert .clk then p else { p with rates := p.rates.set b.input r }) (some p)).map fun p =>
        p.setChain { c with pair := some { l with freq := f } }

/-- The pair of chain `id` follows the request of Hamper `h` (R246, R250, R254): one on a frequency no longer asked for is
retuned where its inputs serve the new one, else given up, and one that is missing is sought, but not in the pass that lost
it. -/
def State.keepPair (s : State) (loss : Bool) (p : Plan) (h id : Nat) : Plan :=
  if s.pairAsker p id ≠ some h then p
  else match p.find id with
    | none => p
    | some c =>
      let stale := c.pair.any fun l => decide (l.freq ≠ (p.ham h).req.freq2)
      let kept := if stale then s.retunePair loss p id (p.ham h).req.freq2 else some p
      let p := kept.getD (p.setChain c.unpair).normRates
      if c.pairLost || (c.pair.isSome && kept.isSome) then p
      else match s.freeOrTake p h (some id) (fun _ q => s.tryPair loss h q) (some c.clus) with
        | .ok q => q
        | .error _ => p

/-- A Hamper that has its chain: units and region lost are sought again, the pair is sought again, a raised quota
grows (R246, R250, R254). -/
def State.keepHam (s : State) (loss : Bool) (p : Plan) (h id : Nat) : Plan :=
  let q := p.ham h
  let clus := ((p.find id).map (·.clus)).getD 0
  let lacks := (q.req.needsAdec q.bearer && q.adec.isNone) || (q.region.isNone && decide (0 < q.granules (p.wantsDec h)) &&
    (q.lost || decide (q.state ≠ 2)))
  let r := if lacks then
      s.freeOrTake p h (some id) (fun _ q => match s.bindUnits q h with
        | .error e => .error e
        | .ok q => s.giveRegion q h id clus 0) (some clus)
    else .ok p
  match r with
  | .error e => s.waitHam p h e
  | .ok p =>
    let p := s.keepPair loss p h id
    let (p, grown) := s.growRegion p h
    p.upd h fun x => { x with state := 2, reason := if p.lacksPair h then 7 else if grown then 0 else 5 }

/-- One Hamper's minimum placement (R247): an AF-watch Hamper waits for its LINK (R253), a pinned one for what it pins
(R259). -/
def State.serve (s : State) (loss : Bool) (p : Plan) (h : Nat) : Plan :=
  let q := p.ham h
  if q.req.role = 2 ∧ (p.ham q.req.link).state ≠ 2 then
    (p.release h).upd h fun q => { q with state := 5, reason := 5 }
  else match s.pinMissing p h with
  | some e => (p.release h).upd h fun q => { q with state := 6, reason := e }
  | none =>
    let p := if anyPin (s.pinsOf q) then (let p := s.takePinned p h; if s.pinsHeld p h then p else p.release h) else p
    match (p.ham h).chain with
    | some id => s.keepHam loss p h id
    | none =>
      match s.serveChain loss p h with
      | (p, none) => match (p.ham h).chain with | some id => s.keepHam loss p h id | none => p
      | (p, some e) => s.waitHam p h e

/-- Branches of one leg up to the wanted number, from free resources; the code that stopped the next one. -/
def State.addUpTo (s : State) (loss : Bool) (h id : Nat) (second : Bool) : Nat → Plan → Plan × Nat
  | 0, p => (p, 0)
  | k + 1, p =>
    match p.find id with
    | none => (p, 0)
    | some c =>
      match (s.freeLanes p c.clus).head? with
      | none => (p, 1)
      | some n =>
        match s.addBranch p loss h id second n with
        | .ok p => s.addUpTo loss h id second k p
        | .error e => (p, e)

/-- One chain's turn in the second round: branches up to the chain's DIVERSITY; a member whose own DIVERSITY exceeds the
branches the chain then has carries the code of what stopped the next one (R243, R247, R251). A region that could not grow keeps its
code before that of a branch. (assumption 121) -/
def State.serveMore (s : State) (loss : Bool) (p : Plan) (h : Nat) : Plan :=
  match p.chainOf h with
  | none => p
  | some c =>
    if p.top c.id ≠ some h ∨ c.use = .borrow then p
    else
      let k := s.chainMax p c.id
      let (p, e1) := s.addUpTo loss h c.id false (k - c.main.br.length) p
      let (p, e2) := match c.pair with
        | some l => s.addUpTo loss h c.id true (k - l.br.length) p
        | none => (p, 0)
      let e := if e1 ≠ 0 then e1 else e2
      let has := ((p.find c.id).getD c).legs.foldl (fun m l => min m l.br.length) k
      (p.members c.id).foldl (fun p g => p.upd g fun q =>
        { q with reason := if q.reason = 7 ∨ q.reason = 5 then q.reason
                           else if e ≠ 0 ∧ has < q.req.div then e else 0 }) p

/-! ### Follow requests (R252, R361) -/

/-- Frequencies in one Nyquist zone and filter range of the chain's inputs, so that a retune in place changes no
filter code. -/
def sameZone (a b : Nat) : Bool := isLband a == isLband b

/-- Every member of the chain follows to the same carrier. -/
def Plan.allFollow (p : Plan) (id : Nat) (t : Nat × Nat) : Bool :=
  (p.members id).all fun g => decide ((p.ham g).follow = some t)

/-- Serve the follow request of Hamper `h`: a retune in place, or a second chain with the blend region. -/
def State.serveFollow (s : State) (loss : Bool) (p : Plan) (h : Nat) : Plan :=
  let q := p.ham h
  match q.follow, p.chainOf h with
  | some (b, f), some c =>
    if b = c.bearer ∧ sameZone f c.main.freq = true ∧ p.allFollow c.id (b, f) = true then
      (p.members c.id).foldl (fun p g => p.upd g fun x => { x with bearer := b, freq := f, follow := none })
        (p.setChain (c.retuned f)).normRates
    else
      let blend := decide (b ≠ c.bearer) || !sameZone f c.main.freq
      let p1 := p.upd h fun x =>
        { x with follow := none, bearer := b, freq := f, chain := none, alt := if blend then some c.id else none,
                 adecAlt := if blend then x.adec else none, adec := none }
      match s.serveChain loss p1 h with
      | (_, some _) => p.upd h fun x => { x with follow := none, followBad := 4 }
      | (p2, none) =>
        if !blend then p2.sweep
        else
          let (p3, grown) := s.growRegion p2 h
          let home := ((p3.chainOf h).map (·.clus)).getD 0
          match (if grown then (p3.ham h).blend <|> s.allocRegion p3 (s.pinsOf q) home 384 else none) with
          | some r => p3.upd h fun x => { x with blend := some r }
          | none => p.upd h fun x => { x with follow := none, followBad := 5 }
  | some _, none => p.upd h fun x => { x with follow := none, followBad := 4 }
  | none, _ => p

/-! ### Losses (R254, R256) -/

/-- A region was lost with its cluster. -/
def State.regionLost (s : State) (lost : List Nat) (r : Option Region) : Bool :=
  match r with | some r => s.fenced r.clus || lost.contains r.clus | none => false

/-- Remove what was lost: clusters, engines, FEC units, lanes, inputs, audio decode engines and regions (R254). A lane at
Expert level is lost unless a user of its chain pins it, effectively or not (R210, R257). The loss of a deinterleaver region
is that of the chain's highest-priority member. -/
def State.dropLost (s : State) (p : Plan) : Plan :=
  let pl := s.place
  let clusLost (c : Nat) : Bool := s.fenced c || pl.lostClus.contains c
  let held := p
  let deints := (p.chains.filter fun c => s.regionLost pl.lostClus c.deint).map (·.id)
  let p := p.chains.foldl (fun p c =>
    let gone := clusLost c.clus ||
      (decide (c.use ≠ .borrow) && (let k := engKey c.bearer c.main.eng; !s.engEn k || pl.lostEngs.contains k)) ||
      (decide (c.use = .held) && decide (2 ≤ c.bearer) && !s.en .fec) ||
      (match c.deint with | some r => clusLost r.clus | none => false)
    if gone then p.dropChain c.id else p) p
  let p := p.chains.foldl (fun p c =>
    match c.pair with
    | some l => let k := engKey c.bearer l.eng
                if !s.engEn k || pl.lostEngs.contains k then (p.setChain { c.unpair with pairLost := true }).normRates else p
    | none => p) p
  let p := p.chains.foldl (fun p c =>
    match p.find c.id with
    | none => p
    | some c =>
      let pinned (n : Nat) : Bool := (p.users c.id).any fun h => bit (p.ham h).req.pin0 31 && bit (p.ham h).req.pin0 n
      s.dropBranches p c fun b =>
        !s.en .lane b.lane || pl.lostLanes.contains b.lane || (s.laneExpert b.lane && !pinned b.lane) ||
          s.calFailed b.input || !s.en .rfin b.input) p
  { p with hams := p.hams.map fun x =>
      let q := x.2
      let lost := s.regionLost pl.lostClus q.region
      (x.1, { q with lost := lost, region := if lost then none else q.region,
                     chainLost := deints.any fun id => decide (held.top id = some x.1),
                     blend := if s.regionLost pl.lostClus q.blend then none else q.blend,
                     adec := if s.en .adec then q.adec else none, adecAlt := if s.en .adec then q.adecAlt else none }) }

/-- A Hamper held resources before and has lost some (for PLACE disabled, R265). -/
def HamSt.broken (q : HamSt) : Bool := decide (q.state = 2) && (q.chain.isNone || q.lost || (q.req.needsAdec q.bearer && q.adec.isNone))

/-- AF-watch Hampers whose LINK is not Placed hold nothing (R253). -/
def State.fixLinks (_s : State) (p : Plan) : Plan :=
  p.hams.foldl (fun p x =>
    let q := p.ham x.1
    if x.2.req.en ∧ x.2.code = 0 ∧ x.2.req.role = 2 ∧ q.state = 2 ∧ (p.ham q.req.link).state ≠ 2 then
      (p.release x.1).upd x.1 fun q => { q with state := 5, reason := 5 }
    else p) p

/-- A blend one of whose chains was touched by a loss is abandoned (R366). `before` is the plan before the losses, `keep` says whose old stream has a standing delay. -/
def Plan.dropBlends (p before : Plan) (keep : Nat → Bool) : Plan :=
  before.hams.foldl (fun p x =>
    match before.altOf x.1, before.chainOf x.1 with
    | some a, some c =>
      let q := p.ham x.1
      if q.alt = some a.id ∧ q.chain = some c.id ∧ p.find a.id = some a ∧ p.find c.id = some c ∧ q.blend.isSome = true then p
      else if q.alt = some a.id then p.unblend x.1 (keep x.1)
      else
        (p.upd x.1 fun q => { q with chain := none, alt := none, adec := none, adecAlt := none, blend := none,
                                     bearer := a.bearer, freq := a.main.freq }).sweep
    | _, _ => p) p

/-- Every enabled, valid Hamper becomes Suspended with REASON 1 and everything is released (R256). -/
def Plan.suspendAll (p : Plan) : Plan :=
  { p with chains := [], rates := [0, 0, 0, 0], hams := p.hams.map fun x =>
      if x.2.req.en ∧ x.2.code = 0 then
        (x.1, { x.2 with chain := none, alt := none, ldpc := none, adec := none, adecAlt := none, region := none, blend := none,
                         qIn := 0, aIn := 0, bearer := x.2.req.bearer, freq := x.2.req.freq, follow := none, state := 5, reason := 1 })
      else x }

/-! ### Commits (R242, R245, R246) -/

/-- A recommit that makes a placed Hamper move (R246). -/
def Req.moves (a b : Req) : Bool :=
  decide (a.en ≠ b.en) || decide (a.role ≠ b.role) || decide (a.bearer ≠ b.bearer) || decide (a.freq ≠ b.freq) ||
    decide (a.id0 ≠ b.id0) || decide (a.id1 ≠ b.id1) || decide (a.link ≠ b.link) || decide (a.mask ≠ b.mask) ||
    decide (a.div ≠ b.div) || decide (a.divMin ≠ b.divMin) || decide (a.combine ≠ b.combine) ||
    decide (a.pin0 ≠ b.pin0) || decide (a.pin1 ≠ b.pin1)

/-- Take the request of Hamper `h` into the plan. A moving change releases what it holds. With EN at 0 it is Off (R242). -/
def State.takeReq (s : State) (p : Plan) (h : Nat) : Plan :=
  let r := s.reqOf h
  let old := p.ham h
  let p := if old.code ≠ 0 ∨ old.req.moves r then p.release h else p
  let fresh := decide (old.code ≠ 0) || old.req.moves r
  p.upd h fun q => { q with req := r, code := 0, bearer := if fresh then r.bearer else q.bearer,
                            freq := if fresh then r.freq else q.freq, follow := if fresh then none else q.follow,
                            state := if r.en then q.state else 0, reason := if r.en then q.reason else 0 }

/-- Validate the committed Hampers in rank order: one that fails holds nothing (R242, R260). -/
def State.validateAll (s : State) (cs : List Nat) (p : Plan) : Plan :=
  let en := sortBy (s.before p) (cs.filter fun h => (p.ham h).req.en)
  let fixed := (p.hams.filter fun x => x.2.req.en && decide (x.2.code = 0) && !cs.contains x.1).map (·.1)
  (en.foldl (fun (acc : Plan × List Nat) h =>
    let p := acc.1
    let e := s.validate p h acc.2
    if e = 0 then (p, h :: acc.2)
    else ((p.release h).upd h fun q => { q with code := e, state := 4, reason := e }, acc.2)) (p, fixed)).1

/-- The committed Hampers. -/
def State.commits (s : State) : List Nat :=
  (List.range 128).filter fun h => bit (s.rd (F.PLACE_COMMIT_HAMPERS (h / 32))) (h % 32)

/-! ### The pass -/

/-- No branch is new any more. -/
def Plan.settle (p : Plan) : Plan :=
  let leg (l : Leg) : Leg := { l with br := l.br.map fun b => { b with fresh := false } }
  { p with chains := p.chains.map fun c => { c with main := leg c.main, pair := c.pair.map leg, pairLost := false },
           hams := p.hams.map fun x => (x.1, { x.2 with lost := false, chainLost := false, followBad := 0 }) }

/-- A Hamper that is Off shows STATE 0. -/
def Plan.offHams (p : Plan) : Plan :=
  { p with hams := p.hams.map fun x => if x.2.req.en then x else (x.1, { x.2 with state := 0, reason := 0, code := 0 }) }

/-- Place the chain of `members` anew in cluster `c` from free resources, for its highest member `h`: with the branches the
largest DIV_MIN of its members asks for, and the pair it has, on the pair's frequency (R243, R255). -/
def State.moveChain (s : State) (loss : Bool) (p : Plan) (h c : Nat) (second : Option Nat) (members : List Nat) : Except Nat Plan :=
  match s.tryChain loss h c second p with
  | .error e => .error e
  | .ok q =>
    match (q.ham h).chain with
    | none => .error 1
    | some id =>
      let q := members.foldl (fun q g => q.upd g fun x => { x with chain := some id }) q
      let more := s.chainMin q id - (((q.find id).map fun d => d.main.br.length).getD 0)
      let grow (second : Bool) (q : Plan) : Except Nat Plan :=
        let lanes := (s.freeLanes q c).take more
        if lanes.length < more then .error 1 else s.addBranches loss h id second lanes q
      match grow false q with
      | .error e => .error e
      | .ok q => if second.isSome then grow true q else .ok q

/-- The blends that chain `id` takes part in are abandoned: it is moved (R366). -/
def State.abandonOn (s : State) (p : Plan) (id : Nat) : Plan :=
  ((p.users id).filter fun h => (p.ham h).alt.isSome).foldl (fun p h => p.unblend h (decide (s.rd (F.PLACE_FOLLOW_W3_STANDING h) ≠ 0))) p

/-- The chain to be moved out of a hot cluster is released when another cluster that is not hot takes it without
displacement (R255). A second chain of a blend ends with it (R366). -/
def State.shedChain (s : State) (loss : Bool) (p : Plan) (id : Nat) : Plan :=
  let p0 := s.abandonOn p id
  match p0.find id with
  | none => p0
  | some c =>
    match p0.top id with
    | none => p
    | some h =>
      let q := p0.dropChain id
      match firstOk (((s.clusFor q h).filter fun d => !(s.clu d).hot && decide (d ≠ c.clus)).map fun d =>
          s.moveChain loss q h d (c.pair.map (·.freq)) (p0.members id)) with
      | .ok q => q
      | .error _ => p

/-- Every input that carries lanes runs at a rate sufficient for all of them (R249). -/
def Plan.fixRates (p : Plan) : Plan :=
  { p with rates := (List.range 4).map fun i =>
      let cur := p.rates.getD i 0
      p.chains.foldl (fun r c => c.legs.foldl (fun r l =>
        if l.br.any fun b => decide (b.input = i) then
          (match needRate c.bearer l.freq with | some n => if r = 0 then n else min r n | none => r) else r) r) cur }

/-- One Hamper's turn in the first round (R247): its minimum placement, then its follow request at its own priority
(R252). -/
def State.turn (s : State) (loss : Bool) (p : Plan) (h : Nat) : Plan :=
  let p := s.serve loss p h
  if (p.ham h).state = 2 then s.serveFollow loss p h else p.upd h fun q => { q with follow := none }

/-- Hamper `h` had its turn and was displaced since: it is served again (R250). -/
def Plan.displaced (p : Plan) (h : Nat) : Bool := decide ((p.ham h).state = 2) && (p.ham h).chain.isNone

/-- The pair of the chain of `h` was lost in this pass, and `h` asks for it (R254). -/
def Plan.unpaired (p : Plan) (h : Nat) : Bool := p.lacksPair h && (match p.chainOf h with | some c => c.pairLost | none => false)

/-- The placement a pass decides on from its snapshot of requests and what is available now (R245 to R260). -/
def State.solve (s : State) (snap : Plan) : Plan :=
  let loss := s.place.runLoss || s.place.redo || s.holds
  if s.radio < 2 then snap.suspendAll.offHams
  else
    let p := if s.place.fresh then snap.suspendAll else (s.dropLost snap).dropBlends snap fun h => decide (s.rd (F.PLACE_FOLLOW_W3_STANDING h) ≠ 0)
    if !s.en .place then
      (s.fixLinks (p.hams.foldl (fun p x =>
        if (p.ham x.1).broken then (p.release x.1).upd x.1 fun q => { q with state := 5, reason := 2 }
        else if (p.ham x.1).state = 2 ∧ p.unpaired x.1 = true then p.upd x.1 fun q => { q with reason := 7 } else p) p)).sweep.offHams
    else
      let p := match s.place.shed with | some id => s.shedChain loss p id | none => p
      let ord := s.order p
      let p := ord.foldl (s.turn loss) p
      let p := ord.foldl (fun p _ => ord.foldl (fun p h => if p.displaced h then s.turn loss p h else p) p) p
      let p := ord.foldl (fun p h => s.serveMore loss p h) p
      (s.fixLinks p).sweep.fixRates.offHams

end Sys2Proof.Machine
end

