-- ==== Sys2Proof/Machine/FollowOps.lean ====
section
/-! DEFINITION. Service following: candidates, comparison, borrowed engines and what a publication changes
(R348 to R358, R378). -/
namespace Sys2Proof.Machine
open Sys2Proof

def FolSt.init : FolSt := { sw := none, holdoff := false, relax := none }

def State.fol (s : State) (n : Nat) : FolSt := tget FolSt.init s.follow n
def State.updFol (s : State) (n : Nat) (f : FolSt → FolSt) : State := { s with follow := tput FolSt.init s.follow n (f (s.fol n)) }
/-- A measuring Hamper: AF watch, Scan or Beacon, and Placed. -/
def State.measures (s : State) (w : Nat) : Bool := s.placed w && decide (2 ≤ (s.ham w).req.role) && decide ((s.ham w).req.role ≤ 4)

/-- The Placed AF-watch Hampers that link to Hamper `n` (R348). -/
def State.watchersOf (s : State) (n : Nat) : List Nat :=
  (s.place.live.hams.filter fun x => decide (x.1 < 128) && decide (x.2.state = 2) && decide (x.2.req.role = 2) &&
    decide (x.2.req.link = n)).map (·.1)

/-- Hamper `n` is followed (R348). -/
def State.isFollowed (s : State) (n : Nat) : Bool :=
  s.placed n && decide ((s.ham n).req.role = 0) && s.on F.PLACE_FOLLOW_CFG_EN && !(s.watchersOf n).isEmpty

/-- The chain that supplies the sound of Hamper `n`: during a blend the one being faded out (R348). -/
def State.soundChain (s : State) (n : Nat) : Option PChain :=
  match s.place.live.altOf n with | some c => some c | none => s.chainOf n

/-- Bearer and frequency in force of Hamper `n` (R348). -/
def State.bearerNow (s : State) (n : Nat) : Nat := match s.soundChain n with | some c => c.bearer | none => (s.ham n).req.bearer
def State.freqNow (s : State) (n : Nat) : Nat := match s.soundChain n with | some c => c.main.freq | none => (s.ham n).req.freq

/-- FOLLOW_W2.GAIN (R363): from BLEND_DONE on, the gain relaxes towards 0 dB by 0.1 dB in every 200 ms. -/
def State.followGain (s : State) (n : Nat) : Nat :=
  let g := ofField 8 (s.rd (F.PLACE_FOLLOW_W2_GAIN n))
  match (s.fol n).relax with
  | none => toField 8 g
  | some t =>
    let k : Nat := (s.elapsed - t) / (nsUnit * 200000000)
    toField 8 (if 0 ≤ g then max 0 (g - k) else min 0 (g + k))

/-- Qc (R357). -/
def State.qc (s : State) (n : Nat) : Nat := s.rd (F.HAMPER_RSTAT_QUAL n)

/-- An identity word as wide as the bearer's (R240). -/
def identOf (b v : Nat) : Nat := if b = 1 then v % 2 ^ 16 else if b = 3 ∨ b = 4 then v % 2 ^ 24 else v % 2 ^ 32

/-- The identity a request names on bearer `b`: PI, SId or DRM service ID, and in DAB the EId; 0 for any (R240). -/
def Req.ident (r : Req) (b : Nat) : Nat × Nat := (identOf b r.id0, if b = 2 then r.id1 / 0x10000 else 0)

/-- The identity confirmed on the chain of Hamper `n` (R351): the PI, or what resolved there, with the EId. -/
def State.confirmed (s : State) (n : Nat) : Option (Nat × Nat) :=
  match s.soundChain n with
  | none => none
  | some c =>
    if c.bearer = 1 then (s.anaS c.main.eng).pi.map fun p => (p, 0)
    else (s.resOf c n).map fun r => (identOf c.bearer r.id0, r.eid)

/-- What FIG 0/6 links on bearer `b` to the service that Hamper `n` plays in DAB (R351). -/
def State.linked (s : State) (n b : Nat) : Option Nat :=
  match s.soundChain n, s.confirmed n with
  | some c, some v =>
    if c.bearer = 2 then
      (s.fec.links.find? fun k => decide (k.sid = v.1) && decide (k.bearer = b) && c.legs.any fun l => decide (l.eng = k.eng)).map (·.ident)
    else none
  | _, _ => none

/-- The expected identity of a candidate of watcher `w` (R351): PI, SId or DRM service ID with the EId; 0 accepts any, as where a DAB
watcher names an ensemble alone. -/
def State.expected (s : State) (w : Nat) (c : Cand) : Option (Nat × Nat) :=
  let q := (s.ham w).req
  if c.source = 7 then some ((s.ham q.link).req.ident c.bearer)
  else if q.id0 ≠ 0 ∨ (c.bearer = 2 ∧ q.id1 ≠ 0) then some (q.ident c.bearer)
  else
    match (if c.bearer = s.bearerNow q.link then s.confirmed q.link else none) with
    | some v => some v
    | none => (s.linked q.link c.bearer).map fun i => (identOf c.bearer i, 0)

/-- A bearer counts as digital for DIG_BIAS (R357). -/
def isDigital (b : Nat) : Bool := decide (2 ≤ b) && decide (b ≤ 4)

/-- Qa of a QUAL measured on bearer `b` for Hamper `n` (R357). -/
def State.qaOf (s : State) (n b q : Nat) : Int :=
  let bias : Int := s.rd F.PLACE_X_FOLLOW_DIG_BIAS
  let y := s.bearerNow n
  if isDigital b ∧ y = 1 then (q : Int) + bias else if b = 1 ∧ isDigital y = true then (q : Int) - bias else q

/-- A measurement passes the test of R358. -/
def State.passesTest (s : State) (n : Nat) (qa : Int) : Bool :=
  let qc : Int := s.qc n
  let hyst : Int := s.rd F.PLACE_FOLLOW_CFG_HYST
  let fail : Int := s.rd F.PLACE_FOLLOW_CFG_FAIL_QUAL
  decide (qc + hyst ≤ qa) || (decide (qc < fail) && decide (fail + hyst ≤ qa))

/-- The candidate names the carrier in force itself, to which there is nothing to switch. (assumption 12) -/
def State.isCurrent (s : State) (n : Nat) (c : Cand) : Bool := decide (c.bearer = s.bearerNow n) && decide (c.freq = s.freqNow n)

/-- A candidate of watcher `w` meets the conditions of R358. -/
def State.qualifies (s : State) (w : Nat) (c : Cand) : Bool :=
  let n := (s.ham w).req.link
  (s.expected w c).isSome && !c.bad && !s.isCurrent n c &&
    (decide (c.bearer = s.bearerNow n) || s.on F.PLACE_FOLLOW_CFG_CROSS) && decide (2 ≤ c.run) &&
    decide (s.rd F.PLACE_FOLLOW_CFG_DWELL * 100000 * (nsUnit * 1000) ≤ s.elapsed - c.since) &&
    !(s.fol n).holdoff && (s.fol n).sw.isNone && s.isFollowed n

/-- Every candidate of Hamper `n` with its watcher and its Qa, in watcher and list order. -/
def State.candsOf (s : State) (n : Nat) : List (Nat × Cand × Int) :=
  (s.watchersOf n).flatMap fun w => (s.watcher w).cands.filterMap fun c => c.qual.map fun q => (w, c, s.qaOf n c.bearer q)

/-- The best of a list: the highest Qa, the bearer in force first in a tie, then the order of the list (R358). -/
def bestCand (y : Nat) (l : List (Nat × Cand × Int)) : Option (Nat × Cand × Int) :=
  l.foldl (fun best x =>
    match best with
    | none => some x
    | some b =>
      if b.2.2 < x.2.2 ∨ (b.2.2 = x.2.2 ∧ x.2.1.bearer = y ∧ b.2.1.bearer ≠ y) then some x else some b) none

/-- FOLLOW[n] words 0 and 1 follow the candidates (R378). -/
def State.showFollow (s : State) (n : Nat) : State :=
  let f := s.isFollowed n
  let st := s.rd (F.PLACE_FOLLOW_W0_STATE n)
  let s := s.wr (F.PLACE_FOLLOW_W0_STATE n) (if (s.fol n).sw.isSome then st else b2n f)
  let s := s.wr (F.PLACE_FOLLOW_W0_BEARER_NOW n) (if s.placed n then s.bearerNow n else 0)
  let s := s.wr (F.PLACE_FOLLOW_W0_CANDS n)
    (if f then (s.watchersOf n).foldl (fun k w => k + (s.watcher w).cands.length) 0 else 0)
  match (if f then bestCand (s.bearerNow n) (s.candsOf n) else none) with
  | some (_, c, qa) =>
    (((s.wr (F.PLACE_FOLLOW_W0_BEST_BEARER n) c.bearer).wr (F.PLACE_FOLLOW_W0_BEST_SRC n) c.source).wr
      (F.PLACE_FOLLOW_W0_BEST_QUAL n) (max 0 qa).toNat).wr (F.PLACE_FOLLOW_W1_BEST_FREQ n) c.freq
  | none =>
    (((s.wr (F.PLACE_FOLLOW_W0_BEST_BEARER n) 0).wr (F.PLACE_FOLLOW_W0_BEST_SRC n) 0).wr
      (F.PLACE_FOLLOW_W0_BEST_QUAL n) 0).wr (F.PLACE_FOLLOW_W1_BEST_FREQ n) 0

/-! ### Candidates (R350, R352) -/

/-- An unmeasured candidate. -/
def Cand.mk0 (b f src : Nat) : Cand :=
  { bearer := b, freq := f, source := src, qual := none, bad := false, run := 0, since := 0 }

/-- Seed and home stay. -/
def Cand.learnt (c : Cand) : Bool := decide (c.source ≠ 0) && decide (c.source ≠ 7)

/-- Position of the measured learnt candidate with the lowest last QUAL. -/
def worstCand (l : List Cand) : Option Nat :=
  ((List.range l.length).foldl (fun (best : Option (Nat × Nat)) i =>
    match l[i]? with
    | some c => match c.learnt, c.qual, best with
      | true, some q, none => some (i, q)
      | true, some q, some (j, m) => if q < m then some (i, q) else some (j, m)
      | _, _, _ => best
    | none => best) none).map (·.1)

/-- Take a candidate into a list: known ones stay, a full list gives up its worst measured one (R350, R352). -/
def addCand (l : List Cand) (c : Cand) : List Cand :=
  if l.any fun d => decide (d.bearer = c.bearer) && decide (d.freq = c.freq) then l
  else if l.length < 16 then l ++ [c]
  else match worstCand l with
    | some i => l.set i c
    | none => l

/-- The watcher takes an entry of this source, with Y the bearer in force of the Hamper it follows (R350). -/
def State.takesEntry (s : State) (w : Nat) (e : AfEntry) : Bool :=
  let q := (s.ham w).req
  let y := s.bearerNow q.link
  let src : Nat := e.source
  let b : Nat := e.bearer
  decide (b = q.bearer) &&
    (if src = 1 then decide (b = 1) && decide (y = 1)
     else if src = 2 then decide (b = 1) && decide (y = 1) && decide (e.pair.toNat = s.freqNow q.link)
     else if src = 3 then decide (b = 1) && (s.expected w (Cand.mk0 b e.freq.toNat src)).any fun v => decide (v.1 = identOf 1 e.ident.toNat)
     else if src = 4 then decide (y = 2)
     else if src = 5 then decide (b = 2) && decide (y = 2) && (s.confirmed q.link).any fun v => decide (v.1 = e.ident.toNat)
     else decide (src = 6) && (decide (y = 3) || decide (y = 4)))

/-- Signalling that passed its checks adds candidates (R350): those of the Hampers the engine serves; an EON list of
group 14A reaches every FM watcher that expects its PI. -/
def State.learn (s : State) (k : Nat) (l : List AfEntry) : State :=
  let served := s.hampersOn k
  let ws := (s.watch.map (·.1)).filter fun w => decide ((s.ham w).req.role = 2) && s.placed w
  let s := s.each l fun s e => s.each ws fun s w =>
    if (served.contains (s.ham w).req.link || decide ((e.source : Nat) = 3)) && s.takesEntry w e then
      s.updWatch w fun x => { x with cands := addCand x.cands (Cand.mk0 e.bearer e.freq.toNat e.source) }
    else s
  if l.isEmpty then s else s.each served State.showFollow

/-- The home candidate stands while the bearer in force differs from the requested one (R350). -/
def State.homeEval (s : State) (w : Nat) : State :=
  let n := (s.ham w).req.link
  let q := (s.ham n).req
  s.updWatch w fun x =>
    let rest := x.cands.filter fun c => decide (c.source ≠ 7)
    if s.bearerNow n = q.bearer then { x with cands := rest }
    else if x.cands.any fun c => decide (c.source = 7) then x
    else { x with cands := (if rest.length < 16 then rest else
      match worstCand rest with | some i => rest.eraseIdx i | none => rest.dropLast) ++ [Cand.mk0 q.bearer q.freq 7] }

/-! ### Borrowed engines (R267, R294, R353) -/

/-- The borrowed engine of a measuring Hamper goes back (R353). -/
def State.endMeas (s : State) (w : Nat) : State :=
  match (s.watcher w).meas with
  | none => s
  | some m =>
    let s := s.updWatch w fun x => { x with meas := none }
    match m.eng with
    | none => s
    | some k => ((s.unlend k).engIdle k).showEngines

/-! ### AF_FAIL (R360) -/

/-- A follow failed: counted, captured and raised. -/
def State.afFail (s : State) (n reason : Nat) : State :=
  let s := s.bump F.PLACE_FOLLOW_CNT_FAILS
  let s := if s.on F.PLACE_FOLLOW_CAPT_VALID then s
    else ((s.wr F.PLACE_FOLLOW_CAPT_VALID 1).wr F.PLACE_FOLLOW_CAPT_REASON reason).wr F.PLACE_FOLLOW_CAPT_HAMPER n
  s.raise .place C.SERVICE_AF_FAIL

/-- The candidate a switch went for is held bad (R352, R359). -/
def State.holdBad (s : State) (sw : Switch) : State :=
  s.updWatch sw.watcher fun x => { x with cands := x.cands.map fun c =>
    if c.bearer = sw.bearer ∧ c.freq = sw.freq then { c with bad := true, run := 0 } else c }

/-! ### After a publication -/

/-- The old stream keeps the level gain it had before its blend took an offset (R363). -/
def State.gainBack (s : State) (n : Nat) : State :=
  match (s.fol n).sw with
  | some sw =>
    if s.rd (F.PLACE_FOLLOW_W0_STATE n) = 4 then
      (s.wr (F.PLACE_FOLLOW_W2_GAIN n) sw.oldGain).updFol n fun f => { f with relax := some s.elapsed }
    else s
  | none => s

/-- Watchers, borrowed engines and switches follow the placements (R252, R253, R366). `old` is the placement
before. -/
def State.followEval (s : State) (old : Plan) : State :=
  let s := s.each ((s.place.live.hams ++ old.hams).map (·.1)) fun s w =>
    let q := (s.ham w).req
    let o := old.ham w
    if s.measures w then
      if o.state = 2 ∧ o.req.moves q = false ∧ (s.watch.any fun x => decide (x.1 = w)) then s
      else
        let seed := if q.role = 2 then [Cand.mk0 q.bearer q.freq 0] else []
        (s.endMeas w).updWatch w fun _ => { WatchSt.init with cands := seed, scan := q.freq }
    else if s.watch.any fun x => decide (x.1 = w) then (s.endMeas w).updWatch w fun _ => WatchSt.init
    else s
  let s := s.each ((s.watch.map (·.1)).filter fun w => decide ((s.ham w).req.role = 2)) State.homeEval
  let s := s.each (s.follow.map (·.1)) fun s n =>
    match (s.fol n).sw with
    | some sw =>
      if (sw.second && (s.ham n).alt.isNone) || !s.placed n then
        let s := (s.gainBack n).updFol n fun f => { f with sw := none, holdoff := f.holdoff || sw.second }
        if sw.second then s.afFail n 6 else s
      else s
    | none => s
  let s := s.each (((s.place.live.hams ++ old.hams).map (·.1)).filter fun n => decide (n < 128)) fun s n =>
    let s := if (s.placed n && (s.ham n).blend.isSome) || decide (s.reg (F.PLACE_FOLLOW_W3_STANDING n).addr = 0) then s
      else (s.wr (F.PLACE_FOLLOW_W3_STANDING n) 0).wr (F.PLACE_FOLLOW_W2_GAIN n) 0
    if (s.ham n).req.role = 0 ∨ (old.ham n).req.role = 0 then s.showFollow n else s
  s.showEngines

end Sys2Proof.Machine
end

