-- ==== Sys2Proof/Machine/Publish.lean ====
section
/-! DEFINITION. Publication: a plan becomes the placement in force, with its reports, lanes, rates, clusters and queues
(R249, R261 to R263). -/
namespace Sys2Proof.Machine
open Sys2Proof

/-- The report words of a Hamper under a plan, without SEQ and QUAL (R261): STATE, REASON, COMBINED, BRANCHES, then the
words 0x104 to 0x114. -/
structure Report where
  state : Nat
  reason : Nat
  combined : Nat
  branches : Nat
  lanes : Nat
  units : Nat
  freq : Nat
  region : Nat
  alt : Nat
deriving DecidableEq, Repr

/-- Lanes of a chain as a mask. -/
def PChain.laneMask (c : PChain) : Nat := c.lanes.foldl (fun m n => setBit m n) 0

/-- The S_CHAIN word (0x108) of Hamper `h` on chain `c`. -/
def unitsWord (q : HamSt) (c : PChain) : Nat :=
  let held := decide (c.use ≠ .borrow)
  let vrs := held && usesVrs c.bearer
  b2n held * 2 ^ 31 + (if held then b2n (isAna c.bearer) * 2 ^ 30 + c.main.eng * 2 ^ 24 else 0) +
    (if vrs then 2 ^ 23 + c.clus * 2 ^ 20 else match q.ldpc with | some u => 2 ^ 23 + u * 2 ^ 20 | none => 0) +
    (match q.adec with | some e => 2 ^ 19 + e * 2 ^ 16 | none => 0) + c.clus * 2 ^ 12 +
    ((List.range 4).foldl (fun w b =>
      match c.main.br[b]? with
      | some x => w + x.input * 2 ^ (if b < 2 then 8 + 2 * b else 4 + 2 * (b - 2))
      | none => w) 0)

/-- The S_REGION word (0x110): granules of the Hamper's regions, and the deinterleaver for the top member (R243). -/
def Plan.regionWord (p : Plan) (h : Nat) : Nat :=
  let q := p.ham h
  let deint := match p.chainOf h with | some c => if p.top c.id = some h then c.deint else none | none => none
  let all := q.region.toList ++ deint.toList ++ q.blend.toList
  (all.foldl (fun n r => n + 4 * r.count) 0) * 0x10000 + ((all.head?.map (·.clus)).getD 0)

/-- The S_ALT word (0x114). -/
def Plan.altWord (p : Plan) (h : Nat) : Nat :=
  match p.altOf h with
  | some c => 2 ^ 31 + c.main.eng * 2 ^ 24 + c.laneMask
  | none => 0

/-- The report of Hamper `h` under a plan. -/
def Plan.report (p : Plan) (h : Nat) : Report :=
  let q := p.ham h
  match (if q.state = 2 then p.chainOf h else none) with
  | some c =>
    { state := 2, reason := q.reason, combined := b2n c.pair.isSome, branches := c.main.br.length, lanes := c.laneMask,
      units := unitsWord q c, freq := c.main.freq, region := p.regionWord h, alt := p.altWord h }
  | none =>
    { state := q.state, reason := q.reason, combined := 0, branches := 0, lanes := 0, units := 0, freq := 0, region := 0,
      alt := 0 }

/-- The report as the Hamper table shows it now. -/
def State.shownReport (s : State) (h : Nat) : Report :=
  { state := s.rd (F.HAMPER_RSTAT_STATE h), reason := s.rd (F.HAMPER_RSTAT_REASON h),
    combined := s.rd (F.HAMPER_RSTAT_COMBINED h), branches := s.rd (F.HAMPER_RSTAT_BRANCHES h),
    lanes := (s.reg (F.HAMPER_RLANES_LANES h).addr).toNat, units := (s.reg (F.HAMPER_RUNITS_FEC h).addr).toNat,
    freq := (s.reg (F.HAMPER_RFREQ_S_FREQ h).addr).toNat, region := (s.reg (F.HAMPER_RREGION_REGION_KIB h).addr).toNat,
    alt := (s.reg (F.HAMPER_RALT_ALT_LANES h).addr).toNat }

/-- Write a report: SEQ moves on by two, from an even value over the odd one (R262). -/
def State.putReport (s : State) (h : Nat) (r : Report) : State :=
  let s := (((s.wr (F.HAMPER_RSTAT_STATE h) r.state).wr (F.HAMPER_RSTAT_REASON h) r.reason).wr
    (F.HAMPER_RSTAT_COMBINED h) r.combined).wr (F.HAMPER_RSTAT_BRANCHES h) r.branches
  let s := s.wr (F.HAMPER_RSTAT_SEQ h) (s.rd (F.HAMPER_RSTAT_SEQ h) + 2)
  let s := if r.state = 2 then s else s.wr (F.HAMPER_RSTAT_QUAL h) 0
  let put (s : State) (f : Fld) (v : Nat) : State := s.setReg f.addr (BitVec.ofNat 32 v)
  put (put (put (put (put s (F.HAMPER_RLANES_LANES h) r.lanes) (F.HAMPER_RUNITS_FEC h) r.units)
    (F.HAMPER_RFREQ_S_FREQ h) r.freq) (F.HAMPER_RREGION_REGION_KIB h) r.region) (F.HAMPER_RALT_ALT_LANES h) r.alt

/-- Words 0x104 to 0x114 differ. -/
def Report.moved (a b : Report) : Bool :=
  decide (a.lanes ≠ b.lanes) || decide (a.units ≠ b.units) || decide (a.freq ≠ b.freq) || decide (a.region ≠ b.region) ||
    decide (a.alt ≠ b.alt)

/-- Publish the report of one Hamper: words, EVENT bit, then the SERVICE cause of R263. `rej`: its commit was rejected;
`again`: its lanes restart under a raised rate (R249). -/
def State.publishHam (s : State) (h : Nat) (new : Report) (rej again : Bool) : State :=
  let old := s.shownReport h
  if old = new ∧ rej = false ∧ again = false then s
  else
    let s := s.putReport h new
    let s := s.wr (F.PLACE_EVENT_HAMPERS (h / 32)) (setBit (s.rd (F.PLACE_EVENT_HAMPERS (h / 32))) (h % 32))
    if rej then s.raise .place C.SERVICE_REJECTED
    else if new.state = 2 ∧ old.state ≠ 2 then (s.bump (F.HAMPER_RCOUNT_PLACEMENTS h)).raise .place C.SERVICE_PLACED
    else if new.state = 2 ∧ (old.moved new = true ∨ again = true) then
      (s.bump (F.HAMPER_RCOUNT_MOVES h)).raise .place C.SERVICE_MOVED
    else if new.state ≠ 2 ∧ old.state = 2 then s.raise .place C.SERVICE_UNPLACED
    else s

/-- What lane `n` is to be assigned under a plan: Hamper, engine, input, preset, frequency, whether it only borrows, and whether it
joins a branch that stays. -/
def Plan.laneWant (p : Plan) (n : Nat) : Option (Nat × Option (Bool × Nat) × Nat × Nat × Nat × Bool × Bool) :=
  p.chains.findSome? fun c => c.legs.findSome? fun l => (l.br.find? fun b => decide (b.lane = n)).map fun b =>
    let h := match p.top c.id with | some h => h | none => ((p.users c.id).head?).getD 0
    let h := if h < 128 then h else (p.ham h).req.link
    (h, (if c.use = .borrow then none else some (isAna c.bearer, l.eng)), b.input, bearerPreset c.bearer, l.freq,
      decide (c.use = .borrow), b.fresh && l.br.any fun x => !x.fresh)

/-- PLACE writes the Basic fields of the lanes whose assignment changes (R210). -/
def State.assignLane (s : State) (p : Plan) (n : Nat) : State :=
  match p.laneWant n with
  | none =>
    if s.on (F.LANE_ASSIGN_PLACED n) ∨ s.rd (F.LANE_ASSIGN_PRESET n) ≠ 0 then
      s.setLane n none none (s.rd (F.LANE_ASSIGN_INPUT n)) 0 0
    else s
  | some (h, eng, input, preset, freq, borrow, joins) =>
    let same := s.on (F.LANE_ASSIGN_PLACED n) && decide (s.rd (F.LANE_ASSIGN_HAMPER n) = h) && decide (s.rd (F.LANE_ASSIGN_PRESET n) ≠ 0)
    let full := same && decide (s.rd (F.LANE_ASSIGN_ENG_VALID n) = b2n eng.isSome) &&
      decide (s.rd (F.LANE_ASSIGN_ENG_TYPE n) = b2n (eng.getD (false, 0)).1) &&
      decide (s.rd (F.LANE_ASSIGN_ENGINE n) = (eng.getD (false, 0)).2) && decide (s.rd (F.LANE_ASSIGN_INPUT n) = input) &&
      decide (s.rd (F.LANE_ASSIGN_PRESET n) = preset) && decide (s.rd (F.LANE_FREQ_FREQ_HZ n) = freq)
    if (borrow && same) || full then s else s.setLane n (some h) eng input preset freq joins

/-- Stage the rates of a plan, and commit them if any has changed (R58, R249). -/
def State.stageRates (s : State) (rates : List Nat) : State :=
  if s.isExpert .clk || decide (s.radio < 2) || decide ((List.range 4).map s.staged = rates) then s
  else
    let s := s.each (List.range 4) fun s i =>
      s.wr ⟨F.CLK_SAMP_STAGE_RATE0.addr, 2 * i + 1, 2 * i⟩ (rates.getD i 0)
    s.wr F.CLK_DIV_COMMIT_COMMIT 1

/-- Hampers whose kept lanes restart because the rate of their input is raised (R233, R249). -/
def State.restarted (s : State) (p : Plan) : List Nat :=
  if s.isExpert .clk || decide (s.radio < 2) then []
  else
    p.chains.flatMap fun c =>
      if c.legs.any fun l => l.br.any fun b => !b.fresh && decide (s.staged b.input ≠ 0) && decide (s.staged b.input ≠ p.rates.getD b.input 0)
      then (p.users c.id).filter fun h => decide (h < 128) else []

/-- Every key of two tables, once each, in ascending order. -/
def hamKeys (a b : Plan) : List Nat :=
  (List.range 128).filter fun h => (a.hams.any fun x => decide (x.1 = h)) || (b.hams.any fun x => decide (x.1 = h))

/-- Objects in assembly that satisfy a test are discarded and counted (R402). -/
def State.dropAssy (s : State) (gone : Assy → Bool) : State :=
  let n := (s.data.assy.filter gone).length
  { s.sat F.DATA_COUNT2_ASSY_DROPS n with data := { s.data with assy := s.data.assy.filter fun a => !gone a } }

/-- Object assembly follows the placements: a lost region discards its objects with the envelopes that wait in it, a
released or Suspended Hamper those in its region (R402, R427). -/
def State.assyEval (s : State) (lost : List Nat) : State :=
  let gone (h : Nat) : Bool := lost.contains h || !s.placed h || decide ((s.ham h).aIn = 0)
  let s := s.dropAssy fun a => gone a.hamper
  let keep (o : Obj) : Bool := !lost.contains o.hamper
  let n := (s.data.envs.filter fun o => !keep o).length + (s.data.waiting.filter fun o => gone o.hamper).length
  if n = 0 then s
  else
    let head := match s.data.envs with | o :: _ => keep o | [] => true
    let s := { s.sat F.DATA_COUNT2_ASSY_DROPS n with
               data := { s.data with envs := s.data.envs.filter keep, waiting := s.data.waiting.filter fun o => !gone o.hamper,
                                     verify := if head then s.data.verify else .idle } }
    let s := s.wr F.DATA_ENV_STAT_QUEUED s.data.envs.length
    if head then s else s.wr F.DATA_ENV_STAT_BUSY 0

/-- A kept lane of a plan runs on the carrier it had; a lane that measures stays where its measurement has it. -/
def State.unmoved (s : State) (c : PChain) (l : Leg) (b : Branch) : Bool :=
  b.fresh || decide (c.use = .borrow) || decide (s.rd (F.LANE_FREQ_FREQ_HZ b.lane) = l.freq)

/-- Inputs whose filter the pass of a fence or unfence leaves alone (R26; assumption 97): lanes stay on them, on the carriers
they had. -/
def State.heldInputs (s : State) (p : Plan) : List Nat :=
  (List.range 4).filter fun i => p.keepsOn i &&
    p.chains.all fun c => c.legs.all fun l => l.br.all fun b => decide (b.input ≠ i) || s.unmoved c l b

/-- The filter of an input follows the lanes placed on it (R197), or stays where `held`: the lanes now there count as those
it was chosen for. -/
def State.filtPublish (s : State) (held : List Nat) (i : Nat) : State :=
  if held.contains i then s.updRf i fun r => { r with filtFor := s.inputLanes i } else s.filtEval i

/-- Put a plan into force (R245, R261 to R263), and let the blocks behind it follow. `fence`: a fence or unfence triggered the
pass. -/
def State.publish (s : State) (p : Plan) (rejected : List Nat) (fence : Bool) : State :=
  let old := s.place.live
  let keys := hamKeys old p
  let again := s.restarted p
  let held := if fence then s.heldInputs p else []
  let s := s.each keys fun s h => s.publishHam h (p.report h) (rejected.contains h) (again.contains h)
  let lost := keys.filter fun h => (p.ham h).lost
  let s := { s with place := { s.place with live := p.settle } }
  let s := s.each (List.range 24) fun s n => s.assignLane p n
  let s := (s.stageRates p.rates).each (List.range 4) (·.filtPublish held ·)
  let s := s.each (keys.filter fun h => (p.ham h).lost || (p.ham h).chainLost) fun s h =>
    ((s.sat F.DATA_REGION_COUNT).wr F.DATA_REGION_HAMPER h).raise .data C.DATA_REGION_LOST
  let s := s.each keys fun s h => s.queueEval h (lost.contains h)
  (((((s.combRetuned old).fecEval.adecEval old).audEvalAll).assyEval lost).followEval old).clusEvalAll

/-- A change of the placement outside a pass: it reaches the published plan and the snapshot of a pass that runs, which
starts again (R245). -/
def State.editPlan (s : State) (f : Plan → Plan) : State :=
  let s := if s.place.running then { s with place := { s.place with snap := f s.place.snap, redo := true } } else s
  s.publish (f s.place.live) [] false

end Sys2Proof.Machine
end

