-- ==== Sys2Proof/Machine/FollowAct.lean ====
section
/-! DEFINITION. Switches of a followed Hamper: how they begin, end and fail (R358 to R366). -/
namespace Sys2Proof.Machine
open Sys2Proof

/-- Clear a switch; FOLLOW[n].STATE goes back to watching or not followed. -/
def State.endSwitch (s : State) (n : Nat) : State := (s.updFol n fun f => { f with sw := none }).showFollow n

/-- The second chain is released and the follow reported as failed; the blend has ended (R358, R360 to R366). -/
def State.releaseSecond (s : State) (n reason : Nat) : State :=
  let keep := decide (s.rd (F.PLACE_FOLLOW_W3_STANDING n) ≠ 0)
  let s := (((s.gainBack n).updFol n fun f => { f with holdoff := true }).endSwitch n).editPlan fun p => p.unblend n keep
  s.afFail n reason

/-- A switch ends with the new chain in force: the old one is released, the blend region kept while a standing delay
remains, HOLDOFF begins, and the end of the crossfade is a change for a zero crossing (R358, R364 to R366). -/
def State.finishSwitch (s : State) (n : Nat) (aligned : Bool) : State :=
  let delay := match (s.fol n).sw with | some sw => sw.delay | none => 0
  let s := s.wr (F.PLACE_FOLLOW_W3_STANDING n) (if aligned then delay else 0)
  let s := s.updFol n fun f => { f with sw := none, holdoff := true, relax := if aligned then some s.elapsed else none }
  let s := (s.wr (F.PLACE_FOLLOW_W0_ALIGNED n) (b2n aligned)).raise .place C.SERVICE_BLEND_DONE
  let keep := decide (s.rd (F.PLACE_FOLLOW_W3_STANDING n) ≠ 0)
  let s := s.editPlan fun p =>
    (p.upd n fun q => { q with alt := none, adecAlt := none, blend := if keep then q.blend else none }).sweep
  (s.audChange n).showFollow n

/-- A hard switch: the crossfade is made at once at the new stream's position (R366). -/
def State.hardSwitch (s : State) (n : Nat) : State :=
  (s.wr (F.PLACE_FOLLOW_W2_GAIN n) 0).finishSwitch n false

/-- Put a follow request to PLACE and trigger a pass (R244, R252). -/
def State.askFollow (s : State) (n b f : Nat) : State :=
  { s with place := { s.place with live := s.place.live.upd n fun q => { q with follow := some (b, f) } } }.trigger

/-- If a candidate of Hamper `n` qualifies, a switch begins: an FM target is verified first, any other goes to PLACE at
once (R358, R359). -/
def State.evalSwitch (s : State) (n : Nat) : State :=
  if (s.fol n).sw.isSome || (s.fol n).holdoff || !s.isFollowed n then s
  else match bestCand (s.bearerNow n) ((s.candsOf n).filter fun x => s.qualifies x.1 x.2.1) with
    | none => s
    | some (w, c, _) =>
      let fm := decide (c.bearer = 1)
      let sw : Switch := { watcher := w, bearer := c.bearer, freq := c.freq, prevFreq := s.freqNow n, asked := !fm,
                           published := false, second := false, tries := 0, lastOfs := none, lowSince := none, blend := 0, xFollow := 0, delay := 0, oldGain := 0 }
      let s := (s.updFol n fun f => { f with sw := some sw }).wr (F.PLACE_FOLLOW_W0_STATE n) 2
      if fm then s else s.askFollow n c.bearer c.freq

/-- The target of a published switch is there: FOUND has set, or FM has locked. A second chain goes on to alignment, a
retune in place stands (R359, R362). -/
def State.verified (s : State) (n : Nat) : State :=
  match (s.fol n).sw with
  | some sw =>
    if sw.published && decide (s.rd (F.PLACE_FOLLOW_W0_STATE n) = 2) then
      (if sw.second then s.wr (F.PLACE_FOLLOW_W0_STATE n) 3 else s.endSwitch n)
    else s
  | none => s

/-- Engine key `k` locked: an FM switch to it is verified (R359). -/
def State.engLocked (s : State) (k : Nat) : State :=
  match s.chainOnEng k with
  | some c => s.each (s.place.live.members c.id) fun s n => if n < 128 ∧ k ≥ 17 then s.verified n else s
  | none => s

/-- The chain that Hamper `n` switches to runs already, with its engine Locked, or the service resolved on it (R359). -/
def State.reached (s : State) (n : Nat) : Bool :=
  match s.chainOf n with
  | some c => (c.lanes.all fun m => !(s.lane m).due) && if isAna c.bearer then decide (s.engState (17 + c.main.eng) = 3) else (s.resOf c n).isSome
  | none => false

/-- The service of Hamper `h` resolved on OFDM engine `e` (R319, R359), if the information for it arrived within 10 frames of LOCKED.
(assumption 123) -/
def State.resolve (s : State) (e h id0 eid : Nat) : State :=
  let known := (s.resOn e h).isSome
  if !known && decide (10 < tget 0 s.fec.tries (128 * e + h)) then s
  else
    let r : ResSt := { key := 128 * e + h, id0 := id0, eid := eid }
    let l := s.fec.res.filter fun x => decide (x.key ≠ r.key)
    let s := { s with fec := { s.fec with res := l ++ [r] } }
    let s := s.showFound h
    if !known && (s.chainOf h).any (fun c => c.legs.any fun l => decide (l.eng = e)) then s.verified h else s

/-- Engine key `k` lost its signal: a blend from it becomes a hard switch before alignment, a blend to it is released
(R366). -/
def State.engLost (s : State) (k : Nat) : State :=
  match s.chainOnEng k with
  | none => s
  | some c => s.each (s.usersOf c.id) fun s n =>
      match (s.fol n).sw with
      | some sw =>
        if !sw.second then s
        else if (s.ham n).alt = some c.id then
          (if s.rd (F.PLACE_FOLLOW_W0_STATE n) = 4 then s else s.hardSwitch n)
        else if (s.ham n).chain = some c.id then s.releaseSecond n 2
        else s
      | none => s

/-- Qc of the Hampers of an engine was reported: below FAIL_QUAL for 2 s before alignment makes the switch hard (R366). -/
def State.watchQc (s : State) (k : Nat) : State :=
  s.each (s.reportsTo k) fun s n =>
    match (s.fol n).sw with
    | some sw =>
      if !sw.second || decide (s.rd (F.PLACE_FOLLOW_W0_STATE n) = 4) then s
      else if s.qc n < s.rd F.PLACE_FOLLOW_CFG_FAIL_QUAL then
        match sw.lowSince with
        | none => s.updFol n fun f => { f with sw := some { sw with lowSince := some s.elapsed } }
        | some t => if t + 2 * secUnit ≤ s.elapsed then s.hardSwitch n else s
      else s.updFol n fun f => { f with sw := some { sw with lowSince := none } }
    | none => s

/-- Every blend is abandoned (R366: root loss, PLACE disabled). -/
def State.abandonBlends (s : State) : State :=
  s.each ((s.follow.filter fun x => x.2.sw.any fun w => w.second).map (·.1)) fun s n => s.releaseSecond n 6

/-- A Hamper goes back to the frequency it came from after a retune in place (R359). -/
def Plan.retune (p : Plan) (n f : Nat) : Plan :=
  match p.chainOf n with
  | none => p
  | some c =>
    (p.members c.id).foldl (fun p g => p.upd g fun q => { q with freq := f }) (p.setChain (c.retuned f))

end Sys2Proof.Machine
end

