-- ==== Sys2Proof/Machine/TimeOps.lean ====
section
/-! DEFINITION. Loads, steps, slews and sources of the time base (R432 to R446, R527). -/
namespace Sys2Proof.Machine
open Sys2Proof

/-- The alarm second as a whole number. -/
def State.alarmSec (s : State) : Nat := s.rd F.TIME_ALARM_LO_SEC + s.rd F.TIME_ALARM_HI_SEC * 2 ^ 32

/-- ALARM is raised and disarmed when the time base has reached its second (R453). -/
def State.alarmEval (s : State) : State :=
  if s.on F.TIME_ALARM_HI_EN ∧ s.alarmSec ≤ s.nowSec then (s.wr F.TIME_ALARM_HI_EN 0).raise .time C.TIME_ALARM else s

/-- Count the entries a forward move passes over (R446): those whose window ends on the way, without the entry in force
before it. What an entry held after a backward step covers had run before. -/
def State.countSkipped (s : State) (old : Nat) : State :=
  if s.itinOn then
    let b := s.itinBank
    let old := max old (s.time.hold.getD 0)
    let ended := s.endsBy b s.time.now - s.endsBy b old
    s.sat F.SCHED_SKIP_COUNT_COUNT (ended - b2n (s.entryAt b old).isSome)
  else s

/-- The time base jumps by `d` (R445, R446): STEP is raised and counted; a backward step holds the entry in force until
the time base is back at the instant of the step. -/
def State.stepTime (s : State) (d : Int) : State :=
  let old := s.time.now
  let t := s.time
  let s := { s with time := { t with moved := t.moved + d, prev := t.prev.map fun p => ((p : Int) + d).toNat,
                                      prevE := t.prevE - d / (nsUnit : Int), hold := if d < 0 ∧ s.itinOn = true then some (max old (t.hold.getD 0)) else t.hold } }
  let s := s.moveTime d
  let s := if 0 < d then s.countSkipped old else s
  ((s.bump F.TIME_COUNT_STEPS).raise .time C.TIME_STEP).alarmEval

/-- The time base is loaded with `t`, in units of the counter, from source `src` (R438, R439): a pending step is cancelled
first (R451). -/
def State.loadUnits (s : State) (t src uncUs : Nat) (coarse : Bool) : State :=
  let s := s.cancelStep
  let s := { s with time := { s.time with slew := 0, base := src, unc := 0 } }
  let s := (s.wr F.TIME_STAT_SLEWING 0).stepTime ((t : Nat) - (s.time.now : Int))
  (((s.wr F.TIME_STAT_SET 1).wr F.TIME_STAT_COARSE (b2n coarse)).wr F.TIME_UNCERT_US uncUs).timeEval

/-- A load of a time in seconds and nanoseconds (R438, R439). -/
def State.loadTime (s : State) (sec ns src uncUs : Nat) (coarse : Bool) : State :=
  s.loadUnits (sec * secUnit + ns * nsUnit) src uncUs coarse

/-- The armed step corrects by the phase error of the last valid edge (R445). -/
def State.applyStep (s : State) : State :=
  if s.time.armed then (s.cancelStep.stepTime (s.time.prevE * nsUnit)).timeEval else s

/-- What the filter of PPS_IN delays an edge by, in units of the counter: PPS_FLT cycles of the XO, as the setting stood
before the last `writes` writes of SYS.PIN_FILT0, which found the edge in the filter (R42, R43). -/
def State.ppsLatency (s : State) (writes : Nat) : Nat :=
  (if writes = 0 then s.rd F.SYS_PIN_FILT0_PPS_FLT else s.pins.ppsOld.getD (writes - 1) (s.rd F.SYS_PIN_FILT0_PPS_FLT)) *
    (15625 * 10 ^ 9)

/-- A broadcast time, in whole seconds of UTC, from a block that passed its checks: source 4 DAB, 5 DRM, 6 RDS (R439). -/
def State.broadcastTime (s : State) (src utc : Nat) : State :=
  if !s.en .time || !s.on F.TIME_CFG_BCAST_EN then s
  else
    let tai := utc + s.rd F.TIME_UTC_OFS
    if s.on F.TIME_STAT_SET then
      let d : Int := (tai * 1000 : Nat) - ((s.time.now / (nsUnit * 10 ^ 6) : Nat) : Int)
      let d := max (-(2 ^ 23)) (min (2 ^ 23 - 1) d)
      (s.wr F.TIME_BCAST_SRC src).wr F.TIME_BCAST_DIFF_MS (toField 24 d)
    else s.loadTime tai 0 src 1000000 true

/-- A rank-1 source is lost (R435, R440, R445, R527): the correction is that of the Thermos table from then on. -/
def State.loseSource (s : State) : State :=
  if s.time.prev.isNone ∧ s.time.qual = false then s
  else
    let s := s.cancelStep
    let s := { s with time := { s.time with prev := none, prevE := 0, run := 0, qual := false } }
    (s.raise .time C.TIME_REF_LOST).timeEval.thermosFreq

/-- A source qualifies: a small phase error is slewed away, a large one waits as a step (R444). -/
def State.qualify (s : State) (e : Int) : State :=
  let s := { s with time := { s.time with qual := true } }.raise .time C.TIME_REF_QUAL
  if e.natAbs ≤ s.rd F.TIME_X_LOOP_SLEW_MAX_US * 1000 then
    if e = 0 then s
    else ({ s with time := { s.time with slew := e * nsUnit } }.wr F.TIME_STAT_SLEWING 1).raise .time C.TIME_SLEW
  else { s with time := { s.time with agree := 1, armed := false } }.wr F.TIME_STAT_STEP_PEND 1

/-- The correction the locked loop puts into force: a free value within ±100 ppm (R436, assumption 1). -/
def State.steer (s : State) : State :=
  if s.rd F.TIME_STAT_STATE = 3 then
    let (w, s) := s.take
    s.wr F.TIME_FREQ_PPB (toField 24 ((w.toNat % 200001 : Nat) - 100000))
  else s

/-- A valid edge or marker at time `t` with phase error `e` in ns (R435, R444, R527). -/
def State.sourceEdge (s : State) (casc : Bool) (t : Nat) (e : Int) : State :=
  let near := s.time.prev.isSome && decide ((e - s.time.prevE).natAbs ≤ 1000)
  let s := { s with time := { s.time with prev := some t, prevE := e, run := (if near then s.time.run + 1 else 1), casc := casc } }
  let s := s.wr F.TIME_PHASE_E_NS (toField 32 e)
  let s :=
    if s.time.qual then
      if s.on F.TIME_STAT_STEP_PEND then
        let a := if near then s.time.agree + 1 else 1
        { s with time := { s.time with agree := a, armed := s.time.armed || decide (3 ≤ a) } }
      else s
    else if s.rd F.TIME_CFG_QUAL_EDGES ≤ s.time.run then s.qualify e
    else s
  s.timeEval.steer

end Sys2Proof.Machine
end

