-- ==== Sys2Proof/Machine/Ana.lean ====
section
/-! DEFINITION. Analogue engines: windows, bandwidth and RDS (R267 to R292). -/
namespace Sys2Proof.Machine
open Sys2Proof

/-- CNR in whole dB, halves upward (R272). -/
def wholeDb (x4 : Int) : Int := (x4 + 2) / 4

/-- QUAL of a window (R272). -/
def anaQual (am : Bool) (cnr4 : Int) (mp : Nat) : Nat :=
  let c := wholeDb cnr4
  let q : Int := if am then (5 * (c - 6) + 1) / 2 else (5 * (c - 8) + 1) / 2 - ((mp + 1) / 2 : Nat)
  (max 0 (min 100 q)).toNat

/-- PILOT follows two measurements above 4 % in a row, STEREO follows PILOT, STEREO_EN and Locked (R274). -/
def State.stereoEval (s : State) (e : Nat) : State :=
  let on := decide (s.rd (F.ANA_ASSIGN_MODE e) ≠ 2) && s.on (F.ANA_STAT_PILOT e) && decide (s.anaCfg e (F.ANA_FM_CFG_STEREO_EN e) = 1) &&
    decide (s.engState (17 + e) = 3)
  if on = s.on (F.ANA_STAT_STEREO e) then s else (s.wr (F.ANA_STAT_STEREO e) (b2n on)).raise .ana C.ACQ_CFG_CHANGE e

/-- Branch exclusion of a diversity pair (R275). -/
def State.anaBranches (s : State) (e : Nat) (w : AnaWin) : State :=
  if s.on (F.ANA_ASSIGN_LANE1_VALID e) then
    let s' := ((s.wr (F.ANA_DIV_STAT_EXCL0 e) (b2n w.out0)).wr (F.ANA_DIV_STAT_EXCL1 e) (b2n w.out1)).wr
      (F.ANA_STAT_BRANCHES e) (2 - b2n w.out0 - b2n w.out1)
    let s' := (s'.wr (F.ANA_DIV_STAT_W0 e) w.w0.toNat).wr (F.ANA_DIV_STAT_W1 e) w.w1.toNat
    if s.on (F.ANA_DIV_STAT_EXCL0 e) ≠ w.out0 ∨ s.on (F.ANA_DIV_STAT_EXCL1 e) ≠ w.out1 then
      s'.raise .ana C.ACQ_BRANCH_CHANGE e
    else s'
  else s

/-- LOST: back to Search (R269, R271). -/
def State.anaLost (s : State) (e : Nat) : State := ((s.anaSearch e).raise .ana C.ACQ_LOST e).engLost (17 + e)

/-- The judgement of a counted window in the state the engine is in (R269). -/
def State.anaJudge (s : State) (e : Nat) (cnr4 : Int) (qual : Nat) : State :=
  let st := s.engState (17 + e)
  let good := decide (4 * (s.rd (F.ANA_ACQ_CFG_DET_SNR e) : Int) ≤ cnr4)
  let s := s.updAna e fun a => { a with low := if good then 0 else a.low + 1 }
  if st = 1 then
    let s := s.updAna e fun a => { a with det := if good then a.det + 1 else 0 }
    if 2 ≤ (s.anaS e).det then
      ((s.updAna e fun a => { a with det := 0, lock := 0, low := 0 }).wr (F.ANA_STAT_STATE e) 2).raise .ana C.ACQ_DETECTED e |>.agcFollowAll
    else s
  else if st = 2 then
    let s := s.updAna e fun a => { a with lock := if s.rd (F.ANA_ACQ_CFG_LOCK_QUAL e) ≤ qual then a.lock + 1 else 0 }
    if 10 ≤ (s.anaS e).lock then
      let s := (s.wr (F.ANA_STAT_STATE e) 3).raise .ana C.ACQ_LOCKED e
      (s.each (s.hampersOn (17 + e)) State.audChange).engLocked (17 + e)
    else s
  else s

/-- A peak is an impulse: its magnitude exceeds THR quarters of the mean (R279). -/
def State.impulse (s : State) (e : Nat) (p : Peak) : Bool := decide (s.rd (F.ANA_X_NB_THR e) * p.mean < 4 * p.mag)

/-- The noise blanker over one window (R279): an impulse is blanked and counted, unless its branch has had RATE_MAX already in this
10 ms. Five windows make 10 ms. (assumption 100) -/
def State.blank (s : State) (e : Nat) (am : Bool) (l : List Peak) : State :=
  let on := decide (s.anaCfg e (if am then F.ANA_AM_CFG_NB_EN e else F.ANA_FM_CFG_NB_EN e) = 1)
  let hits := if on then l.filter (s.impulse e) else []
  let a := s.anaS e
  let n0 := (hits.filter fun p => !p.second).length
  let n1 := (hits.filter fun p => p.second).length
  let max := s.rd (F.ANA_X_NB_RATE_MAX e)
  let blanked := (min max (a.nb0 + n0) - min max a.nb0) + (min max (a.nb1 + n1) - min max a.nb1)
  let last := decide (4 ≤ a.nbSlot)
  let s := s.updAna e fun a => { a with nbSlot := if last then 0 else a.nbSlot + 1, nb0 := if last then 0 else a.nb0 + n0,
                                        nb1 := if last then 0 else a.nb1 + n1 }
  s.wr (F.ANA_COUNT_NB_PULSES e) (s.rd (F.ANA_COUNT_NB_PULSES e) + blanked)

/-- The bridge buffer over one window (R278): a run of marked samples that fits into it is bridged and counts, a longer one is
ramped to zero and back. -/
def State.bridge (s : State) (e : Nat) (l : List Nat) : State :=
  let max := (s.anaS e).buffer
  let s := s.updAna e fun a => { a with fills := l.map fun n => (n, decide (n ≤ max)) }
  s.wr (F.ANA_COUNT_BRIDGES e) (s.rd (F.ANA_COUNT_BRIDGES e) + (l.filter fun n => decide (n ≤ max)).length)

/-- The sound of an engine at mean QUAL `q` (R267, R271, R277): silence unless a Hamper holds it and it is Locked; in FM a separation that falls linearly from
BLEND_HI to BLEND_LO, and under SOFTMUTE an attenuation that grows linearly from SM_START down to QUAL 0. -/
def State.anaSound (s : State) (e : Nat) (am : Bool) (q : Nat) : AnaAudio :=
  let hi := s.rd (F.ANA_X_AUDIO_BLEND_HI e)
  let lo := s.rd (F.ANA_X_AUDIO_BLEND_LO e)
  let start := s.rd (F.ANA_X_AUDIO_SM_START e)
  let soft := !am && decide (s.anaCfg e (F.ANA_FM_CFG_SOFTMUTE e) = 1) && decide (q < start)
  if s.engState (17 + e) ≠ 3 ∨ s.rd (F.ANA_ASSIGN_MODE e) = 3 then AnaAudio.off
  else
    { on := true, sepNum := if s.on (F.ANA_STAT_STEREO e) then min (q - lo) (hi - lo) else 0, sepDen := hi - lo,
      attNum := if soft then s.rd (F.ANA_X_AUDIO_SM_DEPTH e) * (start - q) else 0, attDen := if soft then start else 1 }

/-- A changed PI confirmed in the window that ends raises CAPTURED, unless the same window ended in LOST (R286, R289). -/
def State.anaCapture (s : State) (e : Nat) : State :=
  if (s.anaS e).capture then (s.updAna e fun a => { a with capture := false }).raise .ana C.ACQ_CAPTURED e else s

/-- The sound moves on over the next window (R277). -/
def State.anaSmooth (s : State) (e : Nat) (am : Bool) : State :=
  let next := s.anaSound e am (s.rd (F.ANA_QUAL e))
  s.updAna e fun a => { a with audio := a.audioTo, audioTo := next }

/-- ANA_WINDOW (R269 to R279): a window of 2 ms ends, and the next begins with the settings as they stand then (R289). PILOT can be 1,
and the mean goes to the Hamper, in Detected and Locked alone. (assumption 119) -/
def execAnaWindow (e : Fin 16) (w : AnaWin) (s : State) : Host.Outcome State Fault Refusal :=
  .next <| s.whenRoot fun s =>
    let e : Nat := e
    if s.engState (17 + e) = 0 then s
    else
      let am := s.isAm e
      let q := anaQual am w.cnr4 w.mp
      let s := (((s.blank e am w.peaks).bridge e w.runs)).anaTake e
      let s := (s.wr (F.ANA_LEVEL_LEVEL_DBM e) (toField 16 w.level4)).wr (F.ANA_LEVEL_ADJ_DBC e) (toField 16 w.adj4)
      let s := (s.anaBranches e w).wr (F.ANA_STAT_SYNC_DET e) (b2n (am && decide (s.anaCfg e (F.ANA_AM_CFG_DETECT e) = 1) && w.pll))
      let s := s.updAna e fun a => { a with quals := ((if w.counted then some q else none) :: a.quals).take 50 }
      let s := if w.counted then
          let s := (s.wr (F.ANA_QUAL_MP e) (if am then 0 else w.mp)).wr (F.ANA_QUAL_CNR e) (toField 16 w.cnr4)
          (s.wr (F.ANA_QUAL e) (meanOf ((s.anaS e).quals.filterMap id))).anaJudge e w.cnr4 q
        else s
      let s := match w.pilot with
        | none => s
        | some b =>
          if am then s
          else
            let s := s.updAna e fun a => { a with pilots := if b then a.pilots + 1 else 0 }
            s.wr (F.ANA_STAT_PILOT e) (b2n (decide (2 ≤ (s.anaS e).pilots) && decide (2 ≤ s.engState (17 + e))))
      if 2 ≤ s.engState (17 + e) ∧ (s.rd (F.ANA_ACQ_CFG_LOSS e) ≤ (s.anaS e).low ∨ w.invalid = true) then
        (s.anaLost e).anaSmooth e am
      else
        let s := ((s.stereoEval e).anaCapture e).anaSmooth e am
        if 2 ≤ s.engState (17 + e) then (s.putQual (17 + e) (s.rd (F.ANA_QUAL e))).watchQc (17 + e) else s

/-- ANA_ACQ_TIMEOUT (R269): TIMEOUT is raised once per entry to Search. -/
def execAnaAcqTimeout (e : Fin 16) (s : State) : Host.Outcome State Fault Refusal :=
  .next <| s.whenRoot fun s =>
    if s.engState (17 + e) = 1 ∧ (s.anaS e).timedOut = false then
      (s.updAna e fun a => { a with timedOut := true }).raise .ana C.ACQ_TIMEOUT e
    else s

/-- ANA_BW_DECISION (R280, R281): one dwell ends with adjacent level `adj4`. -/
def execAnaBwDecision (e : Fin 16) (adj4 : Int) (s : State) : Host.Outcome State Fault Refusal :=
  .next <| s.whenRoot fun s =>
    let e : Nat := e
    if s.engState (17 + e) < 2 then s
    else
      let s := s.wr (F.ANA_LEVEL_ADJ_DBC e) (toField 16 adj4)
      let am := s.isAm e
      let c := (s.anaS e).bwDue.getD (s.rd (F.ANA_STAT_BW_IN_USE e))
      let auto := if am then s.on (F.ANA_AM_CFG_BW_AUTO e) else s.on (F.ANA_FM_CFG_BW_AUTO e)
      let fix := if am then s.rd (F.ANA_AM_CFG_BW_FIX e) else s.rd (F.ANA_FM_CFG_BW_FIX e)
      let narrow : Int := if am then s.rd (F.ANA_X_BW_AM_NARROW e) else s.rd (F.ANA_X_BW_FM_NARROW e)
      let wide : Int := if am then s.rd (F.ANA_X_BW_AM_WIDE e) else s.rd (F.ANA_X_BW_FM_WIDE e)
      let up := min 4 (c + 1)
      let want :=
        if !auto then fix
        else if -4 * narrow < adj4 then (if am then c - 1 else up)
        else if adj4 < -4 * wide then (if am then up else c - 1)
        else c
      if want = c then s else s.putBw e want

/-! ### RDS -/

/-- Slot of an offset word in its group. -/
def rdsSlot : RdsOffset → Nat
  | .a => 0 | .b => 1 | .c => 2 | .cPrime => 2 | .d => 3

/-- Error code of a block under ERR_MAX (R285, R288): 0 clean, 1 or 2 corrected, 3 uncorrectable. -/
def rdsErr (max burst : Nat) : Nat :=
  if burst = 0 then 0 else if burst ≤ 2 ∧ 1 ≤ max then 1 else if burst ≤ 5 ∧ 2 ≤ max then (if burst ≤ 2 then 1 else 2) else 3

/-- The time of the first bit of block A of a group, from that of the block of a slot: 26 bits at 1187.5 bit/s a block (R283,
R288). (assumption 5) -/
def groupStart (start slot : Nat) : Nat := (start + 2 ^ 32 - (416000 * slot + 9) / 19) % 2 ^ 32

/-- Enter a block into the group at work; block A begins a group. -/
def RdsStream.put (r : RdsStream) (slot err word : Nat) (cp : Bool) (start : Nat) : RdsStream :=
  let g := if slot = 0 ∨ r.grp.isEmpty then List.replicate 4 (4, 0) else r.grp
  let fresh := decide (slot = 0) || r.grp.isEmpty
  { r with grp := g.set slot (err, word), cPrime := cp || (!fresh && r.cPrime),
           start := if fresh then groupStart start slot else r.start, pos := (slot + 1) % 4 }

/-- A PI value arrived on stream 0; two in a row that agree confirm it, and a changed one is noted for the end of the window
(R286, R289). -/
def State.piValue (s : State) (e : Nat) (v : Option Nat) : State :=
  let a := s.anaS e
  let s := s.updAna e fun a => { a with lastPi := v }
  match v with
  | none => s
  | some p =>
    if a.lastPi = some p then
      let s := s.updAna e fun b => { b with pi := some p, capture := b.capture ||
        (a.pi.any (fun q => decide (q ≠ p)) && decide (s.engState (17 + e) = 3)) }
      (s.wr (F.ANA_STAT_PI e) p).wr (F.ANA_STAT_IDENT e) (s.identCode e p)
    else s

/-- What stream 0 gives the device with a block (R286, R287): the PI of block A or C', the entries of an AF list, the time of a
group 4A. -/
def State.rdsUse (s : State) (e : Nat) (b : RdsBlock) (err : Nat) : State :=
  if (b.stream : Nat) ≠ 0 then s
  else
    let s := if b.offset = .a ∨ b.offset = .cPrime then s.piValue e (if err < 3 then some b.info.toNat else none) else s
    if err < 3 then
      let s := s.learn (17 + e) b.afs
      match b.clock with | some t => s.broadcastTime 6 t | none => s
    else s

/-- Replace one stream of an engine. -/
def State.putRds (s : State) (e k : Nat) (r : RdsStream) : State := s.updAna e fun a => { a with rds := tput RdsStream.init a.rds k r }

/-- BLOCKS_OK and BLOCKS_BAD (R292). -/
def State.countRds (s : State) (e err : Nat) : State :=
  if err < 3 then s.bump (F.ANA_RDS_COUNT_BLOCKS_OK e) else s.bump (F.ANA_RDS_COUNT_BLOCKS_BAD e)

/-- The group at work ends with its block D (R288). -/
def State.rdsEnd (s : State) (e k : Nat) (r : RdsStream) (slot : Nat) : State :=
  if slot = 3 then (s.rdsGroup e k r).putRds e k { r with grp := [], cPrime := false } else s.putRds e k r

/-- Two valid blocks in sequence, 26 bits apart: stream `k` is in sync, and both count (R284). -/
def State.rdsSync (s : State) (e k : Nat) (c : RdsSeek) (b : RdsBlock) (slot : Nat) (cp : Bool) : State :=
  let r := (({ RdsStream.init with sync := true, bads := [false, false], bit := b.bit + 26 } : RdsStream).put c.slot 0 c.info c.cPrime c.start).put
    slot 0 b.info.toNat cp b.start.toNat
  let s := (((s.countRds e 0).countRds e 0).wr (F.ANA_STAT_RDS_SYNC e) (setBit (s.rd (F.ANA_STAT_RDS_SYNC e)) k))
  let s := if k = 0 ∧ (c.slot = 0 ∨ c.cPrime = true) then s.piValue e (some c.info) else s
  let s := s.rdsUse e b 0
  let s := if k = 0 then s.raise .ana C.ACQ_MODE_FOUND e else s
  s.rdsEnd e k r slot

/-- RDS_BLOCK (R283 to R288): a block of one stream is received. While a stream searches, each of the 26 bit positions keeps its
last valid block. -/
def execRdsBlock (e : Fin 16) (b : RdsBlock) (s : State) : Host.Outcome State Fault Refusal :=
  .next <| s.whenRoot fun s =>
    let e : Nat := e
    let k : Nat := b.stream
    let r := tget RdsStream.init (s.anaS e).rds k
    let slot := rdsSlot b.offset
    let cp := decide (b.offset = .cPrime)
    if !(s.rdsOn e k && decide (s.rd (F.ANA_ASSIGN_MODE e) = 1) && decide (2 ≤ s.engState (17 + e))) then s
    else if !r.sync then
      if b.burst ≠ 0 then s
      else match r.seek.find? fun c => decide (c.bit + 26 = b.bit) && decide ((c.slot + 1) % 4 = slot) with
        | some c => s.rdsSync e k c b slot cp
        | none => s.putRds e k { r with seek := (r.seek.filter fun c => decide (c.bit % 26 ≠ b.bit % 26)) ++
            [{ bit := b.bit, slot := slot, info := b.info.toNat, cPrime := cp, start := b.start.toNat }] }
    else if slot ≠ r.pos ∨ b.bit ≠ r.bit then s
    else
      let err := rdsErr (s.anaCfg e (F.ANA_RDS_CFG_ERR_MAX e)) b.burst
      let r := { r.put slot err b.info.toNat cp b.start.toNat with
                 bit := b.bit + 26, bads := (decide (err = 3) :: r.bads).take 50 }
      let s := ((s.countRds e err).rdsUse e b err).rdsEnd e k r slot
      if s.rd (F.ANA_X_RDS_SYNC_BAD e) < (r.bads.filter id).length then s.rdsLose e k else s

end Sys2Proof.Machine
end

