-- ==== Sys2Proof/Machine/Audio.lean ====
section
/-! DEFINITION. TDM audio ports: frames, masks, start and stop, underrun and zero-crossing changes (R380 to R397). -/
namespace Sys2Proof.Machine
open Sys2Proof

/-- AUD[0].GROUP.GO reads 1 until every port of the group has started (R399). -/
def State.goEval (s : State) : State := s.wr (F.AUD_GROUP_GO 0) (b2n ((List.range 4).any fun n => (s.port n).group))

/-- Changes that wait are made when the port sends no frames. (assumption 10) -/
def State.zcFlush (s : State) (n : Nat) : State :=
  let l := (s.port n).zc
  let s := s.each l fun s z => (if z.left then s.zcApply n z.pair false else s)
  let s := s.each l fun s z => (if z.right then s.zcApply n z.pair true else s)
  let s := s.updAud n fun a => { a with zc := [] }
  s.each (List.range 8) fun s p => s.showFading n p

/-- The staged mask is taken into use, compaction with it (R388, R389). -/
def State.takeMask (s : State) (n : Nat) : State :=
  if (s.port n).staged then
    let s := (s.wr (F.AUD_SLOT_MASK_ACTIVE n) (s.rd (F.AUD_SLOT_MASK_MASK n))).updAud n fun a => { a with staged := false }
    (s.showPhys n).raise .aud C.AUDIO_MASK_APPLIED n
  else s

/-- The first frame of a port that starts, alone or in a group (R390); the elastic buffer is centred (R384). -/
def State.startPort (s : State) (n : Nat) : State :=
  let s := (((s.wr (F.AUD_STAT_RUN n) 1).wr (F.AUD_FRAME_COUNT n) 0).wr (F.AUD_CTRL_START n) 0).updAud n fun a =>
    { a with group := false, balls := .clocks, level := 4 }
  s.goEval.raise .aud C.AUDIO_START_DONE n

/-! ### Frames (R380, R388, R392) -/

/-- A 24-bit sample in the most significant bits of its slot: whole, or rounded and saturated to 16 bits (R380). -/
def State.slotWord (s : State) (n v : Nat) : Nat :=
  let w := if s.on (F.AUD_CFG_SLOT_W n) then 16 else 32
  if s.on (F.AUD_CFG_DATA24 n) then v * 2 ^ (w - 24)
  else toField 16 (clip 16 (roundShift 8 (ofField 24 v))) * 2 ^ (w - 16)

/-- One stream of Hamper `h` from chain `id`, left and right: mono goes to both alike, dual channel 0 to the left (R367). A stopped
audio decode engine gives zero (R373). -/
def State.streamPair (s : State) (h id : Nat) (x : PcmIn) : BitVec 24 × BitVec 24 :=
  if (s.place.live.find id).any fun c => isAna c.bearer then (x.ch0, x.ch1)
  else if !s.en .adec then (0, 0)
  else if (s.adecHam h id).channels = 0 then (x.ch0, x.ch0) else (x.ch0, x.ch1)

/-- The sample of Hamper `h` for one channel, from the chain that supplies its sound; while a blend fades, from both, by a free value
(R364, R386). None where the stream has none. (assumption 129) -/
def State.hamSample (s : State) (pcm : List PcmIn) (h : Nat) (right : Bool) : Option Nat :=
  let side (v : BitVec 24 × BitVec 24) : BitVec 24 := if right then v.2 else v.1
  let of (second : Bool) (id : Option Nat) : Option (BitVec 24) :=
    id.bind fun i => (pcm.find? fun x => decide (x.ham.val = h) && decide (x.second = second)).map fun x => side (s.streamPair h i x)
  let old := of false (s.soundId h)
  if (s.ham h).alt.isSome ∧ s.rd (F.PLACE_FOLLOW_W0_STATE h) = 4 then
    (match old, of true (s.ham h).chain with
      | some a, some b => some (Config.crossfade (s.free + h) a b).toNat
      | some a, none => some a.toNat
      | none, v => v.map BitVec.toNat)
  else old.map BitVec.toNat

/-- A routed pair underruns, or rejoins (R392, R393). -/
def State.pairDue (s : State) (n p : Nat) (pcm : List PcmIn) : State :=
  let u := s.rd (F.AUD_STAT_UNDER n)
  if !s.on (F.AUD_ROUTE_VALID n p) then s.wr (F.AUD_STAT_UNDER n) (clrBit u p)
  else if (s.hamSample pcm (s.rd (F.AUD_ROUTE_HAMPER n p)) false).isSome then
    (if bit u p then (s.wr (F.AUD_STAT_UNDER n) (clrBit u p)).raise .aud C.AUDIO_REJOIN n else s)
  else if bit u p then s
  else ((s.wr (F.AUD_STAT_UNDER n) (setBit u p)).sat (F.AUD_COUNT_UNDERRUNS n)).raise .aud C.AUDIO_UNDERRUN n

/-- What logical slot `k` sends in this frame (R386, R392, R393, R394): 0 for a channel that has no source or is muted, the sample of the
Hamper that has reached the channel, and fill where that has none. -/
def State.slotSample (s : State) (n k : Nat) (pcm : List PcmIn) : Nat :=
  let p := k / 2
  let a := s.port n
  let right := decide (k % 2 = 1)
  let feed := tget 0 (if right then a.fromR else a.fromL) p
  if feed = 0 ∨ bit (if right then a.muteR else a.muteL) p = true then 0
  else match s.hamSample pcm (feed - 1) right with
    | some v => v
    | none => if s.rd (F.AUD_CFG_FILL_MODE n) = 1 then tget 0 a.last k else 0

/-- Port `n` sends a frame: the k-th active slot carries logical slot k (R388), and a slot that is not active carries 0, or nothing with
TRISTATE (R381). -/
def State.sendFrame (s : State) (n : Nat) (pcm : List PcmIn) : State :=
  let out := (List.range 16).map fun k => s.slotSample n k pcm
  let active := bitsOf (s.audSlots n) (s.rd (F.AUD_SLOT_MASK_ACTIVE n))
  let idle := if s.on (F.AUD_CFG_TRISTATE n) then none else some 0
  let frame := (List.range (s.audSlots n)).map fun i =>
    match active.idxOf? i with
    | some k => some (s.slotWord n (out.getD k 0))
    | none => idle
  s.updAud n fun a => { a with frame := frame, last := (List.range 16).foldl (fun l k => tput 0 l k (out.getD k 0)) a.last }

/-- A frame sync of port `n`: the frame before it ends, a stop or a start takes effect, the mask applies, and every
routed pair needs its sample in `pcm` (R389 to R393). `sent`: the frame before it was sent whole. -/
def State.frameSync (s : State) (n : Nat) (pcm : List PcmIn) (sent : Bool) : State :=
  let run := s.audRun n
  let s := s.updAud n fun a => { a with framed := true, pos := 0 }
  let s := if run && sent then s.bump (F.AUD_FRAME_COUNT n) else s
  let s :=
    if run && s.on (F.AUD_CTRL_STOP n) then
      (((s.wr (F.AUD_STAT_RUN n) 0).wr (F.AUD_CTRL_STOP n) 0).updAud n fun a => { a with balls := .low, frame := [] }).zcFlush n
    else if !run && (s.on (F.AUD_CTRL_START n) || (s.port n).group) then s.startPort n
    else s
  let s := s.takeMask n
  if s.audRun n then (s.each (List.range 8) fun s p => s.pairDue n p pcm).sendFrame n pcm else s

/-- Port `n` serves frames now: its page is enabled and the bus clock runs. -/
def State.audOn (s : State) (n : Nat) : Bool := s.en .aud n && s.busUp

/-- The common divider of the master ports comes to the end of its frame: the frame sync of every one of them, on one AUD cycle (R382;
assumption 102). The free values of a crossfade are used up. -/
def State.masterSync (s : State) (pcm : List PcmIn) : State :=
  let s := { s with clk := { s.clk with audDiv := 0 } }
  let s := s.each ((List.range 4).filter fun n => s.audOn n && s.on (F.AUD_CFG_MASTER n)) fun s n => s.frameSync n pcm true
  { s with free := s.free + 128 }

/-- An FSYNC of a target port: a frame that an FSYNC began, on a BCLK that did not fail, was correct (R385). -/
def State.targetSync (s : State) (n : Nat) (pcm : List PcmIn) : State :=
  let whole := (s.port n).framed
  let s := if whole then s.updAud n fun a => { a with correct := min 16 (a.correct + 1) } else s
  let s := if 16 ≤ (s.port n).correct then s.wr (F.AUD_STAT_CLK_OK n) 1 else s
  { s.frameSync n pcm true with free := s.free + 128 }

/-- AUD_FRAME_SYNC (R380, R381, R382, R385): of a master port it is the frame sync of every master port. -/
def execAudFrameSync (n : Fin 4) (pcm : List PcmIn) (s : State) : Host.Outcome State Fault Refusal :=
  .next <|
    if !s.audOn n then s
    else if s.on (F.AUD_CFG_MASTER n) then s.masterSync pcm
    else s.targetSync n pcm

/-- A framing error or loss of a target port's clock (R385). -/
def State.clkBad (s : State) (n : Nat) : State :=
  ((s.wr (F.AUD_STAT_CLK_OK n) 0).updAud n fun a => { a with correct := 0, framed := false }).raise .aud C.AUDIO_CLK_ERR n

/-- AUD_FSYNC_ERROR (R385, R397): the frame interrupted is lost and the port re-frames. -/
def execAudFsyncError (n : Fin 4) (pcm : List PcmIn) (s : State) : Host.Outcome State Fault Refusal :=
  .next (if s.en .aud n && s.busUp && !s.on (F.AUD_CFG_MASTER n) then { (s.clkBad n).frameSync n pcm false with free := s.free + 128 } else s)

/-- AUD_BCLK_LOSS (R385): DOUT stays at the bit it has come to. -/
def execAudBclkLoss (n : Fin 4) (s : State) : Host.Outcome State Fault Refusal :=
  .next (if s.en .aud n && s.busUp && !s.on (F.AUD_CFG_MASTER n) then s.clkBad n else s)

/-- AUD_SLIP (R384): with the buffer one frame from its end a frame is dropped, or the frame at work is sent once more, which leaves it
two frames from that end. -/
def execAudSlip (n : Fin 4) (drop : Bool) (s : State) : Host.Outcome State Fault Refusal :=
  .next <| s.whenUp fun s =>
    if s.audRun n && !s.on (F.AUD_CFG_MASTER n) then
      let s := s.updAud n fun a => { a with level := if drop then 6 else 2, pos := if drop then a.pos else 0 }
      let s := if drop then s else s.bump (F.AUD_FRAME_COUNT n)
      (s.sat (F.AUD_COUNT_SLIPS n)).raise .aud C.AUDIO_CLK_ERR n
    else s

/-- A channel of a pair no longer waits. -/
def State.zcDone (s : State) (n p : Nat) (right : Bool) : State :=
  let s := s.updAud n fun a => { a with zc := (a.zc.map fun z =>
    if z.pair = p then (if right then { z with right := false } else { z with left := false }) else z).filter fun z => z.left || z.right }
  s.showFading n p

/-- ZC_CHANGE (R394): a channel crosses zero and the change is made on it. -/
def execZcChange (n : Fin 4) (p : Fin 8) (right : Bool) (s : State) : Host.Outcome State Fault Refusal :=
  .next <| s.whenUp fun s =>
    if (s.port n).zc.any (fun z => decide (z.pair = (p : Nat)) && (if right then z.right else z.left)) then
      (s.zcApply n p right).zcDone n p right
    else s

/-- ZC_TIMEOUT (R394): the change is made by ramp on every channel that still waits. -/
def execZcTimeout (n : Fin 4) (p : Fin 8) (s : State) : Host.Outcome State Fault Refusal :=
  .next <| s.whenUp fun s =>
    match (s.port n).zc.find? fun z => decide (z.pair = (p : Nat)) with
    | some z =>
      let s := if z.left then (s.zcApply n p false).zcDone n p false else s
      let s := if z.right then (s.zcApply n p true).zcDone n p true else s
      s.raise .aud C.AUDIO_ZC_TIMEOUT n
    | none => s

/-! ### After writes of the AUD page -/

/-- After SLOT_MASK was written (R389). -/
def State.afterAudMask (s : State) (n : Nat) : State := s.updAud n fun a => { a with staged := true }

/-- A master port that is to start drives its clocks, so that its first frame has the FSYNC edge that comes before it (R381). -/
def State.audDrive (s : State) (n : Nat) : State := s.updAud n fun a => { a with balls := if s.on (F.AUD_CFG_MASTER n) then .clocks else a.balls }

/-- After CTRL was written (R390, R391): a running port ignores START, STOP wins over START and GO. -/
def State.afterAudCtrl (s : State) (n : Nat) : State :=
  if s.on (F.AUD_CTRL_STOP n) then
    let cut := !s.audRun n && (s.on (F.AUD_CTRL_START n) || (s.port n).group)
    let s := (s.wr (F.AUD_CTRL_START n) 0).updAud n fun a => { a with group := false, balls := if cut && a.balls = .clocks then .low else a.balls }
    (if s.audRun n then s else s.wr (F.AUD_CTRL_STOP n) 0).goEval
  else if s.audRun n then s.wr (F.AUD_CTRL_START n) 0
  else if s.on (F.AUD_CTRL_START n) then s.audDrive n
  else s

/-- After GROUP.GO was written 1 (R390): every armed port that does not run joins. -/
def State.afterAudGo (s : State) : State :=
  (s.each (List.range 4) fun s n =>
    if s.on (F.AUD_CTRL_ARM n) && s.en .aud n && !s.audRun n then (s.audDrive n).updAud n fun a => { a with group := true } else s).goEval

/-- After MUTE was written over the old value `old` (R394). -/
def State.afterAudMute (s : State) (n old : Nat) : State :=
  s.each (List.range 8) fun s p => if bit old p = bit (s.rd (F.AUD_MUTE_PAIRS n)) p then s else s.zcAsk n p

/-- After CFG was written: the slots and the clock check follow it (R380, R385, R388). -/
def State.afterAudCfg (s : State) (n : Nat) : State :=
  let s :=
    if s.on (F.AUD_CFG_MASTER n) then
      (s.wr (F.AUD_STAT_CLK_OK n) 0).updAud n fun a =>
        { a with correct := 0, framed := false, balls := if s.en .aud n ∧ a.balls = .off then .clocks else a.balls }
    else s
  s.showPhys n

/-- The port stops at once: page reset or EN at 0 (R396). -/
def State.audHalt (s : State) (n : Nat) : State :=
  let s := ((s.wr (F.AUD_STAT_RUN n) 0).wr (F.AUD_CTRL_START n) 0).wr (F.AUD_CTRL_STOP n) 0
  let s := (s.wr (F.AUD_STAT_CLK_OK n) 0).updAud n fun a => { a with group := false, correct := 0, framed := false, balls := .off, frame := [] }
  (s.zcFlush n).goEval

end Sys2Proof.Machine
end

