-- ==== Sys2Proof/Machine/CascOps.lean ====
section
/-! DEFINITION. The cascade: links, reachability, exports (R516 to R534). -/
namespace Sys2Proof.Machine
open Sys2Proof

/-- The device's index in the cascade (R516). -/
def State.role (s : State) : Nat := s.rd F.SYS_STRAP_CASC_ROLE

/-- The role-dependent reset values of the CASC page (R536), and INDEX and MASTER_OK as the strap gives them. -/
def State.cascRole (s : State) : State :=
  let m := decide (s.role = 0)
  let s := (s.wr F.CASC_CFG_REFCLK_EN (b2n m)).wr F.CASC_CFG_PORT_EN (if m then 2 else 3)
  (s.wr F.CASC_STAT_INDEX s.role).wr F.CASC_STAT_MASTER_OK (b2n m)

/-- Port `p` trains or is up: its PORT_EN bit is 1, in Synth On and above with the root PLL locked, and in Standby while
STBY_LINK is 1 (R521, R522). -/
def State.portOn (s : State) (p : Nat) : Bool :=
  bit (s.rd F.CASC_CFG_PORT_EN) p && s.busUp &&
    (s.rootOk || (decide (s.radio = 1) && s.on F.CASC_CFG_STBY_LINK))

/-- Device `d` is reachable from this master (R517). -/
def State.reaches (s : State) (d : Nat) : Bool := bit (s.rd F.CASC_STAT_REACH) d

/-- An export request is active but its Hamper cannot have one (R529). -/
def State.exportable (s : State) (n : Nat) : Bool :=
  let q := s.ham n
  s.placed n && decide (q.req.role < 2) && decide (2 ≤ q.req.bearer) && decide (q.req.bearer ≤ 6)

/-- Follow Hampers and links with every XREQ entry (R529, R533): a Hamper that stopped being Placed releases its export,
a device out of reach reads 4, and a request is sent (again) where the Hamper has moved or the way is open again. -/
def State.xreqEval (s : State) (moved : List Nat) : State :=
  s.each (List.range 8) fun s k =>
    if !s.on (F.CASC_XREQ_EN k) then s
    else
      let n := s.rd (F.CASC_XREQ_HAMPER k)
      let st := s.rd (F.CASC_XREQ_STATE k)
      if !s.exportable n then s.wr (F.CASC_XREQ_STATE k) 0
      else if !s.reaches (s.rd (F.CASC_XREQ_DEV k)) then s.wr (F.CASC_XREQ_STATE k) 4
      else if moved.contains n ∨ st = 0 ∨ st = 4 then s.wr (F.CASC_XREQ_STATE k) 1
      else s

/-- Show which devices the master reaches (R517, R526). -/
def State.showReach (s : State) (mask : Nat) : State :=
  let s := s.wr F.CASC_STAT_REACH mask
  let s := s.each [1, 2, 3] fun s d => s.wr (F.CASC_REMOTE_VALID d) (b2n (bit mask d))
  s.xreqEval []

/-- A request to be taken up by the next pass of this slave (R529). -/
def State.stageExport (s : State) (k : Nat) (r : ExpReq) : State :=
  { s with casc := { s.casc with staged := s.casc.staged.filter (fun (x : Nat × ExpReq) => decide (x.1 ≠ k)) ++ [(k, r)] } }.trigger

/-- A request that asks for nothing. -/
def ExpReq.none : ExpReq := { en := false, hamper := 0, prio := 0, bearer := 0, freq := 0, mask := 0, branches := 0 }

/-- A slave loses its chain to the master (R533). -/
def State.masterLost (s : State) : State :=
  if s.role = 0 ∨ s.on F.CASC_STAT_MASTER_OK = false then s
  else
    let s := (s.wr F.CASC_STAT_MASTER_OK 0).raise .casc C.LINK_MASTER_LOST
    let s := if s.time.casc then s.loseSource else s
    s.each ((List.range 8).filter fun k => (s.ham (128 + k)).req.en || s.casc.staged.any fun x => decide (x.1 = k))
      fun s k => s.stageExport k ExpReq.none

/-- The link of port `p` goes down (R521, R533). -/
def State.linkDown (s : State) (p : Nat) : State :=
  let s := s.wr F.CASC_STAT_UP (clrBit (s.rd F.CASC_STAT_UP) p)
  let s := (s.wr (F.CASC_LINK_STATE p) (b2n (s.portOn p))).raise .casc C.LINK_LINK_DOWN
  if s.role = 0 then (if p = 1 then s.showReach 0 else s)
  else if p = 0 then
    let s := s.masterLost
    if s.time.casc then s.loseSource else s
  else s

/-- Every port follows PORT_EN, the radio state and the root PLL (R521). -/
def State.linksEval (s : State) : State :=
  s.each [0, 1] fun s p =>
    let st := s.rd (F.CASC_LINK_STATE p)
    if s.portOn p then (if st = 0 then s.wr (F.CASC_LINK_STATE p) 1 else s)
    else if st = 2 then s.linkDown p
    else s.wr (F.CASC_LINK_STATE p) 0

/-- A lock acquisition of the root PLL takes the links down; they train again (R519, R533). -/
def State.linksRetrain (s : State) : State :=
  (s.each [0, 1] fun s p => if s.rd (F.CASC_LINK_STATE p) = 2 then s.linkDown p else s).linksEval

/-- Show the exports of this slave (R529, R536). -/
def State.showExports (s : State) : State :=
  s.each (List.range 8) fun s k =>
    let q := s.ham (128 + k)
    match (if q.state = 2 then s.chainOf (128 + k) else none) with
    | some c =>
      (((s.wr (F.CASC_EXPORT_VALID k) 1).wr (F.CASC_EXPORT_HAMPER k) q.req.link).wr (F.CASC_EXPORT_ENGINE k) c.main.eng).wr
        (F.CASC_EXPORT_BRANCHES k) c.main.br.length
    | none => s.setReg (F.CASC_EXPORT_VALID k).addr 0

/-- Take the staged requests of exports into a plan (R529): a changed request, or none, releases what the export holds. -/
def Plan.takeExports (p : Plan) (l : List (Nat × ExpReq)) : Plan :=
  l.foldl (fun p x =>
    let h := 128 + x.1
    let r := x.2
    let req : Req := { Req.init with en := r.en, role := 5, bearer := r.bearer, prio := r.prio, link := r.hamper,
                                     div := r.branches, divMin := 1, freq := r.freq, mask := r.mask }
    let p := if (p.ham h).req.moves req then p.release h else p
    p.upd h fun q => { q with req := req, code := 0, bearer := r.bearer, freq := r.freq }) p

/-- Why a write of an XREQ entry is rejected (R524, R529, R536): `en` with Hamper `n`, device `d`, mask and entry `k`. -/
def State.xreqReason (s : State) (k : Nat) (en : Bool) (d n mask : Nat) : Option Nat :=
  if s.role ≠ 0 then some 4
  else if !en then none
  else if mask = 0 then some 2
  else if s.exportable n && s.reaches d && (List.range 8).all (fun j => decide (j = k) || !s.on (F.CASC_XREQ_EN j) ||
      decide (s.rd (F.CASC_XREQ_HAMPER j) ≠ n) || decide (s.rd (F.CASC_XREQ_DEV j) ≠ d)) then none
  else some 2

end Sys2Proof.Machine
end

