-- ==== Sys2Proof/Machine/Cells.lean ====
section
/-! DEFINITION. Cells of an OFDM symbol: taps, combining over branches, and soft values (R301, R305 to R307, R317). What spec/
leaves open of them is assumption 118. -/
namespace Sys2Proof
open Sys2Proof.Machine

/-! ### Complex arithmetic -/

/-- A quotient to the nearest whole number, halves upward. (assumption 5) -/
def nearest (num : Int) (den : Nat) : Int := (2 * num + den) / (2 * den : Nat)

def Cx.zero : Cx := { re := 0, im := 0 }
def Cx.add (a b : Cx) : Cx := { re := a.re + b.re, im := a.im + b.im }
def Cx.scale (n : Int) (a : Cx) : Cx := { re := n * a.re, im := n * a.im }

/-- The conjugate of `a` times `b`. -/
def Cx.conjMul (a b : Cx) : Cx := { re := a.re * b.re + a.im * b.im, im := a.re * b.im - a.im * b.re }

/-- The sums of two groups of branches together. -/
def Cell.plus (a b : Cell) : Cell :=
  { num := (a.num.scale b.all).add (b.num.scale a.all), den := a.den * b.all + b.den * a.all, all := a.all * b.all }

/-- The square of the magnitude. -/
def Cx.power (a : Cx) : Nat := (a.re * a.re + a.im * a.im).toNat

/-- `a` turned back by `p` / 2^20 of a turn. -/
def Cx.turnBack (a : Cx) (p : Nat) : Cx :=
  let (c, s) := wave p
  { re := roundShift 60 (a.re * c + a.im * s), im := roundShift 60 (a.im * c - a.re * s) }

/-- The value at `t` steps of `n` on the way from `a` to `b`. -/
def Cx.between (a b : Cx) (t n : Nat) : Cx :=
  { re := a.re + nearest ((b.re - a.re) * t) n, im := a.im + nearest ((b.im - a.im) * t) n }

/-- Noise variance of a branch: one step at least. -/
def BranchCells.var (b : BranchCells) : Nat := b.noise + 1

end Sys2Proof

namespace Sys2Proof.Machine
open Sys2Proof

/-! ### Combining (R306) -/

/-- The product of the noise variances of the branches in the sums. -/
def varProduct (l : List BranchCells) : Nat := l.foldl (fun n b => n * b.var) 1

/-- A combined cell: Y_k is `num` / `den`, CSI_k is `den` / `all`, with `all` the product of the noise variances; with `den` at 0 no
branch contributes, and CSI_k is 0. -/
def mrc (l : List (Cx × BranchCells)) (k : Nat) : Cell :=
  let all := varProduct (l.map (·.2))
  { num := l.foldl (fun y x => y.add ((x.1.conjMul (x.2.cells.getD k Cx.zero)).scale (all / x.2.var : Nat))) Cx.zero
    den := l.foldl (fun n x => n + x.1.power * (all / x.2.var)) 0
    all := all }

/-- A combined cell with the sums of the exports (R531). -/
def combine (l : List (Cx × BranchCells)) (exports : List (List Cell)) (k : Nat) : Cell :=
  exports.foldl (fun c x => c.plus (x.getD k Cell.none)) (mrc l k)

/-! ### Taps between pilots (R305) -/

/-- The first tap of a list, with its distance. -/
def firstTap (l : List (Option Cx)) : Option (Nat × Cx) :=
  (List.range l.length).findSome? fun i => ((l[i]?).join).map fun h => (i, h)

/-- What lies between the nearest taps before and after, by their distances; at an edge the nearest one. -/
def joinTaps : Option (Nat × Cx) → Option (Nat × Cx) → Option Cx
  | some (i, a), some (j, b) => some (if i = 0 then a else if j = 0 then b else a.between b i (i + j))
  | some (_, a), none => some a
  | none, some (_, b) => some b
  | none, none => none

/-- The taps of one carrier interpolated in time: `later` are the taps its pilots give in the symbols after the one equalised,
nearest first, `sooner` those of that symbol and before it. -/
def timeTap (sooner later : List (Option Cx)) : Option Cx :=
  joinTaps (firstTap sooner) ((firstTap later).map fun x => (x.1 + 1, x.2))

/-- The taps of all carriers interpolated in frequency. A symbol without a pilot has no taps. -/
def freqTaps (l : List (Option Cx)) : List Cx :=
  (List.range l.length).map fun k => (joinTaps (firstTap (l.take (k + 1)).reverse) (firstTap (l.drop k))).getD Cx.zero

/-! ### Soft values (R307, R317) -/

/-- A soft value of 6 bits. -/
def soft6 (num : Int) (den : Nat) : Int := clip 6 (nearest (num * Config.softScale.toNat) den)

/-- The differential metric of carrier `k` over the branches that have this symbol and the one before, as a numerator over the
product of the noise variances. -/
def diffMetric (l : List (BranchCells × List Cx)) (all k : Nat) : Cx :=
  l.foldl (fun d x => d.add (((x.2.getD k Cx.zero).conjMul (x.1.cells.getD k Cx.zero)).scale (all / x.1.var : Nat))) Cx.zero

/-- The mixed metric of a carrier, (1 - a) times the differential one plus a times the coherent one with a = `assist` / 16, as a
numerator and its denominator. The coherent one is the equalised cell times the conjugate of the one before, weighted by CSI_k. -/
def mixMetric (assist : Nat) (diff : Cx) (y before : Cell) : Cx × Nat :=
  let d := if before.den = 0 then 1 else before.den
  let coh := if before.den = 0 then Cx.zero else before.num.conjMul y.num
  ((diff.scale ((16 - assist : Nat) * d)).add (coh.scale assist), 16 * y.all * d)

/-- The hard decision of a DQPSK metric, in eighths of a turn. -/
def dqpskTurn (m : Cx) : Nat := if 0 ≤ m.im then (if 0 ≤ m.re then 1 else 3) else if m.re < 0 then 5 else 7

/-- The two soft values of a DQPSK carrier; with CSI_k at 0 both are erasures. -/
def dqpskSoft (m : Cx × Nat) (y : Cell) : List Int := if y.den = 0 then [0, 0] else [soft6 m.1.re m.2, soft6 m.1.im m.2]

/-- The soft values of a QAM cell of `bits` bits: the demapper's, scaled by CSI_k and saturated. -/
def qamSoft (bits : Nat) (y : Cell) : List Int :=
  (List.range bits).map fun i => if y.den = 0 then 0 else soft6 (Config.demap bits i y.num.re y.num.im y.den * y.den) y.all

/-- Decision feedback: a tap moves towards the received cell turned back by the decided phase, by 2^-`track` (R307). -/
def feedTap (track : Nat) (h r : Cx) (phase : Nat) : Cx :=
  let z := r.turnBack (phase * 2 ^ 17)
  { re := h.re + roundShift track (z.re - h.re), im := h.im + roundShift track (z.im - h.im) }

/-! ### One symbol -/

/-- A branch in a symbol: its lane, whether it is in the sums with this symbol, whether its window holds a marked sample, and its
cells. -/
structure BranchIn where
  lane : Nat
  inSum : Bool
  marked : Bool
  cells : BranchCells

/-- Carriers of a symbol. -/
def carriers (l : List BranchIn) : Nat := l.foldl (fun n b => max n b.cells.cells.length) 0

/-- The taps of the branch on a lane. -/
def OfdmSt.taps (o : OfdmSt) (lane : Nat) : List Cx := tget [] o.est lane

/-- A phase reference symbol gives the taps of every branch whose window is clean; another keeps those it had (R305, R312). -/
def OfdmSt.prs (o : OfdmSt) (l : List BranchIn) (exports : List (List Cell)) (ref : List (Fin 8)) : OfdmSt :=
  let o := (l.filter fun b => !b.marked).foldl (fun (o : OfdmSt) b =>
    { o with est := tput [] o.est b.lane ((List.range (carriers l)).map fun k =>
        ((b.cells.taps[k]?).join).getD ((o.taps b.lane).getD k Cx.zero)) }) o
  let sum := l.filter BranchIn.inSum
  { o with cells := (List.range (carriers l)).map fun k => combine (sum.map fun b => ((o.taps b.lane).getD k Cx.zero, b.cells)) exports k
           phase := ref.map fun q => q.val
           prev := sum.map fun b => (b.lane, b.cells.cells), soft := [] }

/-- A data symbol of DAB: the metrics, their soft values in carrier order, and the taps after decision feedback (R307). -/
def OfdmSt.dab (o : OfdmSt) (assist track : Nat) (l : List BranchIn) (exports : List (List Cell)) : OfdmSt :=
  let sum := l.filter BranchIn.inSum
  let ks := List.range (carriers l)
  let all := varProduct (sum.map fun b => b.cells)
  let pairs := sum.filterMap fun b => (o.prev.find? fun x => decide (x.1 = b.lane)).map fun x => (b.cells, x.2)
  let ys := ks.map fun k => combine (sum.map fun b => ((o.taps b.lane).getD k Cx.zero, b.cells)) exports k
  let ms := (ks.zip ys).map fun x => (mixMetric assist (diffMetric pairs all x.1) x.2 (o.cells.getD x.1 Cell.none), x.2)
  let phase := (ks.zip ms).map fun x => (o.phase.getD x.1 0 + dqpskTurn x.2.1.1) % 8
  let o := (l.filter fun b => !b.marked).foldl (fun (o : OfdmSt) b =>
    { o with est := tput [] o.est b.lane (ks.map fun k =>
        feedTap track ((o.taps b.lane).getD k Cx.zero) (b.cells.cells.getD k Cx.zero) (phase.getD k 0)) }) o
  { o with cells := ys, phase := phase, prev := sum.map fun b => (b.lane, b.cells.cells),
           soft := ms.flatMap fun x => dqpskSoft x.1 x.2 }

/-- Bits per cell of the densest constellation. -/
def qamBits (qam : Nat) : Nat := 2 * (if qam = 0 then 1 else qam)

/-- A symbol of DRM or T2-Lite under an interpolation over `span` symbols: it enters the window, and the one that now has its pilots
on both sides is equalised (R305, R306). -/
def OfdmSt.qamSymbol (o : OfdmSt) (span cpe : Nat) (l : List BranchIn) (exports : List (List Cell)) : OfdmSt :=
  let entry (b : BranchIn) : Nat × Bool × BranchCells :=
    (b.lane, b.inSum, { b.cells with cells := b.cells.cells.map fun r => r.turnBack cpe,
                                     taps := if b.marked then [] else b.cells.taps })
  let win := (l.map entry :: o.win).take (2 * span + 1)
  let ks := List.range (carriers l)
  let at_ (t : Nat) (n k : Nat) : Option Cx :=
    (((win.getD t []).find? fun x => decide (x.1 = n)).bind fun x => x.2.2.taps[k]?).join
  let taps (n : Nat) : List Cx := freqTaps (ks.map fun k =>
    timeTap ((List.range (span + 1)).map fun i => at_ (span + i) n k) ((List.range span).reverse.map fun i => at_ i n k))
  let sum := (win.getD span []).filter fun x => x.2.1
  let ys := ks.map fun k => combine (sum.map fun x => ((taps x.1).getD k Cx.zero, x.2.2)) exports k
  let o := l.foldl (fun (o : OfdmSt) b => { o with est := tput [] o.est b.lane (taps b.lane) }) o
  { o with win := win, cells := if span < win.length then ys else [],
           soft := if span < win.length then ys.flatMap (qamSoft (qamBits o.qam)) else [] }

end Sys2Proof.Machine
end

