-- ==== Sys2Proof/Machine/Ofdm.lean ====
section
/-! DEFINITION. OFDM engines: symbols, frames, capture and loss (R293 to R315). -/
namespace Sys2Proof.Machine
open Sys2Proof

/-- Useful symbol and guard interval in lane output samples of the signal engine `e` receives (R293): T2 before its mode
is known takes one eighth (R302). -/
def State.symbolLen (s : State) (e : Nat) : Nat × Nat :=
  let std := s.rd (F.OFDM_ASSIGN_STD e)
  if std ≤ 1 then (2048, 504)
  else if std = 2 ∨ std = 3 then
    match s.rd (F.OFDM_STAT_DRM_MODE e) with
    | 0 => (1152, 128) | 1 => (1024, 256) | 2 => (704, 256) | 3 => (448, 352) | _ => (432, 48)
  else
    let tu := 2048 * 2 ^ s.rd (F.OFDM_STAT_T2_FFT e)
    let tg := if s.on (F.OFDM_STAT_MODE_VALID e) then
        match s.rd (F.OFDM_STAT_T2_GI e) with
        | 0 => tu / 32 | 1 => tu / 16 | 2 => tu / 8 | 3 => tu / 4 | 4 => tu / 128 | 5 => tu * 19 / 128 | _ => tu * 19 / 256
      else tu / 8
    (tu, tg)

/-- Lane output rate in kS/s of a standard (R226). -/
def stdRate (std : Nat) : Nat :=
  if std ≤ 1 then 2048 else if std = 2 then 48 else if std = 3 then 192 else if std = 4 then 8000 else 9143

/-- Symbols in 100 ms. -/
def State.symbols100 (s : State) (e : Nat) : Nat :=
  let (tu, tg) := s.symbolLen e
  max 1 (stdRate (s.rd (F.OFDM_ASSIGN_STD e)) * 100 / (tu + tg))

/-- M0 in dB of the densest constellation (R310). -/
def qamM0 (q : Nat) : Nat := [5, 3, 9, 15, 21].getD q 5

/-- QUAL of a symbol (R310): 4 x (MER - M0), with MER in quarter dB. -/
def ofdmQual (mer4 : Int) (qam : Nat) : Nat := (max 0 (min 100 (mer4 - 4 * (qamM0 qam : Int)))).toNat

/-- Exclusion and return of branch `b` (R308). -/
def State.branchExcl (s : State) (e b : Nat) (y : OfdmSym) : Bool :=
  let snr (c : Nat) : Nat := y.snr.toNat / 2 ^ (8 * c) % 256
  let best := (List.range 4).foldl (fun m c => if s.on (F.BR_VALID e c) then max m (snr c) else m) 0
  let cond := y.out.getLsbD b || decide (snr b + 4 * s.rd (F.OFDM_X_COMB_EXCL_DB e) < best)
  s.on (F.BR_VALID e b) && (cond || (s.on (F.BR_EXCL e b) && !y.back.getLsbD b))

/-- The branches excluded now: never all of them, since the best branch stays (R308; assumption 104). -/
def State.exclNow (s : State) (e : Nat) (y : OfdmSym) : List Bool :=
  let l := (List.range 4).map fun b => s.branchExcl e b y
  let snr (c : Nat) : Nat := y.snr.toNat / 2 ^ (8 * c) % 256
  let valid := (List.range 4).filter fun b => s.on (F.BR_VALID e b)
  if valid.all fun b => l.getD b false then
    let best := valid.foldl (fun m b => match m with | some c => if snr c < snr b then some b else m | none => some b) none
    (List.range 4).map fun b => l.getD b false && decide (best ≠ some b)
  else l

/-- The branches of an engine that starts, all of which enter its sums (R306); only one added later waits for its training
(R309). -/
def State.validBranches (s : State) (e : Nat) : Nat := (List.range 4).foldl (fun m b => if s.on (F.BR_VALID e b) then setBit m b else m) 0

/-- Branch `b` has weight in a symbol: it is in the sums of R306 and its window holds no marked sample (R296, R308, R309). -/
def State.hasWeight (s : State) (e : Nat) (marked : BitVec 4) (b : Nat) : Bool :=
  s.on (F.BR_VALID e b) && !s.on (F.BR_EXCL e b) && bit (s.ofdmS e).entered b && !marked.getLsbD b

/-- The branches of an engine with what they have of a symbol. -/
def State.branchesIn (s : State) (e : Nat) (y : OfdmSym) : List BranchIn :=
  ((List.range 4).filter fun b => s.on (F.BR_VALID e b)).map fun b =>
    { lane := s.rd (F.BR_LANE e b), inSum := s.hasWeight e y.marked b, marked := y.marked.getLsbD b
      cells := y.br.getD b { cells := [], taps := [], noise := 0 } }

/-- The loops of R301 take a symbol in: frequency by 2^-FREQ_LOOP of the error that remains, the FFT window by 2^-TIME_LOOP of its
distance. An echo within Tg moves it so, and never captures (R303). The engine may ask a trim again. -/
def State.trackLoops (s : State) (e : Nat) (y : OfdmSym) : State :=
  let s := s.updOfdm e fun o =>
    { o with freq := o.freq + y.freqErr * 2 ^ (8 - s.rd (F.OFDM_X_TRK_FREQ_LOOP e))
             pos := o.pos + y.timeErr * 2 ^ (8 - s.rd (F.OFDM_X_TRK_TIME_LOOP e)), trimmed := false }
  (s.wr (F.OFDM_SYNC_FREQ_OFS e) (toField 16 (roundShift 8 (s.ofdmS e).freq))).wr (F.OFDM_SYNC_RATE_ERR e) y.rateErr.toNat

/-- The sums that exports of this engine's Hampers have brought for the symbol now combined (R529, R531). -/
def State.exportSums (s : State) (e : Nat) (y : OfdmSym) : List (List Cell) :=
  (y.exports.filter fun x => s.on (F.CASC_XREQ_EN x.1) && decide (s.rd (F.CASC_XREQ_STATE x.1) = 2) &&
    (s.chainOf (s.rd (F.CASC_XREQ_HAMPER x.1))).any fun c => decide (c.main.eng = e)).map (·.2)

/-- The symbol is equalised and combined, and its soft values leave for the FEC unit (R305 to R307, R317). With TIME_INT at 0,
T2-Lite interpolates in frequency only. -/
def State.equalise (s : State) (e : Nat) (y : OfdmSym) (l : List BranchIn) : State :=
  let std := s.rd (F.OFDM_ASSIGN_STD e)
  let span := if 4 ≤ std ∧ s.on (F.OFDM_X_EQ_TIME_INT e) = false then 0 else y.span
  s.updOfdm e fun o =>
    if std ≤ 1 then
      match y.prs with
      | some ref => o.prs l (s.exportSums e y) ref
      | none => o.dab (s.rd (F.OFDM_X_EQ_ASSIST e)) (s.rd (F.OFDM_X_EQ_TRACK e)) l (s.exportSums e y)
    else o.qamSymbol span y.cpe.toNat l (s.exportSums e y)

/-- An exporting engine forms the sums over its own branches, which leave for the master (R530). -/
def State.exportSymbol (s : State) (e : Nat) (y : OfdmSym) : State :=
  s.equalise e y ((s.branchesIn e y).map fun b => { b with inSum := !b.marked })

/-- Engine `e` works for an export (R529). -/
def State.exporting (s : State) (e : Nat) : Bool := (s.chainOnEng (1 + e)).any fun c => decide (c.use = .remote)

/-- OFDM_SYMBOL (R296, R306 to R310, R530): a symbol of a synchronised engine. Every cell of an erased one goes on with CSI 0. -/
def execOfdmSymbol (e : Fin 8) (y : OfdmSym) (s : State) : Host.Outcome State Fault Refusal :=
  .next <| s.whenRoot fun s =>
    let e : Nat := e
    if s.exporting e then s.exportSymbol e y
    else if s.engState (1 + e) < 2 then s
    else
      let excl := s.exclNow e y
      let moved := (List.range 4).any fun b => excl.getD b false ≠ s.on (F.BR_EXCL e b)
      let s := s.each (List.range 4) fun s b => (s.wr (F.BR_EXCL e b) (b2n (excl.getD b false))).wr (F.BR_SNR e b)
        (if s.on (F.BR_VALID e b) then y.snr.toNat / 2 ^ (8 * b) % 256 else 0)
      let s := if moved then s.raise .ofdm C.ACQ_BRANCH_CHANGE e else s
      let s := s.updOfdm e fun o =>
        { o with entered := o.entered ||| (y.train.toNat &&& (15 - y.marked.toNat) &&& s.validBranches e),
                 resid := y.resid }
      let s := ((s.showSums e).trackLoops e y).equalise e y (s.branchesIn e y)
      let erased := ((List.range 4).all fun b => !s.hasWeight e y.marked b) && (s.exportSums e y).isEmpty
      let s := s.wr (F.OFDM_QUAL_BEYOND_DB e) y.beyond
      let s := s.updOfdm e fun o => { o with erased := erased }
      let s := if erased then s.bump (F.OFDM_COUNT2_ERASED e) else s.wr (F.OFDM_QUAL_MER e) (toField 16 y.mer4)
      let q := if erased then ofdmQual 0 (s.ofdmS e).qam else ofdmQual y.mer4 (s.ofdmS e).qam
      let s := s.updOfdm e fun o => { o with quals := (q :: o.quals).take (s.symbols100 e) }
      if s.engState (1 + e) = 3 then
        let m := meanOf (s.ofdmS e).quals
        ((s.wr (F.OFDM_QUAL e) m).putQual (1 + e) m).watchQc (1 + e)
      else s

/-- LOCKED (R297). -/
def State.ofdmLock (s : State) (e : Nat) : State :=
  if s.engState (1 + e) = 2 ∧ (s.ofdmS e).resid = true then
    (((s.updOfdm e fun o => { o with quals := [] }).wr (F.OFDM_STAT_STATE e) 3).raise .ofdm C.ACQ_LOCKED e).engLocked (1 + e)
  else s

/-- LOST (R297, R298); the Search starts from a stronger peak that came with it (R312). -/
def State.ofdmLost (s : State) (e : Nat) (peak : Option (Nat × Int)) : State :=
  let s := (s.ofdmSearch e).updOfdm e fun o => { o with start := peak.map fun p => p.2 }
  ((s.bump (F.OFDM_COUNT2_LOSSES e)).raise .ofdm C.ACQ_LOST e).engLost (1 + e)

/-- The peak that captures: more than Tg away, MARGIN or more in excess, the largest, the earlier of equals (R302). -/
def State.capturePeak (s : State) (e : Nat) (l : List (Nat × Int)) : Option (Nat × Int) :=
  let tg := (s.symbolLen e).2
  (l.filter fun p => decide (tg < p.2.natAbs) && decide (s.rd (F.OFDM_CAPT_CFG_MARGIN e) ≤ p.1)).foldl (fun best p =>
    match best with
    | none => some p
    | some b => if b.1 < p.1 ∨ (b.1 = p.1 ∧ p.2 < b.2) then some p else some b) none

/-- A capture (R302, R304): the frame is abandoned, the engine is in Acquire on the new timing, and of the frequency estimate the whole
spacings stay. The spans of R320 count from
DETECTED, which a capture does not raise; a Hamper is resolved in Locked alone (R319). -/
def State.capture (s : State) (e : Nat) (p : Nat × Int) : State :=
  let locked := decide (s.engState (1 + e) = 3)
  let s := ((s.wr (F.OFDM_CAPT_EXCESS e) (min 255 p.1)).wr (F.OFDM_CAPT_IN_LOCKED e) (b2n locked)).wr (F.OFDM_CAPT_SHIFT e) (toField 23 p.2)
  let s := (s.bump (F.OFDM_COUNT_CAPTURES e)).wr (F.OFDM_STAT_STATE e) 2
  let s := if locked then ((s.wr (F.OFDM_QUAL e) 0).putQual (1 + e) 0).unresolve e else s
  let s := s.updOfdm e fun o =>
    { OfdmSt.init with qam := o.qam, span := o.span, timedOut := o.timedOut, entered := o.entered, freq := roundShift 18 o.freq * 2 ^ 18 }
  (s.showSums e).raise .ofdm C.ACQ_CAPTURED e

/-- DRM robustness mode (R297, R311): the first identification, or a change, which returns the engine to Search. -/
def State.drmMode (s : State) (e m : Nat) : State :=
  let found (s : State) : State :=
    ((s.wr (F.OFDM_STAT_DRM_MODE e) m).wr (F.OFDM_STAT_MODE_VALID e) 1).raise .ofdm C.ACQ_MODE_FOUND e
  if !s.on (F.OFDM_STAT_MODE_VALID e) then found s
  else if s.rd (F.OFDM_STAT_DRM_MODE e) = m then s
  else if 2 ≤ s.engState (1 + e) then found ((s.raise .ofdm C.ACQ_CFG_CHANGE e).ofdmSearch e)
  else found s

/-- Frame sync in Search: DETECTED, and the engine goes to Acquire (R297). -/
def State.ofdmDetect (s : State) (e : Nat) (f : OfdmFrame) : State :=
  let std := s.rd (F.OFDM_ASSIGN_STD e)
  let mode := if std = 2 ∨ std = 3 then s.on (F.OFDM_STAT_MODE_VALID e)
    else if 4 ≤ std then (match f.p1 with | some (.lite _) => true | _ => false) else true
  let near := decide (f.ofs.natAbs ≤ s.rd (F.OFDM_X_ACQ_FREQ_RANGE e) * 1024 + 512)
  if f.counted && mode && near && decide ((s.rd (F.OFDM_X_ACQ_DET_THR e) : Int) ≤ f.peak2) then
    let s := s.updOfdm e fun o =>
      { OfdmSt.init with timedOut := o.timedOut, resid := f.resid, entered := s.validBranches e, freq := 2 ^ 8 * f.ofs }
    let s := ((s.wr (F.OFDM_STAT_STATE e) 2).wr (F.OFDM_SYNC_FREQ_OFS e) (toField 16 f.ofs)).wr (F.OFDM_FRAME_TIME_US e) f.time.toNat
    ((s.fecRestart e).raise .ofdm C.ACQ_DETECTED e).agcFollowAll
  else s

/-- The training is a P1 whose S1 field signals T2-base, MISO or an unrecognised value (R293). -/
def p1Foreign (f : OfdmFrame) : Bool :=
  match f.p1 with | some .base => true | some .miso => true | some .unknown => true | _ => false

/-- OFDM_FRAME (R293, R297, R302 to R304, R312): the training of a frame is judged. A T2-Lite engine records a P1 of another kind in
SEEN and ignores it. -/
def execOfdmFrame (e : Fin 8) (f : OfdmFrame) (s : State) : Host.Outcome State Fault Refusal :=
  .next <| s.whenRoot fun s =>
    let e : Nat := e
    let std := s.rd (F.OFDM_ASSIGN_STD e)
    if s.engState (1 + e) = 0 then s
    else
      let s := match f.p1 with
        | some .base => s.wr (F.OFDM_STAT_SEEN e) 1
        | some .miso => s.wr (F.OFDM_STAT_SEEN e) 2
        | some .unknown => s.wr (F.OFDM_STAT_SEEN e) 3
        | _ => s
      let s := match f.drmMode with
        | some m => if (std = 2 ∧ (m : Nat) < 4) ∨ (std = 3 ∧ (m : Nat) = 4) then s.drmMode e m else s
        | none => s
      let s := match f.p1 with
        | some (.lite n) => if 4 ≤ std ∧ s.on (F.OFDM_STAT_MODE_VALID e) = false then s.wr (F.OFDM_STAT_T2_FFT e) n else s
        | _ => s
      if 4 ≤ std ∧ p1Foreign f = true then s
      else if s.engState (1 + e) = 1 then s.ofdmDetect e f
      else
        let s := s.updOfdm e fun o => { o with fibs := 0, resid := f.resid }
        let locked := decide (s.engState (1 + e) = 3)
        let s := if locked then s.countTries e else s
        match (if !locked || s.on (F.OFDM_X_ACQ_CAPTURE_LOCKED e) then s.capturePeak e f.peaks else none) with
        | some p => (s.capture e p).wr (F.OFDM_FRAME_TIME_US e) f.time.toNat
        | none =>
          let stronger := s.capturePeak e f.peaks
          let s := if locked && stronger.isSome then s.bump (F.OFDM_COUNT_STRONGER e) else s
          let hit := decide ((s.rd (F.OFDM_X_ACQ_DET_THR e) : Int) ≤ f.peak2)
          let s := if !f.counted then s
            else if hit then (s.updOfdm e fun o => { o with miss := 0 }).wr (F.OFDM_FRAME_TIME_US e) f.time.toNat
            else s.updOfdm e fun o => { o with miss := o.miss + 1 }
          if s.rd (F.OFDM_ACQ_CFG_LOSS e) ≤ (s.ofdmS e).miss ∨ f.invalid = true ∨ 30 * 1024 < f.ofs.natAbs then s.ofdmLost e stronger
          else s

/-- OFDM_ACQ_TIMEOUT (R297): TIMEOUT is raised once per entry to Search. -/
def execOfdmAcqTimeout (e : Fin 8) (s : State) : Host.Outcome State Fault Refusal :=
  .next <| s.whenRoot fun s =>
    if s.engState (1 + e) = 1 ∧ (s.ofdmS e).timedOut = false then
      (s.updOfdm e fun o => { o with timedOut := true }).raise .ofdm C.ACQ_TIMEOUT e
    else s

end Sys2Proof.Machine
end

