-- ==== Sys2Proof/Machine/Fec.lean ====
section
/-! DEFINITION. Channel decoding events: Viterbi/RS, LDPC/BCH and Ensemble Combining (R316 to R347). -/
namespace Sys2Proof.Machine
open Sys2Proof

/-- The decoders take the output of OFDM engine `e`: FEC is enabled and a Hamper of this device holds the engine. -/
def State.fecChain (s : State) (e : Nat) : Option PChain :=
  if s.en .fec ∧ 2 ≤ s.engState (1 + e) then
    (match s.chainOnEng (1 + e) with | some c => if c.use = .held then some c else none | none => none)
  else none

/-- Hard links of FIG 0/6 that an engine reads: the latest of a service and a bearer stands (R351). -/
def State.learnLinks (s : State) (e : Nat) (l : List HardLink) : State :=
  { s with fec := { s.fec with links := l.foldl (fun acc k =>
      (acc.filter fun x => !(decide (x.eng = e) && decide (x.sid = k.sid.toNat) && decide (x.bearer = k.bearer.val))) ++
        [{ eng := e, sid := k.sid.toNat, bearer := k.bearer.val, ident := k.ident.toNat }]) s.fec.links } }

/-- Signalling from a block that passed its checks (R318, R319, R326, R350, R351, R439). -/
def State.signalling (s : State) (e src : Nat) (g : Signalling) : State :=
  let s := (s.learn (1 + e) g.afs).learnLinks e g.links
  let s := match g.clock with | some t => s.broadcastTime src t | none => s
  if s.engState (1 + e) = 3 then
    s.each (g.resolves.filter fun r => (s.hampersOn (1 + e)).contains r.ham.val) fun s r =>
      s.resolve e r.ham r.id0.toNat r.eid.toNat
  else s

def nats (l : List (BitVec 32)) : List Nat := l.map BitVec.toNat

/-- CHECK of R339. -/
def checkOf : Option Bool → Nat
  | none => 0 | some true => 1 | some false => 2

/-- The bytes of a payload of words, without those of its last word that are not used. -/
def payloadBytes (l : List (BitVec 32)) (pad : Nat) : List Nat :=
  let b := (nats l).flatMap wordBytes
  b.take (b.length - pad)

/-- The words that hold a list of bits, the last one filled with zeros, and the bytes of it that are not used. -/
def packBits (l : List Bool) : List Nat × Nat :=
  ((List.range ((l.length + 31) / 32)).map fun i => bitsNat ((List.range 32).map fun k => l.getD (32 * i + k) false),
    (4 - (l.length + 7) / 8 % 4) % 4)

/-- A signalling block decoded in one pass (R339, R340). -/
def sigBlock (kind e counter : Nat) (ok erased intact : Bool) (words : List Nat) (pad : Nat) : Block :=
  { kind := kind, check := if ok then 1 else 2, uncorr := false, erased := erased, combined := false, iter := 1, engine := e,
    counter := counter, stream := 0, pad := pad, payload := words, corrected := false, intact := intact }

/-- CHECK of a packet (R316): its CRC-16; a stream frame has no check of its own. -/
def serviceCheck (v : Service) : Option Bool := if v.packet then some (crc16Holds (payloadBytes v.words v.pad)) else none

/-- A service block. -/
def serviceBlock (v : Service) (check : Option Bool) (kind e counter iter : Nat) (uncorr combined : Bool) : Block :=
  { kind := kind, check := checkOf check, uncorr := uncorr, erased := v.erased, combined := combined, iter := iter, engine := e,
    counter := counter, stream := v.stream.toNat, pad := v.pad, payload := nats v.words,
    corrected := v.corrected || decide (1 < iter), intact := v.intact }

/-- Deliver a service block to the Hampers it is for: members of the chain that are resolved. Its cause is raised once. -/
def State.deliverAll (s : State) (c : PChain) (v : Service) (b : Block) (ldpc : Bool) (unit : Nat) : State :=
  let hs := (v.hams.map Fin.val).filter fun h => (s.usersOf c.id).contains h && ((s.resOf c h).isSome || decide (5 ≤ c.bearer))
  let s := s.berNote b.engine v.flips b.uncorr
  match hs with
  | [] => s
  | h :: _ => (s.blockCause b ldpc unit h).each hs fun s h => s.deliver c.id h b v.aus

/-- FIB_DECODED (R297, R318): the third FIB of a frame that passes locks the engine. -/
def execFibDecoded (e : Fin 8) (f : Fib) (s : State) : Host.Outcome State Fault Refusal :=
  .next <| s.whenRoot fun s =>
    match s.fecChain e with
    | none => s
    | some c =>
      if c.bearer ≠ 2 then s
      else
        let ok := crc16Holds (payloadBytes f.words 0)
        let s := (s.berNote e f.flips false).deliverSig (1 + e) (sigBlock 0 e f.cif.toNat ok f.erased f.intact (nats f.words) 0)
        if ok then
          let s := s.updOfdm e fun o => { o with fibs := o.fibs + 1 }
          let s := if 3 ≤ (s.ofdmS e).fibs then s.ofdmLock e else s
          s.signalling e 4 f.sig
        else s

/-- The settings of a superframe that begins now (R344). -/
def State.vrsNow (s : State) : VrsSet :=
  { max := s.rd F.FEC_VRS_CFG_ITER_MAX, thr := s.rd F.FEC_X_VRS_ERASE_THR, prior := s.rd F.FEC_X_VRS_PRIOR }

/-- The settings of the superframe at work in a subchannel. -/
def State.vrsAt (s : State) (key : Nat) : VrsSet :=
  let v := tget { max := 0, thr := 0, prior := 0 } s.fec.vrs key
  if v.max = 0 then s.vrsNow else v

/-- A superframe begins in a subchannel. -/
def State.vrsBegin (s : State) (key : Nat) : State :=
  { s with fec := { s.fec with vrs := tput { max := 0, thr := 0, prior := 0 } s.fec.vrs key s.vrsNow } }

/-- One more logical frame has left the deinterleaver of a subchannel; 16 make the span lie wholly after its restart. The first one
begins a superframe. -/
def State.countFrame (s : State) (key : Nat) : State :=
  let s := if tget 0 s.fec.deint key = 0 then s.vrsBegin key else s
  { s with fec := { s.fec with deint := tput 0 s.fec.deint key (min 32 (tget 0 s.fec.deint key + 1)) } }

/-- Both legs contribute to a block (R337). -/
def State.isCombined (s : State) (c : PChain) (single : Bool) : Bool := s.on (F.FEC_COMB_STAT_ACTIVE c.clus) && !single

/-- A leg is Locked, and its deinterleaver of subchannel `sub` is full. -/
def State.legFull (s : State) (l : Leg) (sub : Nat) : Bool :=
  decide (s.engState (1 + l.eng) = 3) && decide (16 ≤ tget 0 s.fec.deint (64 * l.eng + sub))

/-- The engine whose CIFs a chain decodes alone while combining is off: the primary, or the secondary while the primary is not
Locked, or has not filled its deinterleaver again (R337; assumption 125). -/
def State.legInUse (s : State) (c : PChain) (sub : Nat) : Nat :=
  match c.pair with
  | some l => if s.legFull c.main sub || !s.legFull l sub && decide (s.engState (1 + c.main.eng) = 3) then c.main.eng else l.eng
  | none => c.main.eng

/-- A block of engine `e` is decoded for chain `c`: both legs are, or it is the leg in use, or the other delivered none (R337). -/
def State.legDecodes (s : State) (c : PChain) (e sub : Nat) : Bool := s.on (F.FEC_COMB_STAT_ACTIVE c.clus) || decide (s.legInUse c sub = e)

/-- LOGICAL_FRAME_DECODED (R320, R322, R335, R340): the deinterleaver fills from DETECTED on, while combining those of both legs; a
Locked engine delivers. -/
def execLogicalFrameDecoded (e : Fin 8) (f : LogicalFrame) (s : State) : Host.Outcome State Fault Refusal :=
  .next <| s.whenRoot fun s =>
    match s.fecChain e with
    | none => s
    | some c =>
      if c.bearer ≠ 2 then s
      else
        let sub := f.service.stream.toNat % 64
        let both := s.isCombined c f.single
        let s := s.each (if both then c.legs.map (·.eng) else [e.val]) fun s k => s.countFrame (64 * k + sub)
        if f.plus || decide (tget 0 s.fec.deint (64 * (e : Nat) + sub) < 16) || decide (s.engState (1 + (e : Nat)) ≠ 3) ||
          !s.legDecodes c e sub then s
        else s.deliverAll c f.service
          (serviceBlock f.service (serviceCheck f.service) (if f.service.packet then 3 else 1) e f.cif.toNat 1 false both) false c.clus

/-- A list of bytes of a codeword in order of rising reliability, the earlier one first among equals. -/
def insertWeak (x : Bool × Nat) : Codeword → Codeword
  | [] => [x]
  | y :: r => if x.2 < y.2 then x :: y :: r else y :: insertWeak x r

/-- RS(120,110) decodes a codeword (R322, R323): without erasures, else with erasures on the bytes whose weakest bit lies below
ERASE_THR, up to 10 of the weakest. -/
def rsDecodes (thr : Nat) (w : Codeword) : Bool :=
  let wrong (l : Codeword) : Nat := (l.filter fun b => b.1).length
  let weak := (w.foldl (fun acc b => insertWeak b acc) []).filter fun b => decide (b.2 < thr)
  let erased := weak.take 10
  decide (2 * wrong w ≤ 10) || decide (2 * (wrong w - wrong erased) + erased.length ≤ 10)

/-- Passes of R323 and R324 over a superframe with codewords `todo` not yet decoded: how many run, how many codewords are left
undecoded, the fire code, and whether the limit ended them. A codeword decoded in one pass stays decoded. -/
def runPasses (v : VrsSet) : List VrsPass → Nat → List Nat → Nat × Nat × Bool × Bool
  | [], n, todo => (n, todo.length, false, false)
  | x :: r, n, todo =>
    let left := todo.filter fun i => !(match x.words[i]? with | some w => rsDecodes v.thr w | none => false)
    if left = [] ∧ x.fire = true then (n + 1, 0, true, false)
    else if v.max ≤ n + 1 then (n + 1, left.length, x.fire, true)
    else if 1 ≤ n ∧ left.length = todo.length then (n + 1, left.length, x.fire, false)
    else match r with
      | [] => (n + 1, left.length, x.fire, false)
      | _ => runPasses v r (n + 1) left

/-- Codewords of a superframe (R322). -/
def superWords (f : Superframe) : List Nat := List.range ((f.passes.head?.map fun x => x.words.length).getD 0)

/-- A codeword of the superframe needed a correction in the first pass. -/
def superDirty (f : Superframe) : Bool := f.passes.any fun x => x.words.any fun w => w.any fun b => b.1

/-- SUPERFRAME_DECODED (R322 to R325, R344): a superframe ends its passes and is delivered while superframe sync holds. Sync is
declared at the first of the five positions at which the fire code passes, and lost after 3 superframes in a row without it. The
next superframe begins with it, under the settings as they then stand. -/
def execSuperframeDecoded (e : Fin 8) (f : Superframe) (s : State) : Host.Outcome State Fault Refusal :=
  .next <| s.whenRoot fun s =>
    match s.fecChain e with
    | none => s
    | some c =>
      let sub := f.service.stream.toNat % 64
      let key := 64 * (e : Nat) + sub
      let sync := tget 0 s.fec.fire key
      if c.bearer ≠ 2 ∨ s.engState (1 + e) ≠ 3 ∨ tget 0 s.fec.deint key < 20 ∨ s.legDecodes c e sub = false ∨
        (sync ≠ 0 ∧ tget 0 s.fec.phase key ≠ f.cif.toNat % 5) then s
      else
        let (n, left, fire, limit) := runPasses (s.vrsAt key) f.passes 0 (superWords f)
        let s := s.vrsBegin key
        let sync' := if fire then 1 else if sync = 0 ∨ 3 ≤ sync then 0 else sync + 1
        let s := { s with fec := { s.fec with fire := tput 0 s.fec.fire key sync', phase := tput 0 s.fec.phase key (f.cif.toNat % 5) } }
        if sync = 0 ∧ fire = false then s
        else
          let v := { f.service with packet := false, corrected := f.service.corrected || superDirty f }
          let check := some (fire && v.aus.all fun a => decide (a ≠ some false))
          let b := serviceBlock v check 2 e f.cif.toNat n (decide (0 < left)) (s.isCombined c f.single)
          let s := s.deliverAll c v b false c.clus
          let hs := (v.hams.map Fin.val).filter fun h => (s.usersOf c.id).contains h && (s.resOf c h).isSome
          if limit ∧ 0 < left ∧ hs ≠ [] then
            (s.each hs fun s h => s.bump (F.FEC_HSTAT1_ITER_LIMITS h)).raise .fec C.FEC_ITER_LIMIT
          else s

/-- RECONFIG_APPLY (R311, R319, R321): changed subchannels restart their deinterleavers, removed components are no longer
resolved, and the engine raises CFG_CHANGE. -/
def execReconfigApply (e : Fin 8) (subs : List (Fin 64)) (gone : List (Fin 128)) (s : State) : Host.Outcome State Fault Refusal :=
  .next <| s.whenRoot fun s =>
    match s.fecChain e with
    | none => s
    | some c =>
      if c.bearer ≠ 2 then s
      else
        let keys := subs.map fun (x : Fin 64) => 64 * (e : Nat) + (x : Nat)
        let keep (l : List (Nat × Nat)) : List (Nat × Nat) := l.filter fun x => !keys.contains x.1
        let s := { s with fec := { s.fec with deint := keep s.fec.deint, fire := keep s.fec.fire, phase := keep s.fec.phase
                                              vrs := s.fec.vrs.filter fun x => !keys.contains x.1 } }
        let s := s.unresolveIf fun r => decide (r.key / 128 = e.val) && (gone.map Fin.val).contains (r.key % 128)
        s.raise .ofdm C.ACQ_CFG_CHANGE e

/-- DRM_FRAME_DECODED (R297, R311, R326): FAC first, then SDC and MSC; two FACs in a row that pass lock the engine. A
change of constellation or interleaving depth restarts the time deinterleaver. -/
def execDrmFrameDecoded (e : Fin 8) (f : DrmFrame) (s : State) : Host.Outcome State Fault Refusal :=
  .next <| s.whenRoot fun s =>
    match s.fecChain e with
    | none => s
    | some c =>
      if c.bearer ≠ 3 ∧ c.bearer ≠ 4 then s
      else
        let e' : Nat := e
        let facOk := facHolds f.fac
        let sdcOk := f.sdc.any sdcHolds
        let sig (kind : Nat) (ok : Bool) (l : List Bool) : Block :=
          sigBlock kind e f.frame.toNat ok f.erased f.intact (packBits l).1 (packBits l).2
        let s := (s.berNote e f.flips false).deliverSig (1 + e) (sig 4 facOk f.fac)
        let s := match f.sdc with
          | some l => s.deliverSig (1 + e) (sig 5 sdcOk l)
          | none => s
        let first := decide ((s.ofdmS e).qam = 0)
        let s := s.updOfdm e fun o => { o with fac := if facOk then o.fac + 1 else 0 }
        let s := if facOk then
            let moved := decide (s.rd (F.OFDM_STAT_DRM_OCC e) ≠ (f.occ : Nat)) || decide ((s.ofdmS e).qam ≠ (f.qam : Nat))
            let requam := !first && (decide ((s.ofdmS e).qam ≠ (f.qam : Nat)) || decide ((s.ofdmS e).span ≠ f.span))
            let s := (s.wr (F.OFDM_STAT_DRM_OCC e) f.occ).updOfdm e fun o => { o with qam := f.qam, span := f.span }
            let s := if moved && !first then s.raise .ofdm C.ACQ_CFG_CHANGE e else s
            let s := if requam then { s with fec := { s.fec with drm := tput 0 s.fec.drm e' 0 } } else s
            if 2 ≤ (s.ofdmS e).fac then s.ofdmLock e else s
          else s
        let s : State := if facOk || sdcOk then s.signalling e 5 f.sig else s
        let s : State := { s with fec := { s.fec with drm := tput 0 s.fec.drm e' (min 255 (tget 0 s.fec.drm e' + 1)) } }
        if s.engState (1 + (e : Nat)) ≠ 3 ∨ tget 0 s.fec.drm e' < (s.ofdmS e).span then s
        else s.each f.services fun s v =>
          s.deliverAll c v (serviceBlock v (serviceCheck v) (if v.packet then 7 else 6) e f.frame.toNat 1 false false) false c.clus

/-- The L1-post that passed last stands until another passes (R327); of it the groups of PLPs are used (R328). -/
def State.holdL1 (s : State) (e : Nat) (f : T2L1) : State :=
  { s with fec := { s.fec with l1 := (s.fec.l1.filter fun x => decide (x.1 ≠ e)) ++ [(e, f.common.map fun x => (x.1.toNat, x.2.toNat))] } }

/-- T2_L1_DECODED (R297, R311, R327): a frame whose L1-post failed is decoded with the last one that passed; it is discarded where a
change is pending, or where none has passed. -/
def execT2L1Decoded (e : Fin 8) (f : T2L1) (s : State) : Host.Outcome State Fault Refusal :=
  .next <| s.whenRoot fun s =>
    match s.fecChain e with
    | none => s
    | some c =>
      if c.bearer < 5 then s
      else
        let s := (s.berNote e f.flips f.uncorr).deliverSig (1 + e) { sigBlock 8 e f.frame.toNat f.postOk f.erased f.intact (nats f.words) f.pad with
          uncorr := f.uncorr, iter := f.iter }
        let known := s.on (F.OFDM_STAT_MODE_VALID e)
        let moved := known && (decide (s.rd (F.OFDM_STAT_T2_FFT e) ≠ f.fft) || decide (s.rd (F.OFDM_STAT_T2_GI e) ≠ f.gi) ||
          decide (s.rd (F.OFDM_STAT_T2_PP e) ≠ f.pp))
        if f.preOk && moved then
          let s := (s.raise .ofdm C.ACQ_CFG_CHANGE e).wr (F.OFDM_STAT_MODE_VALID e) 0
          ((s.wr (F.OFDM_QUAL e) 0).putQual (1 + e) 0).wr (F.OFDM_STAT_STATE e) 2
        else
          let s := if f.preOk && !known then
              let s := ((s.wr (F.OFDM_STAT_T2_FFT e) f.fft).wr (F.OFDM_STAT_T2_GI e) f.gi).wr (F.OFDM_STAT_T2_PP e) f.pp
              ((s.wr (F.OFDM_STAT_T2_EXT e) (b2n f.ext)).wr (F.OFDM_STAT_MODE_VALID e) 1).raise .ofdm C.ACQ_MODE_FOUND e
            else s
          let due := s.fec.l1Due.contains (e : Nat) || (f.preOk && f.announced)
          let rest := s.fec.l1Due.filter fun x => decide (x ≠ (e : Nat))
          let drop := s.fec.l1Drop.filter fun x => decide (x ≠ (e : Nat))
          let first := !(s.fec.l1.any fun x => decide (x.1 = (e : Nat)))
          let s := { s with fec := { s.fec with l1Due := if due && !f.postOk then (e : Nat) :: rest else rest
                                                l1Drop := if !f.postOk && (due || first) then (e : Nat) :: drop else drop } }
          if f.postOk then
            let s := s.holdL1 e f
            let s := s.updOfdm e fun o => { o with qam := f.qam }
            let s := if f.changed && decide (s.engState (1 + e) = 3) then s.raise .ofdm C.ACQ_CFG_CHANGE e else s
            let s := if f.preOk then s.ofdmLock e else s
            s.signalling e 0 { f.sig with clock := none }
          else if due then s.each f.blocks fun s x => s.each (List.range x.2) fun s _ =>
            s.blockLost x.1 (s.t2Kind x.1) true ((s.ham x.1).ldpc.getD 0) ((s.ham x.1).req.id0 % 256)
          else s

/-! ### LDPC/BCH units -/

/-- The unit that serves a block: the Hamper's, or for L1 that of the chain's top member. -/
def State.ldpcUnit (s : State) (c : PChain) (who : Option (Fin 128)) : Option Nat :=
  match who with
  | some h => (s.ham h).ldpc
  | none => (s.place.live.top c.id).bind fun h => (s.ham h).ldpc

/-- LDPC_BLOCK_ARRIVE (R332, R333): a block enters its FIFO, or is discarded at a full one. -/
def execLdpcBlockArrive (e : Fin 8) (who : Option (Fin 128)) (plp : BitVec 8) (common : Bool) (s : State) :
    Host.Outcome State Fault Refusal :=
  .next <| s.whenRoot fun s =>
    match s.fecChain e with
    | none => s
    | some c =>
      match (if 5 ≤ c.bearer ∧ ¬(who.isSome = true ∧ s.fec.l1Drop.contains e.val = true) then s.ldpcUnit c who else none) with
      | none => s
      | some u =>
        let w := match who with | some h => (h : Nat) | none => 128 + (e : Nat)
        if 16 ≤ ((s.ldpc u).fifo.filter fun b => decide (b.who = w)).length then
          let h := match who with | some h => (h : Nat) | none => s.rd (F.OFDM_ASSIGN_HAMPER e)
          let s := (s.lastBad C.FEC_OVERRUN (if who.isSome then s.t2Kind h else 8) true u h plp.toNat).sat F.FEC_COUNT_OVERRUNS
          let s := s.raise .fec C.FEC_OVERRUN
          if who.isSome then s.blockLost h (s.t2Kind h) true u plp.toNat else s.raise .fec C.FEC_UNCORR
        else
          let b : LBlock := { who := w, eng := e, plp := plp.toNat, common := common, waited := false, limit := 0, stop := false, chain := c.id, users := [] }
          (s.updLdpc u fun x => { x with fifo := x.fifo ++ [b] }).ldpcShow u

/-- The chain a block counts for: the one its Hamper is on now (R328, R334). -/
def State.blockChain (s : State) (b : LBlock) : Nat := if b.who < 128 then ((s.ham b.who).chain).getD b.chain else b.chain

/-- The Hampers a block is for: those that name its PLP, or, for a common PLP, one associated with it (R328). -/
def State.blockUsers (s : State) (b : LBlock) : List Nat :=
  (s.usersOf (s.blockChain b)).filter fun h =>
    let plp := (s.ham h).req.id0 % 256
    if b.common then decide (s.commonPlp b.eng plp = some b.plp) || decide ((s.ham h).req.id0 % 256 = 0) else decide (plp = b.plp) || decide (plp = 0)

/-- PRIORITY of a block's turn (R332): of a common PLP, the highest of the members associated with it. -/
def State.blockPrio (s : State) (b : LBlock) : Nat :=
  if b.common then (s.blockUsers b).foldl (fun m h => max m (s.ham h).req.prio) 0 else (s.ham b.who).req.prio

/-- The oldest block of each Hamper's FIFO. -/
def LdpcSt.heads (x : LdpcSt) : List LBlock :=
  x.fifo.foldl (fun l b => if l.any fun a => decide (a.who = b.who) then l else l ++ [b]) []

/-- The block a free unit takes (R332): the oldest L1 block, else the oldest of the FIFO of highest priority, in round
robin among equals. -/
def LdpcSt.choose (x : LdpcSt) (prio : LBlock → Nat) : Option LBlock :=
  match x.fifo.find? fun b => decide (128 ≤ b.who) with
  | some b => some b
  | none =>
    let top := x.heads.foldl (fun m b => max m (prio b)) 0
    let l := x.heads.filter fun b => decide (prio b = top)
    let after := l.filter fun b => decide (tget 0 x.turn top ≤ b.who)
    let pool := if after.isEmpty then l else after
    match pool with
    | [] => none
    | a :: r =>
      let w := r.foldl (fun m b => min m b.who) a.who
      pool.find? fun b => decide (b.who = w)

/-- LDPC_BLOCK_START (R56, R332, R333): with the root clock; the load cap is judged on the blocks that wait as the block starts. -/
def execLdpcBlockStart (u : Fin 2) (s : State) : Host.Outcome State Fault Refusal :=
  .next <|
    let x := s.ldpc u
    if !s.en .fec || !s.rootOk || x.cur.isSome then s
    else match x.choose s.blockPrio with
      | none => s
      | some b =>
        let max := s.rd F.FEC_LDPC_CFG_MAX_ITER
        let limit := if s.rd F.FEC_X_LDPC_LOAD_THR < x.fifo.length then min max (s.rd F.FEC_X_LDPC_LOAD_ITER) else max
        let s := s.updLdpc u fun x =>
          { fifo := x.fifo.erase b, cur := some { b with limit := limit, stop := s.on F.FEC_LDPC_CFG_EARLY_STOP, users := s.blockUsers b, chain := s.blockChain b },
            turn := if 128 ≤ b.who then x.turn else tput 0 x.turn (s.blockPrio b) (b.who + 1) }
        s.ldpcShow u

/-- CHECK of a TS packet (R330): in normal mode the CRC-8 that stands in the place of its sync byte. -/
def tsCheck (hem : Bool) (v : Service) : Option Bool :=
  let b := payloadBytes v.words v.pad
  if hem then none else some (decide (crc8T2 (b.drop 1) = b.getD 0 0))

/-- A TS packet as it is delivered (R330): the sync byte 0x47 first, and transport_error_indicator, the top bit of the second
byte, for a packet whose CRC-8 failed. -/
def tsPacket (hem : Bool) (v : Service) : Service :=
  match v.words with
  | [] => v
  | w :: l =>
    let w := putBits w 31 24 0x47
    { v with words := (if tsCheck hem v = some false then putBits w 23 23 1 else w) :: l }

/-- The blocks that a BBFRAME gives, with their checks (R330): GSE packets, or whole TS packets of 188 bytes. -/
def bbPackets (gse hem : Bool) (l : List Service) : List (Service × Option Bool) :=
  if gse then l.map fun v => (v, none)
  else (l.filter fun v => decide (v.words.length = 47) && decide (v.pad = 0)).map fun v => (tsPacket hem v, tsCheck hem v)

/-- LDPC_BLOCK_DONE (R27, R329, R330, R339): a block ends; the BCH decoder corrects up to 12 bit errors; its packets go to every
member of its chain that takes its PLP and output, also when a fence took the chain meanwhile. -/
def execLdpcBlockDone (u : Fin 2) (r : LdpcResult) (s : State) : Host.Outcome State Fault Refusal :=
  .next <| s.whenUp fun s =>
    match (s.ldpc u).cur with
    | none => s
    | some b =>
      let s := s.updLdpc u fun x => { x with cur := none }
      let held := match r.parity with | some n => decide (n ≤ b.limit) | none => false
      let used := if held && b.stop then r.parity.getD 0 else b.limit
      let lost := decide (12 < r.bitErrors)
      let s := (s.wr (F.FEC_LDPC_STAT_LAST_ITER u) used).berNote b.eng r.flips lost
      let unit : Nat := u
      let count := decide (b.who < 128)
      let kind := if count then (if r.gse then 10 else 9) else 8
      let who := if count then b.who else s.rd (F.OFDM_ASSIGN_HAMPER b.eng)
      let s := if held then s
        else
          let s := if lost then s else s.lastBad C.FEC_ITER_LIMIT kind true unit who b.plp
          (if count then s.bump (F.FEC_HSTAT1_ITER_LIMITS b.who) else s).raise .fec C.FEC_ITER_LIMIT
      if !count then
        (if lost then (s.lastBad C.FEC_UNCORR kind true unit who b.plp).raise .fec C.FEC_UNCORR else s)
      else if lost then s.blockLost b.who kind true unit b.plp
      else match bbHeader (r.header.map BitVec.toNat) with
        | none => ((s.lastBad C.FEC_CRC_FAIL kind true unit b.who b.plp).raise .fec C.FEC_CRC_FAIL).bump (F.FEC_HSTAT0_BLOCKS_BAD b.who)
        | some hem =>
          let hs := b.users.filter fun h => s.placed h && decide ((s.ham h).req.id1 % 2 = b2n r.gse)
          s.each (bbPackets r.gse hem r.packets) fun s v =>
            let blk := { serviceBlock v.1 v.2 (if r.gse then 10 else 9) b.eng r.frame.toNat used false false with
                         stream := b.plp, corrected := v.1.corrected || decide (0 < r.bitErrors) }
            (s.blockCause blk true unit b.who).each hs fun s h => s.deliver b.chain h blk []

/-- POOL_WAIT (R333): a block has waited longer than WAIT_US before it starts. -/
def execPoolWait (u : Fin 2) (who : Option (Fin 128)) (s : State) : Host.Outcome State Fault Refusal :=
  .next <| s.whenUp fun s =>
    let mine (b : LBlock) : Bool := match who with | some h => decide (b.who = h) | none => decide (128 ≤ b.who)
    match (s.ldpc u).fifo.find? fun b => mine b && !b.waited with
    | none => s
    | some b =>
      let s := s.updLdpc u fun x => { x with fifo := x.fifo.replace b { b with waited := true } }
      (s.sat F.FEC_COUNT_POOL_WAITS).raise .fec C.FEC_POOL_WAIT

/-! ### Ensemble Combining -/

/-- CIF_COMBINE (R335 to R337): the conditions of one CIF turn combining on or off; a frame counts for COMB_ON when they
hold in all of it. While combining is active the CSI-weighted soft values of the two legs are summed. -/
def execCifCombine (u : Fin 4) (c : CifPair) (s : State) : Host.Outcome State Fault Refusal :=
  .next <| s.whenRoot fun s =>
    match (if s.en .fec then s.pairOn u else none) with
    | none => s
    | some p =>
      let locked := p.legs.all fun l => decide (s.engState (1 + l.eng) = 3)
      let near := decide (c.skew.natAbs ≤ 240 * s.rd F.FEC_COMB_CFG_SKEW_MAX)
      let run (n : Nat) (s : State) : State := { s with fec := { s.fec with combRun := tput 0 s.fec.combRun u n } }
      let next := b2n c.frameEnd
      let sum (s : State) : State := { s with fec := { s.fec with cif := tput [] s.fec.cif u.val (c.soft.map fun x => x.1 + x.2) } }
      if s.on (F.FEC_COMB_STAT_ACTIVE u) then
        if !locked then run next (s.combOff u 1)
        else if !c.sameEid then run next (s.combOff u 2)
        else if !c.sameFig then run next (s.combOff u 3)
        else if !near then run next (s.combOff u 4)
        else sum ((s.wr (F.FEC_COMB_STAT_SKEW u) (toField 14 c.skew)).wr (F.FEC_COMB_STAT_SHARE_B u) c.share.toNat)
      else if locked && c.sameEid && c.sameFig && near && c.complete then
        if c.frameEnd then
          if 2 ≤ tget 0 s.fec.combRun u then
            let s := ((run 0 s).wr (F.FEC_COMB_STAT_ACTIVE u) 1).wr (F.FEC_COMB_STAT_SKEW u) (toField 14 c.skew)
            (s.wr (F.FEC_COMB_STAT_SHARE_B u) c.share.toNat).raise .fec C.FEC_COMB_ON
          else run (tget 0 s.fec.combRun u + 1) s
        else s
      else run next s

/-- BER_WINDOW (R342): a window of 1 s ends; an engine for which no block was re-encoded keeps its estimate. (assumption 126) -/
def execBerWindow (s : State) : Host.Outcome State Fault Refusal :=
  .next <| s.whenRoot fun s =>
    if s.en .fec then
      let s := s.each (List.range 8) fun s e =>
        let (n, w) := tget (0, 0) s.fec.ber e
        if n = 0 then s else s.wr (F.FEC_BER e) (min 65535 (nearest (w * 100000 : Nat) n).toNat)
      { s with fec := { s.fec with ber := [] } }.berEval
    else s

/-- Each LDPC/BCH unit stops; a block partly decoded is discarded and counted as uncorrectable (R62, R334). -/
def State.ldpcStop (s : State) : State :=
  s.each [0, 1] fun s u =>
    let cur := (s.ldpc u).cur
    let s := s.updLdpc u fun x => { x with cur := none }
    let s := match cur with | some b => s.lblockLost u b | none => s
    s.ldpcShow u

/-- FEC stops: blocks in progress and waiting are discarded and counted as uncorrectable, superframe sync is lost (R345). -/
def State.fecStop (s : State) : State :=
  let s := s.ldpcStop.each [0, 1] fun s u => s.ldpcDiscard u fun _ => true
  { s with fec := { s.fec with fire := [], phase := [] } }

end Sys2Proof.Machine
end

