-- ==== Sys2Proof/Machine/Lane.lean ====
section
/-! DEFINITION. Lanes: applications, bank swaps, delay, trim and flags (R208 to R236). -/
namespace Sys2Proof.Machine
open Sys2Proof

/-- A waiting Basic update, or the staged Expert fields after APPLY, reach the chain of lane `n`, and the engine follows
(R211). -/
def State.applyDue (s : State) (n : Nat) : State :=
  let l := s.lane n
  let plain (c : Chain) : Chain := { c with extra := 0, phaseClr := true, hold := false }
  let done (t : State) : State :=
    let t := t.laneSync n
    let m := t.lane n
    (if plain m.chain = plain l.chain ∧ m.run = l.run ∧ m.engine = l.engine then t else t.laneApplied n l.engine).agcFollowAll
  if s.laneExpert n then
    (if s.on (F.LANE_X_APPLY_APPLY n) || l.due then
      done ((s.when l.due fun s => s.followExpert n).when (s.on (F.LANE_X_APPLY_APPLY n)) fun s => s.applyExpert n)
     else s)
  else
    let s := s.wr (F.LANE_X_APPLY_APPLY n) 0
    if l.due then done (s.applyBasic n false) else s

/-- LANE_APPLY (R211): a common boundary with an application pending. -/
def execLaneApply (n : Fin 24) (s : State) : Host.Outcome State Fault Refusal :=
  .next <| if s.rootOk && s.clusOn (n / 6) then s.applyDue n else s

/-- The banks of a lane swap (R220). -/
def State.swapLane (s : State) (n : Nat) : State :=
  let s := (s.updLane n fun l => { l with swapDue := false }).wr (F.LANE_X_APPLY_SWAP n) 0
  let s := s.wr (F.LANE_STAT_ACTIVE_BANK n) (1 - s.rd (F.LANE_STAT_ACTIVE_BANK n))
  (s.raise .lane C.LANE_BANK_SWAPPED n).markLaneAt n false .fir

/-- A lane of an engine whose bandwidth changes has swapped, giving `t`: the engine's other lanes swap at the same common boundary,
and the new code is in force (R281). -/
def State.bwSwapped (s : State) (n : Nat) (t : State) : State :=
  let k := (s.lane n).engine
  match (if 17 ≤ k then (s.anaS (k - 17)).bwDue else none) with
  | none => t
  | some code => (t.each ((t.lanesOfEng k).filter fun m => (t.lane m).swapDue) State.swapLane).bwNow (k - 17) code

/-- BANK_SWAP (R220, R221): the swap takes effect at the first FIR output after the boundary. -/
def execBankSwap (n : Fin 24) (s : State) : Host.Outcome State Fault Refusal :=
  .next <|
    if s.rootOk && s.clusOn (n / 6) && ((s.lane n).swapDue || s.on (F.LANE_X_APPLY_SWAP n)) then
      s.bwSwapped n (s.swapLane n)
    else s

/-- DELAY_JUMP (R225): a jump-mode target applies at the first output after the boundary; a target equal to the delay
in force marks nothing. -/
def execDelayJump (n : Fin 24) (s : State) : Host.Outcome State Fault Refusal :=
  .next <|
    if s.rootOk && s.clusOn (n / 6) && (s.lane n).delayDue then s.jumpDelay n else s

/-- DELAY_SLEW_STEP (R225): every 64 output samples a slewing delay moves by 1/64 sample. -/
def execDelaySlewStep (n : Fin 24) (s : State) : Host.Outcome State Fault Refusal :=
  .next <|
    if s.rootOk && s.clusOn (n / 6) && s.on (F.LANE_STAT_SLEWING n) then
      let t := s.rd (F.LANE_DELAY_TARGET n)
      let d := s.rd (F.LANE_DELAY_NOW n)
      let d' := if d < t then d + 1 else d - 1
      let s := s.wr (F.LANE_DELAY_NOW n) d'
      if d' = t then (s.wr (F.LANE_STAT_SLEWING n) 0).raise .lane C.LANE_DELAY_SET n else s
    else s

/-- TRIM_REQUEST (R224, R301): the OFDM engine that lane `n` feeds asks the same trim of every lane that feeds it, at most once per
symbol; an analogue engine never asks (R273). -/
def execTrimRequest (n : Fin 24) (trim : Int) (s : State) : Host.Outcome State Fault Refusal :=
  .next <| s.whenRoot fun s =>
    let k := s.laneEng n
    if s.laneRunning n && decide (1 ≤ k) && decide (k < 17) && !(s.ofdmS (k - 1)).trimmed then
      (s.each (s.lanesOfEng k) fun s m => s.setTrim m trim).updOfdm (k - 1) fun o => { o with trimmed := true }
    else s

/-- SETTLED (R228, R235): the last UNSETTLED sample of a run has left the lane; a marked interval at the input, or a marked sample
still on its way, keeps the run going. -/
def execSettled (n : Fin 24) (s : State) : Host.Outcome State Fault Refusal :=
  .next <|
    let l := s.lane n
    if s.rootOk && l.runMarked && !s.laneInterval n && !l.dsp.unsettled l.chain (s.rd (F.LANE_DELAY_NOW n)) then
      let s := s.updLane n fun l => { l with runMarked := false, runSettles := false }
      if l.runSettles then s.raise .lane C.LANE_SETTLED n else s
    else s

/-- SAT_WINDOW (R230): the level of SATURATED over one window of 1 ms, and its count. `sat` tells of samples beside those of the
data path that the model has seen leave. -/
def execSatWindow (n : Fin 24) (sat : Bool) (s : State) : Host.Outcome State Fault Refusal :=
  .next <| s.whenRoot fun s =>
    let hit := (sat && s.laneRunning n) || (s.lane n).dsp.satSeen
    let s := s.updLane n fun l => { l with dsp := { l.dsp with satSeen := false } }
    let s := s.level .lane C.LANE_SATURATED hit n
    if hit then s.sat (F.LANE_COUNT_SAT_EVENTS n) else s

/-- A lane is lost: page reset or EN at 0 stops it, returns it to preset 0 and tells PLACE (R234). Its output is INVALID until the
engine is released. -/
def State.loseLane (s : State) (n : Nat) : State :=
  let s := ((s.wr (F.LANE_ASSIGN_PRESET n) 0).idleLane n).agcFollowAll
  (s.updLane n fun l => { l with dsp := { l.dsp with word := b2n (s.on (F.LANE_ASSIGN_ENG_VALID n)) * 8 } }).lostLane n

end Sys2Proof.Machine
end

