-- ==== Sys2Proof/Machine/ProbeOps.lean ====
section
/-! DEFINITION. The probe transmitter: points, occupancy, results and aborts (R478 to R491). -/
namespace Sys2Proof.Machine
open Sys2Proof

/-- A radio-state transition begins: BUSY reads 1 until it ends, and STATE_DONE is owed where it ends at the target
(R75). -/
def State.startTrans (s : State) (t : Trans) : State :=
  { s.wr F.PWR_STATE_STAT_BUSY 1 with pwr := { s.pwr with trans := some t, doneDue := true } }

/-- A probe command runs (R484). -/
def State.probing (s : State) : Bool := s.on F.PROBE_CMD_GO

/-- Frequency of point `p` in Hz (R484). -/
def State.pointHz (s : State) (p : Nat) : Nat := s.rd F.PROBE_START_HZ + p * s.rd F.PROBE_STEP_HZ

/-- Half the occupied band in Hz (R478). -/
def State.halfBand (s : State) : Nat := if s.on F.PROBE_CFG_SHAPE then s.rd F.PROBE_CFG_BW_KHZ * 500 else 10000

/-- The occupied band of a point lies in the ranges of R478. -/
def State.pointOk (s : State) (p : Nat) : Bool :=
  let f := s.pointHz p
  let h := s.halfBand
  (decide (144000 + h ≤ f) && decide (f + h ≤ 983040000)) || (decide (1452000000 + h ≤ f) && decide (f + h ≤ 1492000000))

/-- B of a preset in Hz (R483). -/
def presetWidth (p : Nat) : Nat := [0, 20000, 400000, 1536000, 20000, 100000, 7000000, 8000000].getD p 0

/-- Lane `n` reports a carrier in the band of point `p` (R483): it runs, the bands overlap, and its engine holds
detection or its output power `pow` (quarter dBm at the balls) reaches the threshold. -/
def State.laneBlocks (s : State) (pow : Powers) (p n : Nat) : Bool :=
  let f := s.rd (F.LANE_FREQ_FREQ_HZ n)
  let w := presetWidth (s.rd (F.LANE_ASSIGN_PRESET n))
  let c := s.pointHz p
  let h := s.halfBand
  s.laneRunning n && decide (2 * f < 2 * (c + h) + w) && decide (2 * c < 2 * (f + h) + w) &&
    (s.laneDetects n || pow.any fun x => decide (x.1.val = n) && decide (ofField 16 (s.rd F.PROBE_OCC_THR_DBM) ≤ x.2))

/-- Point `p` is occupied by a lane (R483). -/
def State.occupied (s : State) (pow : Powers) (p : Nat) : Bool := (List.range 24).any (s.laneBlocks pow p)

/-! ### The mask (R487) -/

/-- Distance in Hz of a bin that lies outside the occupied band of point `p` from the nearer edge of that band. -/
def State.binOffset (s : State) (p : Nat) (b : SpecBin) : Option Nat :=
  let c := s.pointHz p
  let h := s.halfBand
  if b.hi + h ≤ c then some (c - h - b.hi) else if c + h ≤ b.lo then some (b.lo - (c + h)) else none

/-- The limit in dB below the total probe power at an offset: that of the valid entry with the largest OFS_KHZ within it, the
stricter one of two. -/
def State.maskLimit (s : State) (offset : Nat) : Option Nat :=
  ((((List.range 8).filter fun m => s.on (F.PROBE_MASK_VALID m) && decide (s.rd (F.PROBE_MASK_OFS_KHZ m) * 1000 ≤ offset)).map
    fun m => s.rd (F.PROBE_MASK_OFS_KHZ m) * 256 + s.rd (F.PROBE_MASK_LIMIT_DB m)).max?).map (· % 256)

/-- A bin within 30.72 MHz of the point is judged in the close-in spectrum, the others in the wideband one, with every bin at
1 MHz or more from the band edge. -/
def State.judged (s : State) (p : Nat) (b : SpecBin) (offset : Nat) : Bool :=
  let c := s.pointHz p
  let near := decide (c ≤ b.lo + 30720000) && decide (b.hi ≤ c + 30720000)
  if b.close then near else !near || decide (1000000 ≤ offset)

/-- A judged bin exceeds its limit. -/
def State.overMask (s : State) (p : Nat) (b : SpecBin) : Bool :=
  match s.binOffset p b with
  | some o => s.judged p b o && (s.maskLimit o).any fun l => decide (-4 * (l : Int) < b.level)
  | none => false

/-- A calibration of R532 ends with a result. -/
def State.endCal (s : State) (result : Nat) : State :=
  if s.probe.cal then
    { (s.wr F.CASC_CAL_STAT_RESULT result).wr F.CASC_CAL_CTRL_GO 0 with probe := { s.probe with cal := false } }
  else s

/-- The command is over: the output is muted, and Transmit → Receive follows (R484). A Receive → Transmit that runs completes
first (R75). -/
def State.probeOff (s : State) : State :=
  let s := ((((s.wr F.PROBE_CMD_GO 0).wr F.PROBE_CMD_ABORT 0).wr F.PROBE_STAT_STATE 0).wr F.PROBE_STAT_LOCKED 0)
  if s.radio = 4 ∧ s.pwr.trans = none then s.startTrans .txToRx else s

/-- Every point has its result: PROBE_DONE (R484). -/
def State.probeDone (s : State) : State :=
  (s.probeOff.raise .probe C.LINK_PROBE_DONE).endCal 2

/-- The first point from `p` on that is not occupied begins its settling interval; occupied ones read STATUS 2 (R483,
R484). `n` bounds the points left. FREQ_ACT is within 1.47 Hz of the request (R478): a free value. -/
def State.nextPoint (s : State) (pow : Powers) (p : Nat) : Nat → State
  | 0 => s.probeDone
  | n + 1 =>
    let s := s.wr F.PROBE_STAT_POINT p
    if s.occupied pow p then State.nextPoint (s.wr (F.PROBE_RESULT0_STATUS p) 2) pow (p + 1) n
    else
      let (w, s) := s.take
      let s := s.wr F.PROBE_FREQ_ACT (s.pointHz p + w.toNat % 3 - 1)
      let s := (s.wr F.PROBE_STAT_STATE 2).wr F.PROBE_STAT_LOCKED 0
      if s.radio = 3 ∧ s.pwr.trans = none then s.startTrans .rxToTx else s

/-- The points from `p` on. -/
def State.pointsFrom (s : State) (pow : Powers) (p : Nat) : State := s.nextPoint pow p (s.rd F.PROBE_SWEEP_POINTS - p)

/-- A command begins in Receive (R484). -/
def State.beginSweep (s : State) (pow : Powers) : State :=
  if s.probing ∧ s.rd F.PROBE_STAT_STATE = 1 then s.pointsFrom pow 0 else s

/-- An event of R488 aborts the running command. -/
def State.probeAbort (s : State) (reason : Nat) : State :=
  if !s.probing then s
  else
    let p := s.rd F.PROBE_STAT_POINT
    let s := if 2 ≤ s.rd F.PROBE_STAT_STATE then s.wr (F.PROBE_RESULT0_STATUS p) 3 else s
    let s := ((s.wr F.PROBE_STAT_ABORT_REASON reason).sat F.PROBE_COUNT_ABORTS).raise .probe C.LINK_TX_ABORT
    s.probeOff.endCal 3

/-- Why GO is rejected (R485), with the device's own state; none where the command may run. -/
def State.probeGoReason (s : State) : Option Nat :=
  let mode := s.rd F.PROBE_CFG_MODE
  if s.probing || !s.en .probe || (decide (mode ≠ 1) && s.en .rfin (s.rd F.PROBE_CFG_INPUT)) ||
      !(decide (s.rd F.PWR_STATE_STAT_TARGET = 3) && (decide (s.radio = 3) || s.pwr.trans.isSome)) then some 4
  else if (List.range (s.rd F.PROBE_SWEEP_POINTS)).all s.pointOk then none
  else some 2

/-- GO is accepted: every RESULT word is cleared (R490), and the command begins, or is held until Receive is reached
(R486). -/
def State.probeStart (s : State) (pow : Powers) : State :=
  let s := s.each (List.range 64) fun s p =>
    (s.setReg (F.PROBE_RESULT0_STATUS p).addr 0).setReg (F.PROBE_RESULT1_FWD p).addr 0
  let s := ((s.wr F.PROBE_CMD_GO 1).wr F.PROBE_STAT_STATE 1).wr F.PROBE_STAT_POINT 0
  let s := { s with probe := { s.probe with emitted := false } }
  if s.radio = 3 ∧ s.pwr.trans = none then s.beginSweep pow else s

end Sys2Proof.Machine
end

