-- ==== Sys2Proof/Machine/PowerOps.lean ====
section
/-! DEFINITION. Radio states, fences and unfences as every block drives them (R72 to R86). -/
namespace Sys2Proof.Machine
open Sys2Proof

/-! ### Background test, as far as a loss of power reaches it (R501, R512) -/

/-- The background test runs (R501, R506, R513). -/
def State.testOn (s : State) : Bool := s.on F.MEM_CFG_TEST_EN && s.en .mem && s.ready && s.busUp && !s.memT.stop

/-- Words are written with fresh check bits: single-bit errors in them are gone (R497, R498). -/
def State.heal (s : State) (gone : Nat → Bool) : State :=
  { s with memT := { s.memT with single := s.memT.single.filter fun w => !gone w } }

/-- MEM.STAT.TEST_STATE (R515). -/
def State.showTest (s : State) : State :=
  s.wr F.MEM_STAT_TEST_STATE (if s.memT.restoring then 3 else if s.memT.test.isSome then 2 else b2n s.testOn)

/-- The test gives up the region at work, without abort or count. -/
def State.testDrop (s : State) : State :=
  { s with memT := { s.memT with test := none, restoring := false, restart := false } }.showTest

/-- A cluster whose banks lose power takes the region under test with it (R512). -/
def State.testLeaves (s : State) (c : Nat) : State :=
  match s.memT.test with
  | some (r, _) => if r / 64 < 48 ∧ r / 64 / 12 = c then s.testDrop else s
  | none => s

/-! ### Fences (R84 to R86) -/

/-- PWR.FENCE.FENCED is the OR of the three reasons (R96). -/
def State.showFence (s : State) : State :=
  s.wr F.PWR_FENCE_FENCED (s.rd F.PWR_FENCE_THERM ||| s.rd F.PWR_FENCE_FAULT ||| s.rd F.PWR_FENCE_FUSE)

/-- Clusters are fenced in one decision for Fault, or for Thermal (R84, R85): their bits set, the decision counted for each
cluster, PLACE told and one FENCED cause raised; the clocks and the power of those that were in service are taken. -/
def State.fence (s : State) (cs : List Nat) (fault : Bool) (why : Nat) : State :=
  let fresh := cs.filter fun c => !bit (s.rd F.PWR_FENCE_FENCED) c
  let f := if fault then F.PWR_FENCE_FAULT else F.PWR_FENCE_THERM
  let s := s.each cs fun s c =>
    let s := s.wr f (setBit (s.rd f) c)
    let s := if fault then s.wr (F.CLUS_STAT_FAULT_WHY c) why else s
    (if s.en .clus c then s.sat (F.CLUS_COUNT_FENCES c) else s).lostClus c
  let s := s.showFence.agcHold fresh
  let s := s.each fresh fun s c =>
    let s := s.updClu c fun k => { k with unfencing := false }
    (s.testLeaves c).clusDown c 5
  if cs.isEmpty then s else s.raise .pwr C.PWR_FENCED

/-- The access of the decision to fence or unfence, a task of the management controller (R21, R119; assumption 87). -/
def fenceTask : List (Nat × Bool) := [(F.PWR_FENCE_THERM.addr, true)]

/-- The management controller fences cluster `c` for Fault, under its rights (R21, R84). -/
def State.faultFence (s : State) (c why : Nat) : State := s.mgmtTask fenceTask fun s => s.fence [c] true why

/-- A fence reason of a cluster is lifted. When none is left, the cluster powers up, tests itself, initialises its banks
and starts (R86); below Synth On the power-up waits for Synth On. -/
def State.liftFence (s : State) (c : Nat) (fault : Bool) : State :=
  let f := if fault then F.PWR_FENCE_FAULT else F.PWR_FENCE_THERM
  let s := (s.wr f (clrBit (s.rd f) c)).showFence
  if bit (s.rd F.PWR_FENCE_FENCED) c then s
  else
    let s := s.updClu c fun k => { k with unfencing := true }
    if 2 ≤ s.radio then s.clusUp c else s.wr (F.CLUS_STAT_POWER c) 0

/-- Clusters whose unfence waits for Synth On power up with it, the others as R83 gives them. -/
def State.clusStartAll (s : State) : State :=
  (s.each (List.range 4) fun s c =>
    if (s.clu c).unfencing && decide (s.cpow c = 0) then s.clusUp c else s).clusEvalAll

/-- Every cluster loses its power at Standby (R72). -/
def State.clusStopAll (s : State) : State :=
  s.each (List.range 4) fun s c =>
    if 1 ≤ s.cpow c ∧ s.cpow c ≤ 4 then (s.testLeaves c).clusDown c 0 else s

/-! ### Target and transitions (R74 to R78) -/

/-- The resolved target state (R74). -/
def State.wantTarget (s : State) : Nat :=
  if s.on F.PWR_STATE_STAT_THERM_HOLD || !s.ready then 1
  else max (s.rd F.PWR_STATE_REQ_HOST_REQ) (s.rd F.PWR_STATE_STAT_ITIN_REQ)

/-- A change of the state reached, BUSY ended (R75). -/
def State.arrive (s : State) (st : Nat) : State :=
  { (s.wr F.PWR_STATE_STAT_STATE st).wr F.PWR_STATE_STAT_BUSY 0 with pwr := { s.pwr with trans := none } }

/-- The state reached is where the target wants it: STATE_DONE (R75). -/
def State.settle (s : State) : State :=
  if s.pwr.doneDue then { s with pwr := { s.pwr with doneDue := false } }.raise .pwr C.PWR_STATE_DONE else s

/-- Attempts to relock the root PLL end (R65), and with them a return that waits for its boundary. -/
def State.endRelock (s : State) : State :=
  { s.wr F.CLK_ROOT_STAT_ATTEMPTING 0 with clk := { s.clk with relockQual := false } }

/-- The LFSR loads the dither seed, as a lock acquisition starts (R53). -/
def State.loadSeed (s : State) : State :=
  { s.wr F.CLK_ROOT_STAT_SEED_LOADED 1 with clk := { s.clk with seed := s.rd F.CLK_DITHER_SEED_SEED } }

/-- Standby → Synth On begins with a lock acquisition of the root PLL (R53, R73). -/
def State.startSynth (s : State) : State := s.loadSeed.startTrans .standbyToSynth

/-- With no transition running, the device compares the state reached with the target and takes its next step (R75 to R78,
R81, R484). The calibrations of the inputs belong to Synth On → Receive (R73). -/
def State.advance (s : State) : State :=
  if s.pwr.trans.isSome then s
  else
    let t := s.rd F.PWR_STATE_STAT_TARGET
    match s.radio with
    | 4 => if s.probing && decide (2 ≤ s.rd F.PROBE_STAT_STATE) then s else s.startTrans .txToRx
    | 3 => if t < 3 then s.startTrans .rxToSynth else s.settle
    | 2 =>
      if t < 2 then
        (if s.on F.PWR_STATE_STAT_DRAINING then s
         else { (s.wr F.PWR_STATE_STAT_DRAINING 1) with pwr := { s.pwr with doneDue := true } })
      else
        let s := s.wr F.PWR_STATE_STAT_DRAINING 0
        if t = 2 then s.settle else if s.rootOk then (s.startTrans .synthToRx).calAll else s
    | 1 =>
      if 2 ≤ t then (if s.pwr.lockFailed then s else s.startSynth)
      else if t = 0 then s.startTrans .rcCal
      else s.settle
    | _ => s

/-- The access of a radio-state request of the management controller: PWR.STATE_STAT (R21, R119; assumption 87). -/
def stateTask : List (Nat × Bool) := [(F.PWR_STATE_STAT_ITIN_REQ.addr, true)]

/-- The target is resolved anew (R74): a probe command under a lower target is aborted (R76), relock attempts end
under a target of Standby or Sleep (R65), an RC calibration is abandoned by a higher one (R78), and the device moves on. -/
def State.retarget (s : State) : State :=
  let t := s.wantTarget
  let s := if t = s.rd F.PWR_STATE_STAT_TARGET then s
    else { s.wr F.PWR_STATE_STAT_TARGET t with pwr := { s.pwr with doneDue := true } }
  let s := if t < 3 then s.probeAbort 5 else s
  let s := if t < 2 ∧ s.clk.rootLost = true then s.endRelock else s
  let s := if s.pwr.trans = some .rcCal ∧ 0 < t then s.arrive 1 else s
  let s := if s.pwr.lockFailed && decide (t < 2) then { s with pwr := { s.pwr with lockFailed := false } } else s
  s.advance.antEvalAll

/-! ### Rates and boundaries (R58, R64, R233) -/

/-- The lanes of input `i` restart at the present rate; their engines follow (R64, R233). In a cluster that does not run,
the restart waits for the cluster's clocks; an Expert lane, which keeps the values it has in force, has nothing to wait
for. -/
def State.restartInput (s : State) (i : Nat) : State :=
  State.agcFollowAll <| s.each (List.range 24) fun s n =>
    let l := s.lane n
    if (l.run && decide (l.chain.input = i)) || (l.due && !s.laneExpert n && decide (s.rd (F.LANE_ASSIGN_INPUT n) = i)) then
      if s.clusOn (n / 6) then
        let s := s.restartLane n i
        if (s.lane n).run then s.laneApplied n l.engine else s.engCheck l.engine
      else if s.laneExpert n && !l.due then s.restartLane n i
      else s.updLane n fun l => { l with due := true }
    else s

/-- Inputs whose rate is no longer the one of `old`: RATE_CHANGED on every lane, which restarts and calibrates at a rate
other than Off, or powers down at Off (R82, R195, R233). -/
def State.followRates (s : State) (old : List Nat) : State :=
  s.each ((List.range 4).filter fun i => decide (s.rate i ≠ old.getD i 0)) fun s i =>
    let held := (List.range 24).filter fun n => (s.lane n).due && !s.laneExpert n && decide (s.rd (F.LANE_ASSIGN_INPUT n) = i) &&
      decide (s.rd (F.LANE_ASSIGN_PRESET n) ≠ 0) && !(s.lanesOn i).contains n
    let s := s.each (s.lanesOn i ++ held) fun s n => s.raise .lane C.LANE_RATE_CHANGED n
    if s.rate i = 0 then (s.downInput i).each (s.lanesOn i) State.laneSync
    else
      let s := (s.restartInput i).filtEval i
      let s := if s.calibrates ∧ s.en .rfin i then s.startCal i else s
      s.each (s.lanesOn i) State.laneSync

/-- The staged rates are taken into use together (R58), with DIV_APPLIED. -/
def State.applyRates (s : State) : State :=
  let old := (List.range 4).map s.rate
  let s := (s.setReg F.CLK_SAMP_ACTIVE_RATE0.addr (s.reg F.CLK_SAMP_STAGE_RATE0.addr)).wr F.CLK_DIV_COMMIT_COMMIT 0
  (s.raise .clk C.CLK_DIV_APPLIED).followRates old

/-- A common boundary at which domains move to the root: a held commit applies, and the dither enable (R53, R57, R58,
R64). -/
def State.ontoRoot (s : State) : State :=
  let s := { s with clk := { s.clk with dither := s.on F.CLK_ROOT_CTRL_DITHER_EN, rootLost := false, relockQual := false } }
  let s := (s.wr F.CLK_ROOT_STAT_ON_FALLBACK 0).strmEval
  if s.on F.CLK_DIV_COMMIT_COMMIT then s.applyRates else s

/-- Root-derived domains stop: engines, the FEC block at work, combining, blends and links end with them (R56, R62). -/
def State.dataHalts (s : State) : State :=
  let s := s.each engKeys State.engIdle
  let s := s.ldpcStop.each (List.range 4) fun s u => s.combOff u 1
  s.abandonBlends

/-! ### Drain (R77, R425) -/

/-- Nothing is left that the descent waits for. -/
def State.drained (s : State) : Bool :=
  s.data.envs.isEmpty && decide (s.data.verify = .idle) && s.data.waiting.isEmpty

end Sys2Proof.Machine
end

