-- ==== Sys2Proof/Machine/Casc.lean ====
section
/-! DEFINITION. Events of the Triuc links, the tunnel and exports (R516 to R534). -/
namespace Sys2Proof.Machine
open Sys2Proof

/-- The index the peer on port `p` must carry; none where no peer is accepted (R517). -/
def State.peerWant (s : State) (p : Nat) : Option Nat :=
  if p = 0 then (if s.role = 0 then none else some (s.role - 1)) else if s.role = 3 then none else some (s.role + 1)

/-- Errors counted on a port (R536). -/
def State.linkErrors (s : State) (p code crc : Nat) : State :=
  (s.sat (F.CASC_LINK_CODE_ERR p) code).sat (F.CASC_LINK_CRC_ERR p) crc

/-- The chain of up links reaches the master, or no longer does (R517). -/
def State.setChain (s : State) (up : Bool) : State :=
  if up then s.wr F.CASC_STAT_MASTER_OK 1 else s.masterLost

/-- LINK_TRAINED (R517, R519, R521): the peer's index, the round trip, the phase of the master's boundary, whether the
chain upstream reaches the master, and on the master the devices now reachable. -/
def execLinkTrained (p : Fin 2) (peer : Fin 4) (rtt : BitVec 12) (bnd : Fin 480) (chain : Bool) (reach : BitVec 4) (s : State) :
    Host.Outcome State Fault Refusal :=
  .next <| s.whenUp fun s =>
    if !s.portOn p then s
    else
      let s := s.wr (F.CASC_LINK_PEER p) peer
      if s.peerWant p ≠ some peer.val then
        if s.rd (F.CASC_LINK_STATE p) = 2 then s
        else (s.wr (F.CASC_LINK_STATE p) 3).raise .casc C.LINK_ROLE_CONFLICT
      else
        let s := (s.wr (F.CASC_LINK_RTT_NS p) rtt.toNat)
        let s := if s.rd (F.CASC_LINK_STATE p) = 2 then s
          else
            let s := ((s.wr (F.CASC_LINK_STATE p) 2).wr F.CASC_STAT_UP (setBit (s.rd F.CASC_STAT_UP) p)).raise .casc C.LINK_LINK_UP
            if s.role = 0 then s
            else
              let s := if p = 0 then s.wr F.CASC_BND_OFS bnd else s
              if s.time.casc then s else s.loseSource
        if s.role = 0 then (if p = 1 then s.showReach (reach.toNat / 2 * 2) else s)
        else if p = 0 then s.setChain chain else s

/-- LINK_DOWN (R521, R533): `code` and `crc` errors met since the last count. -/
def execLinkDown (p : Fin 2) (code crc : BitVec 8) (s : State) : Host.Outcome State Fault Refusal :=
  .next <| s.whenUp fun s =>
    let s := s.linkErrors p code.toNat crc.toNat
    if s.rd (F.CASC_LINK_STATE p) = 2 then s.linkDown p
    else if s.rd (F.CASC_LINK_STATE p) = 3 then s.wr (F.CASC_LINK_STATE p) (b2n (s.portOn p))
    else s

/-- LINK_TRAIN_RETRY (R521): the port trains once more. -/
def execLinkTrainRetry (p : Fin 2) (code crc : BitVec 8) (s : State) : Host.Outcome State Fault Refusal :=
  .next <| s.whenUp fun s =>
    if s.rd (F.CASC_LINK_STATE p) = 1 ∨ s.rd (F.CASC_LINK_STATE p) = 3 then
      (s.linkErrors p code.toNat crc.toNat).wr (F.CASC_LINK_STATE p) (b2n (s.portOn p))
    else s

/-- A tunnel packet ends (R525). -/
def State.tunnelEnd (s : State) (result refused : Nat) : State :=
  let s := (((s.wr F.CASC_TUN_STAT_BUSY 0).wr F.CASC_TUN_CMD_GO 0).wr F.CASC_TUN_STAT_RESULT result).wr
    F.CASC_TUN_STAT_REFUSED refused
  if 3 ≤ result then s.raise .casc C.LINK_TUNNEL_ERR else s

/-- TUN_CMD.GO is accepted (R524, R525). -/
def State.tunnelStart (s : State) : State :=
  let s := { s with casc := { s.casc with tries := 0 } }
  if s.reaches (s.rd F.CASC_TUN_CMD_DEV) then (s.wr F.CASC_TUN_CMD_GO 1).wr F.CASC_TUN_STAT_BUSY 1 else s.tunnelEnd 4 0

/-- TUNNEL_RETRY (R525): 20 microseconds without acknowledgement; RESULT 3 after three retries. -/
def execTunnelRetry (s : State) : Host.Outcome State Fault Refusal :=
  .next <| s.whenUp fun s =>
    if s.on F.CASC_TUN_STAT_BUSY then
      if s.casc.tries < 3 then { s with casc := { s.casc with tries := s.casc.tries + 1 } } else s.tunnelEnd 3 0
    else s

/-- TUNNEL_ACK (R525): words refused on the target, and the data of a read. -/
def execTunnelAck (refused : Fin 17) (data : List Word) (s : State) : Host.Outcome State Fault Refusal :=
  .next <| s.whenUp fun s =>
    if s.on F.CASC_TUN_STAT_BUSY then
      let s := if s.on F.CASC_TUN_CMD_WRITE then s
        else s.each (List.range (s.rd F.CASC_TUN_CMD_LEN + 1)) fun s k => s.setReg (F.CASC_TUN_DATA_WORD k).addr (data.getD k 0)
      s.tunnelEnd (if refused.val = 0 then 1 else 2) refused
    else s

/-- REMOTE_IRQ_FRAME (R526, R529): a control frame of device `d` shows its IRQ.PENDING.GROUP, and for entries of XREQ
whether they are exporting or wait. -/
def execRemoteIrqFrame (d : Fin 4) (group : BitVec 16) (xs : List (Fin 8 × Bool)) (s : State) : Host.Outcome State Fault Refusal :=
  .next <| s.whenUp fun s =>
    if s.role = 0 ∧ d.val ≠ 0 ∧ s.reaches d = true then
      let s := s.wr (F.CASC_REMOTE_GROUP d) group.toNat
      s.each xs fun s x =>
        let k := x.1.val
        let st := s.rd (F.CASC_XREQ_STATE k)
        if s.rd (F.CASC_XREQ_DEV k) = d.val ∧ 1 ≤ st ∧ st ≤ 3 then s.wr (F.CASC_XREQ_STATE k) (if x.2 then 2 else 3) else s
    else s

/-- EXPORT_LATE (R531). -/
def execExportLate (k : Fin 8) (s : State) : Host.Outcome State Fault Refusal :=
  .next <| s.whenUp fun s =>
    if s.on (F.CASC_XREQ_EN k) ∧ s.rd (F.CASC_XREQ_STATE k) = 2 then s.sat (F.CASC_XREQ_LATE k) else s

/-- EXPORT_REQUEST_RECEIVED (R529, R530): the slave serves the request with its next pass. -/
def execExportRequestReceived (k : Fin 8) (en : Bool) (hamper : Fin 128) (prio : Fin 256) (bearer : Fin 7) (freq : Word)
    (mask : BitVec 4) (branches : Fin 5) (ofs : BitVec 24) (s : State) : Host.Outcome State Fault Refusal :=
  .next <| s.whenUp fun s =>
    if s.role ≠ 0 ∧ s.on F.CASC_STAT_MASTER_OK = true then
      let s := { s with casc := { s.casc with ofs := tput 0 s.casc.ofs k (ofField 24 ofs.toNat) } }
      s.stageExport k { en := en, hamper := hamper, prio := prio, bearer := bearer, freq := freq.toNat, mask := mask.toNat,
                        branches := branches }
    else s

/-- MASTER_LOST (R533). -/
def execMasterLost (s : State) : Host.Outcome State Fault Refusal := .next <| s.whenUp fun s => s.masterLost

end Sys2Proof.Machine
end

