-- ==== Sys2Proof/Machine/Clock.lean ====
section
/-! DEFINITION. Root PLL, rates, dither and crystal drive (R52 to R68). -/
namespace Sys2Proof.Machine
open Sys2Proof

/-- A watched root PLL: locked, or about to return (R61, R66). -/
def State.rootWatched (s : State) : Bool :=
  decide (2 ≤ s.radio) && decide (s.clk.xo = .stable) && (!s.clk.rootLost || s.clk.relockQual)

/-- ROOT_LOCK_LOSS (R61, R62, R66): a loss in a return aborts it and starts again. The count of failed attempts starts again
(assumption 89). `cut`: the blocks that the Viterbi/RS units have partly decoded. -/
def execRootLockLoss (cut : List VrsCut) (s : State) : Host.Outcome State Fault Refusal :=
  .next <|
    if s.rootWatched then
      let s := ((s.raise .clk C.CLK_ROOT_LOSS).wr F.CLK_ROOT_STAT_LOCKED 0).sat F.CLK_RELOCK_COUNT_LOSSES
      let s := { s with clk := { s.clk with rootLost := true, relockQual := false, consecFail := 0, failRaised := false } }
      let s := (s.wr F.CLK_ROOT_STAT_ON_FALLBACK 1).raise .clk C.CLK_FALLBACK
      ((s.vrsCut cut).lanesSync.dataHalts.strmLoss.probeAbort 3).linksEval
    else s

/-- RELOCK_ATTEMPT (R53, R63, R65): from Synth On up, until a target of Standby or Sleep ends the attempts. -/
def execRelockAttempt (s : State) : Host.Outcome State Fault Refusal :=
  .next <|
    if decide (2 ≤ s.radio) && decide (s.clk.xo = .stable) && s.clk.rootLost && !s.clk.relockQual &&
        decide (2 ≤ s.rd F.PWR_STATE_STAT_TARGET) && decide (s.pwr.trans ≠ some .synthToStandby) then
      s.loadSeed.wr F.CLK_ROOT_STAT_ATTEMPTING 1
    else s

/-- One more attempt has failed: RELOCK_TRY, and RELOCK_FAIL once, after FAIL_THR in a row (R63). -/
def State.relockFailed (s : State) : State :=
  let n := s.clk.consecFail + 1
  let s := ({ s with clk := { s.clk with consecFail := n } }.sat F.CLK_RELOCK_COUNT_FAILED).raise .clk C.CLK_RELOCK_TRY
  if s.rd F.CLK_RELOCK_CFG_FAIL_THR ≤ n ∧ s.clk.failRaised = false then
    { (s.wr F.CLK_ROOT_STAT_FAIL_SRC 0).raise .clk C.CLK_RELOCK_FAIL_OR_RC_CAL_FAIL with clk := { s.clk with failRaised := true } }
  else s

/-- RELOCK_ATTEMPT_FAIL (R63). -/
def execRelockAttemptFail (s : State) : Host.Outcome State Fault Refusal :=
  .next <|
    if s.on F.CLK_ROOT_STAT_ATTEMPTING && decide (s.clk.xo = .stable) then
      (s.wr F.CLK_ROOT_STAT_ATTEMPTING 0).relockFailed
    else s

/-- RELOCK_QUALIFIED (R64). -/
def execRelockQualified (s : State) : Host.Outcome State Fault Refusal :=
  .next <|
    if s.on F.CLK_ROOT_STAT_ATTEMPTING && decide (s.clk.xo = .stable) then
      let s := ((s.wr F.CLK_ROOT_STAT_ATTEMPTING 0).wr F.CLK_ROOT_STAT_LOCKED 1).raise .clk C.CLK_RELOCK
      { s with clk := { s.clk with relockQual := true, consecFail := 0 } }
    else s

/-- ROOT_RETURN (R64): domains return at the common boundary, a held commit applies, inputs calibrate and lanes restart. -/
def execRootReturn (s : State) : Host.Outcome State Fault Refusal :=
  .next <|
    if s.clk.rootLost && s.clk.relockQual && decide (2 ≤ s.radio) && decide (s.clk.xo = .stable) then
      let s := s.ontoRoot.raise .clk C.CLK_RETURN
      let s := if 3 ≤ s.radio ∨ s.pwr.trans = some .synthToRx then s.calAll else s
      let s := (s.each (List.range 4) State.restartInput).lanesSync
      (s.linksEval).advance
    else s

/-- DIV_APPLY (R58). -/
def execDivApply (s : State) : Host.Outcome State Fault Refusal :=
  .next <| if s.rootOk && s.on F.CLK_DIV_COMMIT_COMMIT then s.applyRates else s

/-- DITHER_EN_APPLY (R53). -/
def execDitherEnApply (s : State) : Host.Outcome State Fault Refusal :=
  .next <|
    if s.rootOk then { s with clk := { s.clk with dither := s.on F.CLK_ROOT_CTRL_DITHER_EN } } else s

/-- XO_DRIVE_STEP (R68): one step towards DRIVE, while the oscillator runs. -/
def execXoDriveStep (s : State) : Host.Outcome State Fault Refusal :=
  .next <|
    let d := s.rd F.CLK_XO_CFG_DRIVE
    if s.clk.xo = .stable then
      { s with clk := { s.clk with drive := if s.clk.drive < d then s.clk.drive + 1 else if d < s.clk.drive then s.clk.drive - 1 else d } }
    else s

/-- RC_CALIBRATION_DONE (R59, R78): `count` XO cycles over 1024 RC cycles; then Standby → Sleep. -/
def execRcCalibrationDone (count : BitVec 24) (s : State) : Host.Outcome State Fault Refusal :=
  .next <|
    if s.pwr.trans = some .rcCal ∧ s.clk.xo = .stable then
      let n := count.toNat
      let s := if 1459200 ≤ n ∧ n ≤ 1612800 then s.wr F.CLK_RC_CAL_XO_PER_1024 n
        else (s.wr F.CLK_ROOT_STAT_FAIL_SRC 1).raise .clk C.CLK_RELOCK_FAIL_OR_RC_CAL_FAIL
      s.startTrans .standbyToSleep
    else s

end Sys2Proof.Machine
end

