-- ==== Sys2Proof/Machine/Crypto.lean ====
section
/-! DEFINITION. The cryptographic checks of R412 and R419: SHA-256 (FIPS 180-4) and ECDSA over P-256 (FIPS 186-5), whose
definitions lie outside spec/. (assumption 14) -/
namespace Sys2Proof.Machine

/-! ### SHA-256 -/

/-- The round constants. -/
def shaK : List (BitVec 32) :=
  [0x428A2F98, 0x71374491, 0xB5C0FBCF, 0xE9B5DBA5, 0x3956C25B, 0x59F111F1, 0x923F82A4, 0xAB1C5ED5] ++
  [0xD807AA98, 0x12835B01, 0x243185BE, 0x550C7DC3, 0x72BE5D74, 0x80DEB1FE, 0x9BDC06A7, 0xC19BF174] ++
  [0xE49B69C1, 0xEFBE4786, 0x0FC19DC6, 0x240CA1CC, 0x2DE92C6F, 0x4A7484AA, 0x5CB0A9DC, 0x76F988DA] ++
  [0x983E5152, 0xA831C66D, 0xB00327C8, 0xBF597FC7, 0xC6E00BF3, 0xD5A79147, 0x06CA6351, 0x14292967] ++
  [0x27B70A85, 0x2E1B2138, 0x4D2C6DFC, 0x53380D13, 0x650A7354, 0x766A0ABB, 0x81C2C92E, 0x92722C85] ++
  [0xA2BFE8A1, 0xA81A664B, 0xC24B8B70, 0xC76C51A3, 0xD192E819, 0xD6990624, 0xF40E3585, 0x106AA070] ++
  [0x19A4C116, 0x1E376C08, 0x2748774C, 0x34B0BCB5, 0x391C0CB3, 0x4ED8AA4A, 0x5B9CCA4F, 0x682E6FF3] ++
  [0x748F82EE, 0x78A5636F, 0x84C87814, 0x8CC70208, 0x90BEFFFA, 0xA4506CEB, 0xBEF9A3F7, 0xC67178F2]

/-- The initial hash value. -/
def shaInit : List (BitVec 32) := [0x6A09E667, 0xBB67AE85, 0x3C6EF372, 0xA54FF53A, 0x510E527F, 0x9B05688C, 0x1F83D9AB, 0x5BE0CD19]

def shaAt (l : List (BitVec 32)) (i : Nat) : BitVec 32 := l.getD i 0

/-- The message schedule, latest word first. -/
def shaSchedule (block : List (BitVec 32)) : List (BitVec 32) :=
  ((List.range 48).foldl (fun w _ =>
    let a := shaAt w 14
    let b := shaAt w 1
    let s0 := a.rotateRight 7 ^^^ a.rotateRight 18 ^^^ (a >>> 3)
    let s1 := b.rotateRight 17 ^^^ b.rotateRight 19 ^^^ (b >>> 10)
    (shaAt w 15 + s0 + shaAt w 6 + s1) :: w) block.reverse).reverse

/-- One round. -/
def shaRound (h : List (BitVec 32)) (kw : BitVec 32) : List (BitVec 32) :=
  let a := shaAt h 0
  let e := shaAt h 4
  let s1 := e.rotateRight 6 ^^^ e.rotateRight 11 ^^^ e.rotateRight 25
  let ch := (e &&& shaAt h 5) ^^^ (~~~e &&& shaAt h 6)
  let t1 := shaAt h 7 + s1 + ch + kw
  let s0 := a.rotateRight 2 ^^^ a.rotateRight 13 ^^^ a.rotateRight 22
  let maj := (a &&& shaAt h 1) ^^^ (a &&& shaAt h 2) ^^^ (shaAt h 1 &&& shaAt h 2)
  [t1 + (s0 + maj), a, shaAt h 1, shaAt h 2, shaAt h 3 + t1, e, shaAt h 5, shaAt h 6]

/-- One block of sixteen words. -/
def shaBlock (h : List (BitVec 32)) (block : List (BitVec 32)) : List (BitVec 32) :=
  let w := shaSchedule block
  List.zipWith (· + ·) h ((List.zipWith (· + ·) shaK w).foldl shaRound h)

/-- Big-endian words of a list of bytes. -/
def shaWords : List Nat → List (BitVec 32)
  | a :: b :: c :: d :: r => BitVec.ofNat 32 (a * 0x1000000 + b * 0x10000 + c * 0x100 + d) :: shaWords r
  | _ => []

/-- Split into blocks of sixteen words, `n` at most. -/
def shaBlocks : Nat → List (BitVec 32) → List (List (BitVec 32))
  | 0, _ => []
  | n + 1, l => l.take 16 :: shaBlocks n (l.drop 16)

/-- The `n` bytes of a number, most significant first. -/
def beBytes (n v : Nat) : List Nat := (List.range n).map fun i => v / 256 ^ (n - 1 - i) % 256

/-- The number a list of bytes spells, most significant first. -/
def beNat (l : List Nat) : Nat := l.foldl (fun n b => n * 256 + b) 0

/-- SHA-256 of a list of bytes, as a number of 256 bits. -/
def sha256 (l : List Nat) : Nat :=
  let padded := l ++ [128] ++ List.replicate ((119 - l.length % 64) % 64) 0 ++ beBytes 8 (8 * l.length)
  ((shaBlocks (padded.length / 64) (shaWords padded)).foldl shaBlock shaInit).foldl (fun n w => n * 2 ^ 32 + w.toNat) 0

/-! ### P-256 -/

def p256P : Nat := 2 ^ 256 - 2 ^ 224 + 2 ^ 192 + 2 ^ 96 - 1
def p256N : Nat := 0xFFFFFFFF00000000FFFFFFFFFFFFFFFFBCE6FAADA7179E84F3B9CAC2FC632551
def p256B : Nat := 0x5AC635D8AA3A93E7B3EBBD55769886BC651D06B0CC53B0F63BCE3C3E27D2604B
def p256G : Nat × Nat :=
  (0x6B17D1F2E12C4247F8BCE6E563A440F277037D812DEB33A0F4A13945D898C296,
   0x4FE342E2FE1A7F9B8EE7EB4A7C0F9E162BCE33576B315ECECBB6406837BF51F5)

/-- `b ^ e mod m` over the low `n` bits of `e`. -/
def powMod (m : Nat) : Nat → Nat → Nat → Nat
  | 0, _, _ => 1 % m
  | n + 1, b, e => (if e % 2 = 1 then b else 1) * powMod m n (b * b % m) (e / 2) % m

/-- Inverse modulo a prime. -/
def invMod (m a : Nat) : Nat := powMod m 256 (a % m) (m - 2)

/-- Difference modulo `m`. -/
def subMod (m a b : Nat) : Nat := (a + m - b % m) % m

/-- Sum of two points; none is the point at infinity. -/
def ecAdd : Option (Nat × Nat) → Option (Nat × Nat) → Option (Nat × Nat)
  | none, q => q
  | q, none => q
  | some (x, y), some (u, v) =>
    let m := p256P
    if x = u ∧ (y + v) % m = 0 then none
    else
      let k := if x = u then (3 * x * x + m - 3) % m * invMod m (2 * y) % m else subMod m v y * invMod m (subMod m u x) % m
      let z := subMod m (subMod m (k * k) x) u
      some (z, subMod m (k * subMod m x z) y)

/-- The low `n` bits of `k` times a point. -/
def ecMul : Nat → Nat → Option (Nat × Nat) → Option (Nat × Nat)
  | 0, _, _ => none
  | n + 1, k, q => ecAdd (if k % 2 = 1 then q else none) (ecMul n (k / 2) (ecAdd q q))

/-- The 64 bytes X then Y of a key are a point on P-256 (R419). -/
def onP256 (key : List Nat) : Bool :=
  let x := beNat (key.take 32)
  let y := beNat (key.drop 32)
  decide (key.length = 64) && decide (x < p256P) && decide (y < p256P) &&
    decide (y * y % p256P = (x * x * x + (p256P - 3) * x + p256B) % p256P)

/-- ECDSA verification of (r, s) over a hash with a public key (R412). -/
def ecdsaOk (key : List Nat) (hash r s : Nat) : Bool :=
  if r = 0 ∨ p256N ≤ r ∨ s = 0 ∨ p256N ≤ s then false
  else
    let w := invMod p256N s
    let q := some (beNat (key.take 32), beNat (key.drop 32))
    match ecAdd (ecMul 256 (hash * w % p256N) (some p256G)) (ecMul 256 (r * w % p256N) q) with
    | some (x, _) => decide (x % p256N = r)
    | none => false

end Sys2Proof.Machine
end

