-- ==== Sys2Proof/Machine/StoreOps.lean ====
section
/-! DEFINITION. Baskets, admission, notices, key slots and the envelope queue (R405 to R427). -/
namespace Sys2Proof.Machine
open Sys2Proof

/-! ### Baskets (R407 to R409) -/

/-- The store is mounted and accessed. -/
def State.mounted (s : State) : Bool := decide (s.rd F.STORE_STAT_STATE = 2)

/-- Blocks of 512 bytes of an object. -/
def Obj.blocks (o : Obj) : Nat := (o.data.length + 511) / 512

/-- Blocks of the committed objects of Basket `b`. -/
def State.usedBlocks (s : State) (b : Nat) : Nat :=
  (s.data.store.filter fun x => decide (x.basket = b)).foldl (fun n x => n + x.obj.blocks) 0

/-- QUOTA of Basket `b` in blocks. -/
def State.quotaBlocks (s : State) (b : Nat) : Nat := s.rd (F.STORE_BASKET_CFG_QUOTA_MIB b) * 2048

/-- Raise STORE and capture the first event (R428). -/
def State.storeEvent (s : State) (code b : Nat) : State :=
  let s := if s.on F.STORE_EVENT_VALID then s
    else ((s.wr F.STORE_EVENT_VALID 1).wr F.STORE_EVENT_CODE code).wr F.STORE_EVENT_BASKET b
  s.raise .store C.DATA_STORE

/-- USAGE of a Basket and the space left follow the committed objects; OVER clears when usage fits (R407, R409). -/
def State.showBasket (s : State) (b : Nat) : State :=
  let n := (s.data.store.filter fun x => decide (x.basket = b)).length
  let s := (s.wr (F.STORE_BASKET_USAGE_OBJECTS b) (min n 0x7FFF)).wr (F.STORE_BASKET_USAGE_USED_MIB b) ((s.usedBlocks b + 2047) / 2048)
  let all := s.data.store.foldl (fun n x => n + x.obj.blocks) 0
  let s := s.wr F.STORE_CAP_FREE_MIB ((s.data.capMib * 2048 - all) / 2048)
  if s.on (F.STORE_BASKET_USAGE_OVER b) ∧ s.usedBlocks b ≤ s.quotaBlocks b then
    (s.wr (F.STORE_BASKET_USAGE_OVER b) 0).storeEvent 2 b
  else s

/-- A Basket whose usage exceeds its quota enters OVER (R409). -/
def State.overBasket (s : State) (b : Nat) : State :=
  let s := s.showBasket b
  if s.quotaBlocks b < s.usedBlocks b ∧ s.on (F.STORE_BASKET_USAGE_OVER b) = false then
    (s.wr (F.STORE_BASKET_USAGE_OVER b) 1).storeEvent 1 b
  else s

/-- A Fleet Notice that is not acknowledged (R422). -/
def Stored.pending (x : Stored) : Bool :=
  !x.acked && (match x.env with | some t => decide (2 ≤ t.type) && decide (t.type ≤ 0xFFF) | none => false)

/-- The pending list, in object-number order. -/
def State.notices (s : State) : List Stored := if s.mounted then s.data.store.filter Stored.pending else []

/-- The notice registers follow the pending list; a change of head empties the window (R422). -/
def State.showNotices (s : State) : State :=
  let l := s.notices
  let s := s.wr F.DATA_NTC_STAT_PENDING l.length
  let was := if s.on F.DATA_NTC_INFO_VALID then some (s.rd F.DATA_NTC_OBJ_OBJ) else none
  let s := if was = (l.head?.map fun x => x.num) then s else s.wr F.DATA_NTC_STAT_READY 0
  match l.head?.bind fun x => x.env.map fun t => (x, t) with
  | some (x, t) =>
    let s := ((s.wr F.DATA_NTC_INFO_TYPE t.type).wr F.DATA_NTC_INFO_SLOT t.slot).wr F.DATA_NTC_INFO_VALID 1
    let s := (s.wr F.DATA_NTC_LEN_LEN (x.obj.data.length - 96)).wr F.DATA_NTC_OBJ_OBJ x.num
    (s.wr F.DATA_NTC_SEQ_HI_SEQ (t.seq / 2 ^ 32)).wr F.DATA_NTC_SEQ_LO_SEQ t.seq
  | none =>
    let s := ((s.wr F.DATA_NTC_INFO_TYPE 0).wr F.DATA_NTC_INFO_SLOT 0).wr F.DATA_NTC_INFO_VALID 0
    (((s.wr F.DATA_NTC_LEN_LEN 0).wr F.DATA_NTC_OBJ_OBJ 0).wr F.DATA_NTC_SEQ_HI_SEQ 0).wr F.DATA_NTC_SEQ_LO_SEQ 0

/-- NTC_INFO.EXPIRED: NOT_AFTER of the head has passed (R422). -/
def State.expired (s : State) : Bool :=
  match s.notices.head?.bind fun x => x.env with
  | some t => decide (t.notAfter < s.nowSec)
  | none => false

/-- Word `k` of the notice window (R422). -/
def State.noticeWord (s : State) (k : Nat) : Nat :=
  if s.on F.DATA_NTC_STAT_READY then
    match s.notices.head? with
    | some x => beNat ((List.range 4).map fun i => ((x.obj.data.drop 32).take (x.obj.data.length - 96)).getD (s.rd F.DATA_NTC_OFS + 4 * k + i) 0)
    | none => 0
  else 0

/-- Word `k` of the store's read window (R410). -/
def State.storeWord (s : State) (k : Nat) : Nat := beNat ((List.range 4).map fun i => s.data.window.getD (4 * k + i) 0)

/-- Remove committed objects of Basket `b`. -/
def State.removeObjs (s : State) (b : Nat) (gone : Stored → Bool) : State :=
  ({ s with data := { s.data with store := s.data.store.filter fun x => !(decide (x.basket = b) && gone x) } }.showBasket b).showNotices

/-- The numbers of the oldest deletable objects of a list, up to `need` blocks (R408). -/
def oldestFor (need : Nat) : List Stored → List Nat
  | [] => []
  | x :: r => if need = 0 then [] else if x.pending then oldestFor need r else x.num :: oldestFor (need - x.obj.blocks) r

/-- An object is refused: counted, and reported once after an admission (R408). -/
def State.refuseObj (s : State) (b : Nat) : State :=
  let s := s.sat F.STORE_COUNT_ADM_REFUSED
  if s.data.refused then s else { s with data := { s.data with refused := true } }.storeEvent 3 b

/-- Big-endian field of `n` bytes at an offset of an envelope (R411). -/
def Obj.field (o : Obj) (ofs n : Nat) : Nat := beNat ((o.data.drop ofs).take n)

def Obj.type (o : Obj) : Nat := o.field 6 2
def Obj.isNotice (o : Obj) : Bool := decide (2 ≤ o.type) && decide (o.type ≤ 0xFFF)

/-- The Basket an envelope goes to (R413): a Fleet Notice to the Notice Basket, a signed object to its Hamper's. -/
def State.envBasket (s : State) (o : Obj) : Option Nat :=
  let d := (s.ham o.hamper).req.dest
  if o.type = 1 then none else if o.isNotice then some (s.rd F.DATA_CFG_NOTICE_BASKET) else if bit d 18 then some (d % 16) else none

/-- Blocks of writes under way to Basket `b`, the envelope being committed included. -/
def State.writingBlocks (s : State) (b : Nat) : Nat :=
  let env := match s.data.verify, s.data.envs with
    | .commit _, o :: _ => if s.envBasket o = some b then o.blocks else 0
    | _, _ => 0
  (s.data.writes.filter fun x => decide (x.1 = b)).foldl (fun n x => n + x.2.blocks) env

/-- Whether Basket `b` admits an object, and the objects deleted for it (R408, R409, R426). `signed`: a verified
envelope. -/
def State.admits (s : State) (b : Nat) (o : Obj) (signed : Bool) : Option (List Nat) :=
  if !s.mounted || !s.en .store || !s.on (F.STORE_BASKET_CFG_EN b) || s.on (F.STORE_BASKET_USAGE_OVER b) ||
      (s.on (F.STORE_BASKET_CFG_SIGNED_ONLY b) && !signed) then none
  else
    let need := s.usedBlocks b + s.writingBlocks b + o.blocks - s.quotaBlocks b
    if need = 0 then some []
    else if s.on (F.STORE_BASKET_CFG_WRAP b) then
      let l := s.data.store.filter fun x => decide (x.basket = b)
      let gone := oldestFor need l
      let freed := (l.filter fun x => gone.contains x.num).foldl (fun n x => n + x.obj.blocks) 0
      if need ≤ freed then some gone else none
    else none

/-- An unsigned object is offered to a Basket (R408): refused, a duplicate, or admitted to be written. -/
def State.offerObj (s : State) (b : Nat) (o : Obj) : State :=
  let same (x : Obj) : Bool := decide (x.hamper = o.hamper) && decide (x.src = o.src) && decide (x.data.length = o.data.length) &&
    decide (x.crc = o.crc)
  if s.mounted && ((s.data.store.any fun x => decide (x.basket = b) && same x.obj) ||
      s.data.writes.any fun x => decide (x.1 = b) && same x.2) then
    s.bump F.DATA_COUNT0_REPEATS
  else match s.admits b o false with
    | some gone =>
      let s := s.removeObjs b fun x => gone.contains x.num
      { s with data := { s.data with writes := s.data.writes ++ [(b, o)], refused := false } }
    | none => s.refuseObj b

/-- The access of the management controller's housekeeping of the store (R21, R119; assumption 87). -/
def storeAccess : List (Nat × Bool) := [(F.STORE_CAP_FREE_MIB.addr, true)]

/-- A task of the store's housekeeping, or what abandoning it leaves (R21, R119). -/
def State.storeTask (s : State) (abandoned task : State → State) : State :=
  if (s.mgmtDenied storeAccess).isSome then abandoned (s.mgmtTask storeAccess id) else task s

/-- An object is committed: it gets the next number (R405, R410). -/
def State.commitObj (s : State) (b : Nat) (o : Obj) (env : Option EnvTag) : State :=
  let x : Stored := { num := s.data.nextNum, basket := b, obj := o, env := env, acked := false, corrupt := false, time := s.nowSec }
  let s := { s with data := { s.data with store := s.data.store ++ [x], nextNum := s.data.nextNum + 1, fails := 0 } }
  (s.overBasket b).showNotices

/-- The queue packet of an object (R401, R458). -/
def State.queueObj (s : State) (o : Obj) (signed notice : Bool) (num : Nat) : State :=
  let rec words (n : Nat) (l : List Nat) : List Nat :=
    match n with
    | 0 => []
    | n + 1 => beNat ((List.range 4).map fun i => l.getD i 0) :: words n (l.drop 4)
  let head := [o.src * 2 ^ 28 + b2n signed * 2 ^ 27 + b2n notice * 2 ^ 26 + o.bcheck * 2 ^ 24, o.data.length, o.crc, num]
  let pad := (4 - o.data.length % 4) % 4
  if (s.ham o.hamper).qIn = 0 then s else s.offer o.hamper 4 pad (head ++ words ((o.data.length + 3) / 4) o.data)

/-! ### Key slots (R418) -/

def KeySlot.init : KeySlot := { keys := [], lock := false, admin := false, revoked := false }

/-- A key slot as the device uses it: a generation word that read uncorrectable at boot is skipped. -/
def State.slot (s : State) (k : Nat) : KeySlot :=
  let x := tget KeySlot.init s.data.otp k
  { x with keys := x.keys.filter fun y => !s.data.otpBad.contains (k, y.1) }

/-- The active generation: the highest-numbered valid one. -/
def KeySlot.active (k : KeySlot) : Option (Nat × List Nat) :=
  k.keys.foldl (fun best x => match best with | none => some x | some b => if b.1 < x.1 then some x else some b) none

/-- DATA.SLOT follows the OTP. -/
def State.showSlots (s : State) : State :=
  s.each (List.range 8) fun s k =>
    let x := s.slot k
    let s := ((s.wr (F.DATA_SLOT_PROG k) (b2n x.active.isSome)).wr (F.DATA_SLOT_LOCK k) (b2n x.lock)).wr (F.DATA_SLOT_ADMIN k) (b2n x.admin)
    let s := (s.wr (F.DATA_SLOT_REVOKED k) (b2n x.revoked)).wr (F.DATA_SLOT_GEN_MAP k) (x.keys.foldl (fun m y => setBit m y.1) 0)
    s.wr (F.DATA_SLOT_GEN k) ((x.active.map (·.1)).getD 0)

/-- Sequence high-water of slot `k`, 0 until the store is mounted (R417, R429). -/
def State.highWater (s : State) (k : Nat) : Nat := if s.mounted then tget 0 s.data.hwm k else 0

/-- DATA.SEQ follows the high-water marks. -/
def State.showSeqs (s : State) : State :=
  s.each (List.range 8) fun s k =>
    (s.wr (F.DATA_SEQ_HI_SEQ k) (s.highWater k / 2 ^ 32)).wr (F.DATA_SEQ_LO_SEQ k) (s.highWater k)

/-- Change one slot of the OTP. -/
def State.updSlot (s : State) (k : Nat) (f : KeySlot → KeySlot) : State :=
  { s with data := { s.data with otp := tput KeySlot.init s.data.otp k (f (tget KeySlot.init s.data.otp k)) } }.showSlots

/-- A burn starts (R419). -/
def State.startBurn (s : State) (b : Burn) : State :=
  { s with data := { s.data with burn := some b } }.wr F.DATA_ENV_STAT_OTP_BUSY 1

/-! ### Envelopes (R411 to R417) -/

/-- The object begins with the CSE magic. -/
def Obj.isCse (o : Obj) : Bool := decide (o.data.take 4 = [0x43, 0x53, 0x45, 0x1A])

def Obj.slot (o : Obj) : Nat := o.field 5 1 % 8
def Obj.seq (o : Obj) : Nat := o.field 8 8
def Obj.notBefore (o : Obj) : Nat := o.field 0x10 6
def Obj.notAfter (o : Obj) : Nat := o.field 0x16 6
def Obj.plen (o : Obj) : Nat := o.field 0x1C 4

/-- SHA-256 of the signed part (R412). -/
def Obj.digest (o : Obj) : Nat := sha256 (o.data.take (o.data.length - 64))

/-- What a committed envelope is remembered by. -/
def Obj.tag (o : Obj) : EnvTag :=
  { slot := o.slot, type := o.type, seq := o.seq, digest := o.digest / 2 ^ 192, notAfter := o.notAfter }

/-- The next verification starts, unless a burn runs (R414, R421). -/
def State.startVerify (s : State) : State :=
  if s.en .data && decide (s.data.verify = .idle) && !s.data.envs.isEmpty && s.data.burn.isNone then
    { s with data := { s.data with verify := .running s.nowSec } }.wr F.DATA_ENV_STAT_BUSY 1
  else s

/-- The envelope at work leaves the queue with a result, and the next one starts (R414). -/
def State.endVerify (s : State) (result : Nat) : State :=
  let s := { s with data := { s.data with envs := s.data.envs.drop 1, verify := .idle } }
  let s := ((s.wr F.DATA_ENV_STAT_QUEUED s.data.envs.length).wr F.DATA_ENV_STAT_BUSY 0).wr F.DATA_ENV_STAT_LAST_RESULT result
  s.startVerify

/-- An envelope is rejected (R414): counted, captured and raised. The fields of an object too short to hold them are free
values. (assumption 1) -/
def State.rejectEnv (s : State) (o : Obj) (reason : Nat) : State :=
  let s := if reason = 7 then s.sat F.DATA_COUNT1_SIG_FAILS else s.sat F.DATA_COUNT1_REJECTS
  let s :=
    if s.on F.DATA_REJ_CAPT_VALID then s
    else
      let (a, s) := s.take
      let (hi, s) := s.take
      let (lo, s) := s.take
      let short := decide (o.data.length < 16)
      let s := ((s.wr F.DATA_REJ_CAPT_VALID 1).wr F.DATA_REJ_CAPT_REASON reason).wr F.DATA_REJ_CAPT_HAMPER o.hamper
      let s := (s.wr F.DATA_REJ_CAPT_SLOT (if short then a.toNat / 0x10000 else o.slot)).wr F.DATA_REJ_CAPT_TYPE
        (if short then a.toNat else o.type)
      (s.wr F.DATA_REJ_SEQ_HI_SEQ (if short then hi.toNat else o.seq / 2 ^ 32)).wr F.DATA_REJ_SEQ_LO_SEQ
        (if short then lo.toNat else o.seq)
  s.raise .data (if reason = 7 then C.DATA_SIG_FAIL else C.DATA_ENV_REJECT)

/-- An envelope joins the queue of sixteen, or is rejected with reason 10 (R414). -/
def State.queueEnv (s : State) (o : Obj) : State :=
  if 16 ≤ s.data.envs.length then (s.rejectEnv o 10).queueObj o false o.isNotice 0
  else
    let s := { s with data := { s.data with envs := s.data.envs ++ [o] } }
    (s.wr F.DATA_ENV_STAT_QUEUED s.data.envs.length).startVerify

/-- A complete object goes to the signature engine, or to its Basket and its queue (R401). -/
def State.sendObj (s : State) (o : Obj) : State :=
  if o.isCse then s.queueEnv o
  else
    let d := (s.ham o.hamper).req.dest
    (if bit d 18 then s.offerObj (d % 16) o else s).queueObj o false false 0

/-- A complete object waits in its assembly region while the store mounts (R404). -/
def State.placeObj (s : State) (o : Obj) : State :=
  if s.rd F.STORE_STAT_STATE = 1 then { s with data := { s.data with waiting := s.data.waiting ++ [o] } } else s.sendObj o

/-- The mount has ended: what waited goes on (R404). -/
def State.releaseWaiting (s : State) : State :=
  let l := s.data.waiting
  ({ s with data := { s.data with waiting := [] } }).each l State.sendObj

/-- An access of the eMMC succeeds: the run of failures of R403 is broken. -/
def State.emmcOk (s : State) : State := { s with data := { s.data with fails := 0 } }

end Sys2Proof.Machine
end

