-- ==== Sys2Proof/Machine/Data.lean ====
section
/-! DEFINITION. Object assembly, the signature engine, key slots and Fleet Notices (R400 to R402, R411 to R424). -/
namespace Sys2Proof.Machine
open Sys2Proof

/-! ### Object assembly (R400 to R402) -/

/-- Bytes put at an offset of an object; a gap before them reads 0 until its segment arrives. -/
def putBytes (l : List Nat) (ofs : Nat) (b : List Nat) : List Nat :=
  (l ++ List.replicate (ofs - l.length) 0).take ofs ++ b ++ l.drop (ofs + b.length)

/-- Size of the Hamper's assembly region in bytes. -/
def State.assySize (s : State) (h : Nat) : Nat := (s.ham h).aIn * 1024

/-- Discard the objects of a Hamper with the oldest last segments until `size` more bytes and one more entry fit, at most
`n` of them (R402). -/
def State.makeRoom (s : State) (h size : Nat) : Nat → State
  | 0 => s
  | n + 1 =>
    let l := s.data.assy.filter fun a => decide (a.hamper = h)
    let used := l.foldl (fun k a => k + a.data.length) 0
    if l.length < 32 ∧ used + size ≤ s.assySize h then s
    else match l.head? with
      | some a => State.makeRoom (s.dropAssy fun x => decide (x = a)) h size n
      | none => s

/-- What carries an object source (R400): MOT by DAB packet mode and DRM data packets, RDS2 files by FM, data units by
DRM, GSE by a T2-Lite GSE output. -/
def srcFits (src bearer id1 : Nat) : Bool :=
  match src with
  | 1 => decide (2 ≤ bearer ∧ bearer ≤ 4)
  | 2 => decide (bearer = 1)
  | 3 => decide (bearer = 3 ∨ bearer = 4)
  | 4 => decide (bearer = 5 ∨ bearer = 6) && decide (id1 % 2 = 1)
  | _ => false

/-- ASSY_BLOCK (R340, R400 to R402, R424): a block that carries a flag of R340 is assembled with PASS_BAD at 1 alone. -/
def execAssyBlock (h : Fin 128) (b : AssyBlock) (s : State) : Host.Outcome State Fault Refusal :=
  .next <| s.whenUp fun s =>
    let h : Nat := h
    if !s.en .data || !s.placed h || decide ((s.ham h).aIn = 0) || !srcFits b.src (s.ham h).req.bearer (s.ham h).req.id1 || (b.bad && !s.on F.FEC_OUT_CFG_PASS_BAD) then s
    else
      let mine (a : Assy) : Bool := decide (a.hamper = h) && decide (a.src = b.src) && decide (a.id = b.id.toNat)
      let old := s.data.assy.find? mine
      let s := { s with data := { s.data with assy := s.data.assy.filter fun a => !mine a } }
      if !b.intact then (s.chainBreak 2 h).sat F.DATA_COUNT2_ASSY_DROPS
      else
        let data := putBytes ((old.map fun a => a.data).getD []) b.offset (b.bytes.map BitVec.toNat)
        let size := b.announced.orElse fun _ => old.bind fun a => a.size
        if s.assySize h < data.length ∨ s.assySize h < size.getD 0 then s.sat F.DATA_COUNT2_ASSY_DROPS
        else
          let s := s.makeRoom h data.length 32
          if !b.complete then
            { s with data := { s.data with assy := s.data.assy ++
                [{ hamper := h, src := b.src, id := b.id.toNat, size := size, data := data }] } }
          else
            let o : Obj := { hamper := h, src := b.src, bcheck := b.bcheck, data := data, crc := crc32cBytes data }
            let s := if b.bcheck = 2 then s.sat F.DATA_COUNT2_ASSY_DROPS else s
            if b.bcheck = 2 ∧ s.on F.FEC_OUT_CFG_PASS_BAD = false then s else s.placeObj o

/-- ASSY_TIMEOUT (R402). -/
def execAssyTimeout (h : Fin 128) (src : Fin 5) (id : BitVec 32) (s : State) : Host.Outcome State Fault Refusal :=
  .next <| s.whenUp fun s => s.dropAssy fun a => decide (a.hamper = (h : Nat)) && decide (a.src = (src : Nat)) && decide (a.id = id.toNat)

/-! ### Verification (R414 to R417) -/

/-- The payload of a key update. -/
def Obj.target (o : Obj) : Nat := o.field 0x20 1
def Obj.action (o : Obj) : Nat := o.field 0x21 1
def Obj.nextGen (o : Obj) : Nat := o.field 0x24 1
def Obj.newKey (o : Obj) : List Nat := (o.data.drop 0x28).take 64

/-- A key update is refused (R421). -/
def State.updateBad (s : State) (o : Obj) : Bool :=
  let t := s.slot o.target
  let want := match t.active with | some (g, _) => g + 1 | none => 0
  !(s.slot o.slot).admin || decide (o.plen ≠ 72) || decide (7 < o.target) || decide (o.field 0x22 2 ≠ 0) ||
    decide (o.field 0x25 3 ≠ 0) || t.revoked || !(decide (o.action = 1) || decide (o.action = 2)) ||
    (decide (o.action = 1) && (decide (o.nextGen ≠ want) || decide (3 < o.nextGen) || !onP256 o.newKey)) ||
    (decide (o.action = 2) && o.newKey.any fun b => decide (b ≠ 0))

/-- The envelope has the form of step 1 (R411, R414). -/
def Obj.wellFormed (o : Obj) : Bool :=
  decide (96 ≤ o.data.length) && decide (o.data.length = 96 + o.plen) && decide (o.plen ≤ 65536) && decide (o.field 4 1 = 1) &&
    decide (o.field 5 1 < 8) && decide (o.type ≠ 0) && decide (o.type ≠ 0xFFFF) && decide (o.notBefore ≤ o.notAfter)

/-- A repeat of a stored envelope (R415). -/
def State.isRepeat (s : State) (o : Obj) : Bool :=
  decide (o.seq ≤ s.highWater o.slot) && s.mounted &&
    s.data.store.any fun x => x.env.any fun t => decide (t.slot = o.slot) && decide (t.seq = o.seq) && decide (t.digest = o.tag.digest)

/-- The result of steps 1 to 8, with `now` the second at the start of step 1 (R414). -/
def State.judge (s : State) (o : Obj) (now : Nat) (intact : Bool) : Nat :=
  let tol := s.rd F.DATA_CFG_TOL_S
  if !intact || !o.wellFormed then 1
  else if s.isRepeat o then 11
  else match (s.slot o.slot).active with
    | none => 2
    | some (_, key) =>
      if (s.slot o.slot).revoked then 2
      else if !s.on F.TIME_STAT_SET then 5
      else if now + tol < o.notBefore then 3
      else if o.notAfter + tol < now then 4
      else if o.seq ≤ s.highWater o.slot then 6
      else if !s.mounted then 9
      else if o.type = 1 ∧ s.updateBad o = true then 8
      else if (s.envBasket o).any fun b => !s.on (F.STORE_BASKET_CFG_EN b) then 9
      else if ecdsaOk key o.digest (o.field (0x20 + o.plen) 32) (o.field (0x40 + o.plen) 32) then 0
      else 7

/-- A verification ends in a rejection (R414, R458). -/
def State.refuseEnv (s : State) (o : Obj) (reason : Nat) : State :=
  ((s.rejectEnv o reason).queueObj o false o.isNotice 0).endVerify reason

/-- The high-water mark of the signing slot and the count of accepted envelopes (R417). -/
def State.acceptEnv (s : State) (t : EnvTag) : State :=
  ({ s with data := { s.data with hwm := tput 0 s.data.hwm t.slot t.seq } }.showSeqs).bump F.DATA_COUNT0_ACCEPTED

/-- ENVELOPE_VERIFY_DONE (R414, R415, R421, R424). -/
def execEnvelopeVerifyDone (intact : Bool) (s : State) : Host.Outcome State Fault Refusal :=
  .next <| s.whenUp fun s =>
    match s.data.verify, s.data.envs with
    | .running now, o :: _ =>
      let r := s.judge o now intact
      if r = 0 ∧ o.type = 1 ∧ s.data.burn.isSome = true then s
      else
        let s := if intact then s else s.chainBreak 3 o.hamper
        let go (s : State) : State := { s with data := { s.data with verify := .commit o.tag } }
        if r = 11 then ((s.bump F.DATA_COUNT0_REPEATS).queueObj o true o.isNotice 0).endVerify 11
        else if r ≠ 0 then s.refuseEnv o r
        else if o.type = 1 then
          (go s).startBurn (if o.action = 1 then .key o.target o.nextGen o.newKey else .revoke o.target)
        else match s.envBasket o with
          | none => go s
          | some b => match s.admits b o true with
            | some gone => go { s.removeObjs b (fun x => gone.contains x.num) with data := { (s.removeObjs b fun x => gone.contains x.num).data with refused := false } }
            | none => (s.refuseObj b).refuseEnv o 9
    | _, _ => s

/-- ENVELOPE_COMMIT (R417): the journal record and then the RPMB are written. A commit that the management controller may not
make is abandoned, and the envelope is rejected with reason 9 (R119; assumption 87). -/
def execEnvelopeCommit (s : State) : Host.Outcome State Fault Refusal :=
  .next <| s.whenUp fun s =>
    match s.data.verify, s.data.envs with
    | .commit t, o :: _ =>
      if o.type = 1 then s
      else
        let b := s.envBasket o
        let num := if b.isSome then s.data.nextNum else 0
        s.storeTask (fun s => ((s.rejectEnv o 9).queueObj o false o.isNotice 0).endVerify 9) fun s =>
          let s := match b with | some b => s.commitObj b o (some t) | none => s
          let s := s.acceptEnv t
          let s := if o.isNotice then s.raise .data C.DATA_NOTICE else s
          (s.queueObj o true o.isNotice num).endVerify 0
    | _, _ => s

/-! ### Key slots (R419, R421) -/

/-- Why a write of KEY_PROG is rejected (R419, R429). -/
def State.keyProgReason (s : State) (lvl : Nat) (w : Word) : Option Nat :=
  let k := s.slot (getBits w 10 8)
  let op := getBits w 1 0
  let key := (List.range 16).flatMap fun i => wordBytes (s.rd (F.DATA_KEY_BUF_BYTES i))
  if getBits w 31 16 ≠ 0x4F54 ∨ op = 0 then some 3
  else if lvl ≠ 0 ∨ s.data.burn.isSome = true then some 4
  else if op = 1 then
    (if k.active.isSome || k.lock || k.revoked then some 4 else if !onP256 key then some 2 else none)
  else if op = 2 then (if k.active.isSome then none else some 4)
  else (if k.lock then some 4 else none)

/-- After KEY_PROG was written: the burn starts. -/
def State.afterKeyProg (s : State) (w : Word) : State :=
  let k := getBits w 10 8
  let op := getBits w 1 0
  s.startBurn (if op = 1 then .key k 0 ((List.range 16).flatMap fun i => wordBytes (s.rd (F.DATA_KEY_BUF_BYTES i)))
    else if op = 2 then .lock k else .admin k)

/-- What a burn leaves in the OTP. -/
def State.burnt (s : State) : Burn → State
  | .key k g b =>
    let s := { s with data := { s.data with otpBad := s.data.otpBad.filter fun y => decide (y ≠ (k, g)) } }
    s.updSlot k fun x => { x with keys := (x.keys.filter fun y => decide (y.1 ≠ g)) ++ [(g, b)] }
  | .lock k => s.updSlot k fun x => { x with lock := true }
  | .admin k => s.updSlot k fun x => { x with admin := true }
  | .revoke k => s.updSlot k fun x => { x with revoked := true }

/-- OTP_BURN_DONE (R419, R421). -/
def execOtpBurnDone (s : State) : Host.Outcome State Fault Refusal :=
  .next <| s.whenUp fun s =>
    match s.data.burn with
    | none => s
    | some b =>
      let s := { s with data := { s.data with burn := none } }.wr F.DATA_ENV_STAT_OTP_BUSY 0
      let s := s.burnt b
      match s.data.verify, s.data.envs with
      | .commit t, o :: _ =>
        if t.type = 1 then
          (((s.acceptEnv t).raise .data C.DATA_KEY_UPDATE).queueObj o true false 0).endVerify 0
        else s.raise .data C.DATA_KEY_UPDATE
      | _, _ => (s.raise .data C.DATA_KEY_UPDATE).startVerify

/-! ### Fleet Notices (R422, R423) -/

/-- Why a write of NTC_ACK is rejected. -/
def State.ntcAckReason (s : State) (w : Word) : Option Nat :=
  match s.notices with
  | [] => some 4
  | x :: _ => if w.toNat = x.num then none else some 2

/-- After NTC_ACK was written with the head's number. -/
def State.afterNtcAck (s : State) (w : Word) : State :=
  let s := { s with data := { s.data with store := s.data.store.map fun (x : Stored) => if x.num = w.toNat then { x with acked := true } else x } }
  let s := s.showNotices
  if s.notices.isEmpty then s else s.raise .data C.DATA_NOTICE

/-- NOTICE_WINDOW_FILLED (R422). -/
def execNoticeWindowFilled (s : State) : Host.Outcome State Fault Refusal :=
  .next <| s.whenUp fun s => if s.on F.DATA_NTC_INFO_VALID then s.wr F.DATA_NTC_STAT_READY 1 else s

/-! ### Enable and reset of the DATA page (R426) -/

/-- Assembly and verification stop: objects in assembly, complete ones that wait there for the mount, and queued envelopes are
discarded and counted. A burn goes on. -/
def State.dataHalt (s : State) : State :=
  let s := s.dropAssy fun _ => true
  let n := s.data.envs.length + s.data.waiting.length
  let s := { s.sat F.DATA_COUNT2_ASSY_DROPS n with data := { s.data with envs := [], waiting := [], verify := .idle } }
  (s.wr F.DATA_ENV_STAT_QUEUED 0).wr F.DATA_ENV_STAT_BUSY 0

/-- After a page reset of DATA, its fields being at reset: slots, high-water marks and the notice list are shown again. -/
def State.dataPageReset (s : State) : State :=
  let s := { s with data := { s.data with assy := [], envs := [], waiting := [], verify := .idle } }
  let s := s.wr F.DATA_ENV_STAT_OTP_BUSY (b2n s.data.burn.isSome)
  (s.showSlots.showSeqs).showNotices

end Sys2Proof.Machine
end

