-- ==== Sys2Proof/Machine/Follow.lean ====
section
/-! DEFINITION. Measurements, switches, blends, audio decoding, Scan and Beacon (R353 to R375). -/
namespace Sys2Proof.Machine
open Sys2Proof

/-! ### Measurements (R353 to R355, R374) -/

/-- Input `i` covers a carrier with the filter code, zone and rate it has in force (R355). -/
def State.coversNow (s : State) (b f i : Nat) : Bool :=
  let zone2 := s.on (F.RFIN_FILT_CTRL_ZONE2 i)
  let entry := s.on (F.RFIN_FILT_CTRL_MODE i) || ((List.range 4).any fun k => s.filtCovers i k f &&
    decide (s.rd (F.RFIN_FILT_TABLE_LO_CODE i k) = s.rd (F.RFIN_FILT_CTRL_CODE i)) &&
    decide (s.on (F.RFIN_FILT_TABLE_LO_ZONE2 i k) = zone2))
  s.en .rfin i && !s.calFailed i && inZone zone2 f && entry && decide (s.rate i ≠ 0) &&
    (match needRate b f with | some need => decide (s.rate i ≤ need) | none => false)

/-- Input `i` carries a lane that a placed Hamper other than `w` holds, be it by its placement or where its measurement has taken it
(R349, R355). -/
def State.carriesHeld (s : State) (w i : Nat) : Bool :=
  (s.placedOn i).any (fun n => decide (some n ≠ s.watchLane w)) ||
    s.place.live.chains.any fun c => decide (c.use ≠ .borrow) && c.legs.any fun l => l.br.any fun b => decide (b.input = i)

/-- The input of a measurement, and the rate it needs where its settings may change (R355). -/
def State.measInput (s : State) (w b f cur : Nat) : Option (Nat × Option Nat) :=
  let mask := bitsOf 4 (s.ham w).req.mask
  if mask.contains cur && s.coversNow b f cur then some (cur, none)
  else match mask.find? (s.coversNow b f) with
    | some i => some (i, none)
    | none => mask.findSome? fun i =>
        if s.carriesHeld w i || !s.en .rfin i || s.calFailed i || !s.filtServes i f [] false then none
        else match needRate b f with
          | some need =>
            if s.isExpert .clk then (if s.rate i ≠ 0 ∧ s.rate i ≤ need then some (i, none) else none) else some (i, some need)
          | none => none

/-- The lowest free engine of the bearer's type in the cluster of Hamper `w` (R353). -/
def State.lendable (s : State) (w b : Nat) : Option Nat :=
  (s.chainOf w).bind fun c => ((s.freeEngs s.place.live c.clus b).map (engKey b)).find? fun k => (s.borrowed k).isNone

/-- Borrow an engine for the measurement of Hamper `w`, if one is free (R353, R354). It acquires from the application that leads the
lane to it (R269, R297). -/
def State.borrowFor (s : State) (w : Nat) (m : Meas) : State :=
  match s.lendable w m.bearer with
  | some k =>
    let s := (s.updWatch w fun x => { x with meas := some { m with eng := some k } }).showEngines
    s.each (s.watchLane w).toList fun s n => s.updLane n fun l => { l with due := true }
  | none => s.updWatch w fun x => { x with meas := some { m with eng := none } }

/-- Retune the lane of Hamper `w` to a carrier and begin a measurement (R353, R355). -/
def State.beginMeas (s : State) (w : Nat) (m : Meas) : State :=
  match s.watchLane w with
  | none => s
  | some n =>
    match s.measInput w m.bearer m.freq (s.rd (F.LANE_ASSIGN_INPUT n)) with
    | none => s.abandon w m
    | some (i, raise) =>
      let s := s.setLane n (some w) none i (bearerPreset m.bearer) m.freq
      let s := match raise with
        | some need =>
          let rates := (List.range 4).map fun j => if j = i ∧ (s.staged j = 0 ∨ need < s.staged j ∨ isLband m.freq) then need else s.staged j
          s.stageRates rates
        | none => s
      ((List.range 4).foldl (·.filtMeas n ·) s).borrowFor w m

/-- The candidate passes the test of R358 now and may be switched to: it is visited every second time (R353). -/
def State.hot (s : State) (w : Nat) (c : Cand) : Bool :=
  let n := (s.ham w).req.link
  (s.expected w c).isSome && !c.bad && !s.isCurrent n c && decide (1 ≤ c.run) &&
    (decide (c.bearer = s.bearerNow n) || s.on F.PLACE_FOLLOW_CFG_CROSS)

/-- The candidate of watcher `w` on a carrier. -/
def State.candAt (s : State) (w b f : Nat) : Cand :=
  ((s.watcher w).cands.find? fun c => decide (c.bearer = b) && decide (c.freq = f)).getD (Cand.mk0 b f 0)

/-- The next visit of an AF-watch Hamper: a Verify measurement that is due, else a candidate (R353, R359). -/
def State.nextVisit (s : State) (w : Nat) : Option (Meas × WatchSt) :=
  let x := s.watcher w
  let due := match (s.fol (s.ham w).req.link).sw with
    | some sw => if sw.watcher = w ∧ sw.asked = false then some sw else none
    | none => none
  let visit (c : Cand) : Meas := { bearer := c.bearer, freq := c.freq, source := c.source, eng := none, verify := false }
  match due with
  | some sw => some ({ visit (s.candAt w sw.bearer sw.freq) with verify := true }, x)
  | none =>
    match (if x.extra then x.cands.find? (s.hot w) else none) with
    | some c => some (visit c, { x with extra := false })
    | none =>
      let i := if x.next < x.cands.length then x.next else 0
      x.cands[i]?.map fun c => (visit c, { x with next := i + 1, extra := true })

/-- MEASURE_START (R353, R374): a measuring Hamper takes up its next measurement. -/
def execMeasureStart (w : Fin 128) (s : State) : Host.Outcome State Fault Refusal :=
  .next <|
    let w : Nat := w
    let q := (s.ham w).req
    if !s.measures w || !s.sampling || !s.rootOk || (s.watcher w).meas.isSome then s
    else if q.role = 2 then
      match s.nextVisit w with
      | some (m, x) => (s.updWatch w fun _ => x).beginMeas w m
      | none => s
    else
      s.beginMeas w { bearer := q.bearer, freq := (if q.role = 3 then (s.watcher w).scan else q.freq), source := 0,
                      eng := none, verify := false }

/-- MEASURE_ENGINE_RETRY (R56, R354): not while the engines have no root clock. -/
def execMeasureEngineRetry (w : Fin 128) (s : State) : Host.Outcome State Fault Refusal :=
  .next <|
    match (s.watcher w).meas with
    | some m => if m.eng.isNone && s.rootOk then s.borrowFor w m else s
    | none => s

/-- A valid result enters its candidate (R354, R358). -/
def State.noteResult (s : State) (w : Nat) (m : Meas) (q : Nat) : State :=
  let n := (s.ham w).req.link
  let pass := s.passesTest n (s.qaOf n m.bearer q)
  let now := s.elapsed
  s.updWatch w fun x => { x with cands := x.cands.map fun c =>
    if c.bearer = m.bearer ∧ c.freq = m.freq then
      { c with qual := some q, run := if pass then c.run + 1 else 0, since := if pass && decide (c.run ≠ 0) then c.since else now }
    else c }

/-- The expected identity of the carrier a measurement is on (R351). -/
def State.expectedOf (s : State) (w b f : Nat) : Option (Nat × Nat) := s.expected w (s.candAt w b f)

/-- The identity found, with its EId, equals the expected one, in which 0 accepts any that is found (R240, R351). -/
def identMatches (want : Option (Nat × Nat)) (found eid : Nat) : Bool :=
  decide (found ≠ 0) && want.any fun v => (decide (v.1 = found) || decide (v.1 = 0)) && (decide (v.2 = eid) || decide (v.2 = 0))

/-- QUAL of a measurement (R272, R310, R353): the mean over its windows or symbols, with M0 of DQPSK in DAB and of 16-QAM else; 0 for
a signal not detected. -/
def measQual (b : Nat) (r : MeasResult) : Nat :=
  if r.detected then
    meanOf (r.wins.map fun x =>
      if b = 0 then anaQual true x.1 0 else if b = 1 then anaQual false x.1 x.2 else ofdmQual x.1 (if b = 2 then 0 else 2))
  else 0

/-- The identity a measurement found: none on an AM carrier (R353). -/
def measIdent (b : Nat) (r : MeasResult) : Nat := if b = 0 then 0 else r.ident.toNat

/-- A result counts: what is not counted extends a measurement, and an analogue one needs ten windows (R353, R354). -/
def measValid (b : Nat) (r : MeasResult) : Bool := r.valid && (decide (2 ≤ b) || decide (10 ≤ r.wins.length))

/-- Count and report a completed measurement (R356). -/
def State.recordMeas (s : State) (w : Nat) (m : Meas) (r : MeasResult) : State :=
  let valid := measValid m.bearer r
  let ident := measIdent m.bearer r
  let s := if valid then s.bump F.PLACE_FOLLOW_CNT2_MEASURED else s
  let scan := decide ((s.ham w).req.role = 3)
  let ok := !scan && identMatches (s.expectedOf w m.bearer m.freq) ident r.eid.toNat
  s.offer w 3 0 (recWords 1 m.bearer valid r.detected ok (if scan then 8 else m.source) (measQual m.bearer r) 0 m.freq r.level4 r.snr4
    ident s.nowUs)

/-- MEASURE_DONE (R353, R354, R356, R358, R374). -/
def execMeasureDone (w : Fin 128) (r : MeasResult) (s : State) : Host.Outcome State Fault Refusal :=
  .next <| s.whenRoot fun s =>
    let w : Nat := w
    match (s.watcher w).meas with
    | some m =>
      if m.verify || m.eng.isNone || decide ((s.ham w).req.role = 4) then s
      else
        let s := (s.recordMeas w m r).endMeas w
        if (s.ham w).req.role = 3 then s.scanOn w
        else
          let s := if measValid m.bearer r then s.noteResult w m (measQual m.bearer r) else s
          let n := (s.ham w).req.link
          (s.showFollow n).evalSwitch n
    | none => s

/-- VERIFY_DONE (R354, R359): the PI decides between the follow request and AF_FAIL; after an invalid result the measurement is taken
again. A watcher released meanwhile does not stop the switch (R366), but cannot measure again. (assumption 127) -/
def execVerifyDone (w : Fin 128) (r : MeasResult) (s : State) : Host.Outcome State Fault Refusal :=
  .next <| s.whenRoot fun s =>
    let w : Nat := w
    match s.follow.find? (fun x => x.2.sw.any fun sw => decide (sw.watcher = w) && !sw.asked) with
    | some (n, f) =>
      match f.sw with
      | some sw =>
        let want := s.expectedOf w sw.bearer sw.freq
        let s := match (s.watcher w).meas with
          | some m => if m.verify then (s.recordMeas w m r).endMeas w else s
          | none => s
        if !r.valid && s.measures w then s
        else if r.valid && identMatches want r.ident.toNat 0 then
          (s.updFol n fun x => { x with sw := some { sw with asked := true } }).askFollow n sw.bearer sw.freq
        else ((s.holdBad sw).endSwitch n).afFail n (if r.valid && decide (r.ident ≠ 0) then 1 else 2)
      | none => s
    | none => s

/-! ### Switches and blends (R359 to R366) -/

/-- FOUND_TIMEOUT (R359): a second chain is released, a retune in place is undone. -/
def execFoundTimeout (n : Fin 128) (s : State) : Host.Outcome State Fault Refusal :=
  .next <| s.whenUp fun s =>
    match (s.fol n).sw with
    | some sw =>
      if !sw.published || decide (s.rd (F.PLACE_FOLLOW_W0_STATE n) ≠ 2) then s
      else if sw.second then (s.holdBad sw).releaseSecond n 2
      else
        let s := (s.holdBad sw).editPlan fun p => p.retune n sw.prevFreq
        let s := s.updFol n fun f => { f with holdoff := true }
        (s.endSwitch n).afFail n 2
    | none => s

/-- BAD_HOLD_EXPIRY (R352). -/
def execBadHoldExpiry (w : Fin 128) (bearer : Fin 7) (freq : Word) (s : State) : Host.Outcome State Fault Refusal :=
  .next <| s.whenUp fun s =>
    let s := s.updWatch w fun x => { x with cands := x.cands.map fun c =>
      if c.bearer = (bearer : Nat) ∧ c.freq = freq.toNat then { c with bad := false } else c }
    if (s.ham w).req.role = 2 then s.evalSwitch (s.ham w).req.link else s

/-- HOLDOFF_EXPIRY (R358, R366). -/
def execHoldoffExpiry (n : Fin 128) (s : State) : Host.Outcome State Fault Refusal :=
  .next <| s.whenUp fun s => (s.updFol n fun f => { f with holdoff := false }).evalSwitch n

/-- The offset is taken: OFFSET and the level gain. A new stream that is earlier is delayed, which becomes a standing delay with
the switch; else the old stream, which stays in force until then, is stretched (R362, R363, R365). -/
def State.takeOffset (s : State) (n : Nat) (sw : Switch) (w : AlignWin) : State :=
  let lim : Int := 10 * getBits sw.xFollow 7 0
  let sw := { sw with delay := (max 0 (-w.ofs)).toNat, oldGain := s.followGain n }
  let s := s.wr (F.PLACE_FOLLOW_W2_OFFSET n) (toField 24 w.ofs)
  let s := s.wr (F.PLACE_FOLLOW_W2_GAIN n) (toField 8 (max (-lim) (min lim w.ratio)))
  let s := s.updFol n fun f => { f with sw := some sw, relax := none }
  let old := s.rd (F.PLACE_FOLLOW_W3_STANDING n)
  (s.wr (F.PLACE_FOLLOW_W3_STANDING n) (old + (max 0 w.ofs).toNat)).wr (F.PLACE_FOLLOW_W0_STATE n) 4

/-- A stream of the blend of Hamper `n` is muted by its audio decode engine (R366, R371). -/
def State.blendMuted (s : State) (n : Nat) : Bool :=
  ((s.ham n).chain.toList ++ (s.ham n).alt.toList).any fun id => (s.adecHam n id).muted

/-- ALIGN_WINDOW (R360, R362, R366), under BLEND_CFG as the blend began: a window that gives no result, as none with muted samples
does, leaves the last result for the next one to agree with. -/
def execAlignWindow (n : Fin 128) (win : AlignWin) (s : State) : Host.Outcome State Fault Refusal :=
  .next <| s.whenUp fun s =>
    match (s.fol n).sw with
    | some sw =>
      if !sw.second || decide (s.rd (F.PLACE_FOLLOW_W0_STATE n) ≠ 3) then s
      else
        let good := !s.blendMuted n && win.peak.any (fun p => decide (getBits sw.blend 23 16 ≤ p)) && decide (win.ofs.natAbs ≤ 48 * getBits sw.blend 11 0)
        let agrees := good && sw.lastOfs.any fun o => decide ((win.ofs - o).natAbs ≤ 1)
        let sw := { sw with tries := sw.tries + 1, lastOfs := if good then some win.ofs else sw.lastOfs }
        let s := s.updFol n fun f => { f with sw := some sw }
        if agrees then s.takeOffset n sw win
        else if getBits sw.blend 15 12 ≤ sw.tries then s.releaseSecond n 3
        else s
    | none => s

/-- BLEND_DONE (R364). -/
def execBlendDone (n : Fin 128) (s : State) : Host.Outcome State Fault Refusal :=
  .next <| s.whenUp fun s =>
    if (s.fol n).sw.any (fun sw => sw.second) && decide (s.rd (F.PLACE_FOLLOW_W0_STATE n) = 4) then s.finishSwitch n true else s

/-- A standing delay is kept: the bearer in force is not the requested one, or an AF-watch Hamper of another bearer links
to the Hamper (R365). -/
def State.keepsDelay (s : State) (n : Nat) : Bool :=
  decide (s.bearerNow n ≠ (s.ham n).req.bearer) ||
    (s.watchersOf n).any fun w => decide ((s.ham w).req.bearer ≠ s.bearerNow n)

/-- STANDING_DELAY_REMOVED (R365): the delay has reached 0 and the blend region is released. -/
def execStandingDelayRemoved (n : Fin 128) (s : State) : Host.Outcome State Fault Refusal :=
  .next <| s.whenUp fun s =>
    let n : Nat := n
    if s.rd (F.PLACE_FOLLOW_W3_STANDING n) = 0 ∨ s.keepsDelay n = true ∨ (s.fol n).sw.isSome = true then s
    else (s.wr (F.PLACE_FOLLOW_W3_STANDING n) 0).editPlan fun p => p.upd n fun q => { q with blend := none }

/-! ### Audio decode engines (R369 to R372) -/

/-- The Hamper whose frame engine `e` takes next: highest PRIORITY, then round robin (R369). -/
def State.adecNext (s : State) (e : Nat) : Option Nat :=
  let hs := (s.adec.ready.filter fun x => decide (x.eng = e)).map (·.ham)
  let top := hs.foldl (fun m h => max m (s.ham h).req.prio) 0
  let l := hs.filter fun h => decide ((s.ham h).req.prio = top)
  let from_ := tget 0 s.adec.turn (256 * e + top)
  let pick (l : List Nat) : Option Nat := l.foldl (fun m h => match m with | none => some h | some g => some (min g h)) none
  (pick (l.filter fun h => decide (from_ ≤ h))).orElse fun _ => pick l

/-- Capture an event in ADEC.LAST_ERR while it holds none (R371). -/
def State.adecCapture (s : State) (code h e : Nat) : State :=
  if s.on F.ADEC_LAST_ERR_VALID then s
  else (((s.wr F.ADEC_LAST_ERR_VALID 1).wr F.ADEC_LAST_ERR_CODE code).wr F.ADEC_LAST_ERR_HAMPER h).wr F.ADEC_LAST_ERR_ENGINE e

/-- What bearer `b` carries and the engines accept (R367): Layer II in DAB, at 48 or 24 kHz, the AAC family in DAB+ and DRM, xHE-AAC in
DRM; dual channel is of Layer II, parametric stereo of AAC. What does not fit is a frame that cannot be parsed. (assumption 128) -/
def audioFits (f : AudioFrame) (b : Nat) : Bool :=
  let fmt : Nat := f.format
  let ch : Nat := f.channels
  if fmt = 1 then decide (b = 2) && (decide ((f.srIn : Nat) = 0) || decide ((f.srIn : Nat) = 2)) && decide (ch ≠ 2)
  else if fmt = 5 then (decide (b = 3) || decide (b = 4)) && decide (ch ≠ 3)
  else decide (2 ≤ fmt) && decide (2 ≤ b) && decide (b ≤ 4) && decide (ch ≠ 3)

/-- A stream is muted, or no longer: a change for a zero crossing where it supplies the sound (R371, R394). -/
def State.adecMute (s : State) (h id : Nat) (on : Bool) : State :=
  let s := s.updAdec h id fun a => { a with muted := on }
  if s.soundId h = some id then s.audChange h else s

/-- A bad frame: the last good spectrum goes on and the frame is counted, and after CONCEAL_MAX of them in a row the stream mutes (R370,
R371). -/
def State.badFrame (s : State) (e h id : Nat) (parses : Bool) : State :=
  let s := (s.bump (F.ADEC_HSTAT1_CONCEALED h)).updAdec h id fun a => { a with bad := min 15 (a.bad + 1), fade := false }
  let s :=
    if s.rd F.ADEC_CFG_CONCEAL_MAX ≤ (s.adecHam h id).bad ∧ (s.adecHam h id).muted = false then
      (((s.adecMute h id true).bump (F.ADEC_HSTAT1_MUTES h)).adecCapture 1 h e).raise .adec C.AUDIO_DEC_ERR
    else s
  if parses then s else s.adecCapture 2 h e

/-- The format of a good frame is put into force; a frame in a new format, and the first after a mute, fades in over its own length
(R371, R372). Dynamic range control acts with DRC_EN alone (R367). -/
def State.goodFrame (s : State) (h id : Nat) (f : AudioFrame) : State :=
  let a := s.adecHam h id
  let same := decide (a.format = (f.format : Nat)) && decide (a.channels = (f.channels : Nat)) && decide (a.srIn = (f.srIn : Nat))
  let s := if a.muted then s.adecMute h id false else s
  let s := s.updAdec h id fun _ =>
    { bad := 0, known := true, muted := false, fade := a.muted || !same, drc := s.on F.ADEC_CFG_DRC_EN && f.drc, format := f.format,
      channels := f.channels, srIn := f.srIn, kbps := f.kbps.toNat }
  if a.known && !same then s.raise .adec C.AUDIO_FORMAT_CHANGE else s

/-- AUDIO_FRAME_DECODE (R325, R367, R369 to R372): the frame ready for the Hamper whose turn it is. A check that the decoder made came
with it. -/
def execAudioFrameDecode (e : Fin 6) (f : AudioFrame) (s : State) : Host.Outcome State Fault Refusal :=
  .next <|
    let e : Nat := e
    match (if s.en .adec ∧ s.rootOk = true then s.adecNext e else none) with
    | none => s
    | some h =>
      let mine (x : AdecIn) : Bool := decide (x.eng = e) && decide (x.ham = h)
      match s.adec.ready.find? mine with
      | none => s
      | some x =>
        let turn := tput 0 s.adec.turn (256 * e + (s.ham h).req.prio) (h + 1)
        let s := { s with adec := { s.adec with ready := s.adec.ready.eraseP mine, turn := turn } }
        let check := x.check.orElse fun _ => f.check
        let parses := f.parses && audioFits f ((s.place.live.find x.chain).elim 0 (·.bearer))
        if check = some false ∨ parses = false ∨ (x.uncorr = true ∧ check = none) then (s.badFrame e h x.chain parses).showAdec h
        else (s.goodFrame h x.chain f).showAdec h

/-! ### Beacon (R375) -/

/-- KIND of a Beacon entry. -/
def beaconKind (b : Nat) : Nat := if b = 2 then 1 else if b = 1 then 2 else if b = 3 ∨ b = 4 then 3 else 4

/-- A held chain decodes the same carrier: its engine is Locked. -/
def State.heldCarrier (s : State) (b f : Nat) : Bool :=
  s.place.live.chains.any fun c => decide (c.use = .held) && decide (c.bearer = b) &&
    c.legs.any fun l => decide (l.freq = f) && decide (s.engState (engKey b l.eng) = 3)

/-- Entries in order of descending level. -/
def insertEntry (x : BeaconEntry) : List BeaconEntry → List BeaconEntry
  | [] => [x]
  | y :: r => if y.level4 < x.level4 then x :: y :: r else y :: insertEntry x r

/-- BEACON_PERIOD (R375): the measurement of the period ends; a header and its entries are reported. -/
def execBeaconPeriod (w : Fin 128) (r : MeasResult) (entries : List BeaconEntry) (s : State) : Host.Outcome State Fault Refusal :=
  .next <| s.whenRoot fun s =>
    let w : Nat := w
    match (s.watcher w).meas with
    | some m =>
      if m.eng.isNone || decide ((s.ham w).req.role ≠ 4) then s
      else
        let kind := beaconKind m.bearer
        let level (x : BeaconEntry) : Int := x.level4
        let top := entries.foldl (fun t x => match t with | none => some (level x) | some t => some (max t (level x))) none
        let rel : Int := 4 * s.rd F.PLACE_BEACON_CFG_MIN_REL
        let l := entries.filter fun x => match top with | some t => decide (t - rel ≤ level x) | none => false
        let l := l.foldl (fun acc x => insertEntry x acc) []
        let l := if kind = 2 then l.take 1 else l.take 255
        let known := kind ≤ 2 || s.heldCarrier m.bearer m.freq
        let entry (x : BeaconEntry) : List Nat :=
          recWords 4 m.bearer (measValid m.bearer r) r.detected false kind (measQual m.bearer r) 0 m.freq x.level4 x.snr4 (if known then x.ident.toNat else 0)
            (if kind = 2 then 0 else toField 32 x.arrival)
        let s := if measValid m.bearer r then s.bump F.PLACE_FOLLOW_CNT2_MEASURED else s
        let head := recWords 3 m.bearer (measValid m.bearer r) r.detected false 0 (measQual m.bearer r) l.length m.freq r.level4 r.snr4
          (if kind ≤ 2 then r.ident.toNat else if known then ((l.head?.map fun x => x.ident.toNat).getD 0) else 0) s.nowUs
        ((s.offer w 3 0 (head ++ l.flatMap entry)).endMeas w).raise .place C.SERVICE_BEACON
    | none => s

end Sys2Proof.Machine
end

