-- ==== Sys2Proof/Machine/MemOps.lean ====
section
/-! DEFINITION. Words of the SRAM banks: their errors, collisions and limits, and the background test (R495 to R513).
Words are numbered 32768 x bank + word, halves twice that, regions 64 x bank + region. -/
namespace Sys2Proof.Machine
open Sys2Proof

/-! ### Words (R495, R497) -/

/-- The word at byte address `a` of the SRAM window. -/
def wordOf (a : Nat) : Nat := (a - bankAddr 0) / 8

/-- Byte address of a word in the SRAM window. -/
def wordAddr (w : Nat) : Nat := bankAddr 0 + 8 * w

/-- SRAM window address at which a byte of the Hamper table window lies (R100). -/
def hamperMem (a : Nat) : Nat := bankAddr 49 + (a - 0x60000)

/-- The 32-bit half at an aligned SRAM window address; the first 64 KiB of bank 49 are the Hamper table (R100). -/
def State.half (s : State) (a : Nat) : Word :=
  if bankAddr 49 ≤ a ∧ a < bankAddr 49 + 0x10000 then s.reg (0x60000 + (a - bankAddr 49)) else s.memWord a

/-- Store a half. -/
def State.setHalf (s : State) (a : Nat) (v : Word) : State :=
  if bankAddr 49 ≤ a ∧ a < bankAddr 49 + 0x10000 then s.setReg (0x60000 + (a - bankAddr 49)) v else s.setMemWord a v

/-- Store a word of 64 bits. -/
def State.setWord64 (s : State) (w : Nat) (v : BitVec 64) : State :=
  (s.setHalf (wordAddr w) (v.setWidth 32)).setHalf (wordAddr w + 4) ((v >>> 32).setWidth 32)

/-- A word holds an uncorrectable error (R498). -/
def State.poisoned (s : State) (w : Nat) : Bool := s.memT.poison.contains (2 * w) || s.memT.poison.contains (2 * w + 1)

/-! ### Error records (R498, R500, R507) -/

/-- The first event of a kind is captured, with its port and word (R498, R500, R515). -/
def State.memCapture (s : State) (valid : Fld) (port w : Nat) : State :=
  if s.on valid then s
  else s.setReg valid.addr (BitVec.ofNat 32 (2 ^ 31 + port * 2 ^ 30 + w / 32768 * 2 ^ 24 + w % 32768))

/-- A single-bit error is corrected for its reader (R498); it stays in the word until that is written. -/
def State.noteCorr (s : State) (port w : Nat) : State :=
  let b := w / 32768
  let s := (s.sat F.MEM_COUNT_CORRECTED).memCapture F.MEM_CORR_CAPT_VALID port w
  let m := s.memT
  { s with memT := { m with corr := tput 0 m.corr b (tget 0 m.corr b + 1),
                            single := if m.single.contains w then m.single else m.single ++ [w] } }.raise .mem C.MEM_CORRECTED

/-- A limit of R507 is reached. -/
def State.errLimit (s : State) (kind bank clus : Nat) : State :=
  let s := if s.on F.MEM_LIMIT_CAPT_VALID then s
    else s.setReg F.MEM_LIMIT_CAPT_VALID.addr (BitVec.ofNat 32 (2 ^ 31 + kind * 2 ^ 30 + bank * 2 ^ 24 + clus))
  s.raise .mem C.MEM_ERR_LIMIT

/-- What an uncorrectable word of bank 49 takes with it (R508). -/
def State.loseBank49 (s : State) (w : Nat) (holds : Option Bank49) : State :=
  if w < 49 * 32768 then s
  else
    let o := (w - 49 * 32768) * 8
    let m := s.memT
    if o < 0x10000 then
      if o % 0x200 < 0x100 ∧ m.badHams.contains (o / 0x200) = false then
        { s with memT := { m with badHams := m.badHams ++ [o / 0x200] } }
      else s
    else match holds with
      | some (.itin b e) =>
        let k := 64 * b.val + e.val
        if m.badItin.contains k then s else { s with memT := { m with badItin := m.badItin ++ [k] } }
      | some (.queue n) =>
        if (s.queue n).live then
          (((s.sat F.DATA_REGION_COUNT).wr F.DATA_REGION_HAMPER n).raise .data C.DATA_REGION_LOST).loseQueue n
        else s
      | _ => s

/-- An uncorrectable word is read (R498, R507, R508): a word not among the last 16 of its cluster counts toward a fence. -/
def State.noteUncorr (s : State) (port w : Nat) (holds : Option Bank49) : State :=
  let s := ((s.sat F.MEM_COUNT_UNCORR).memCapture F.MEM_UNCORR_CAPT_VALID port w).raise .mem C.MEM_UNCORR
  if 48 * 32768 ≤ w then s.loseBank49 w holds
  else
    let c := w / 32768 / 12
    let r := tget [] s.memT.recent c
    if r.contains w then s
    else
      let n := tget 0 s.memT.uncorr c + 1
      let s := { s with memT := { s.memT with recent := tput [] s.memT.recent c ((w :: r).take 16),
                                              uncorr := tput 0 s.memT.uncorr c n } }
      if s.rd F.MEM_CFG_FENCE_COUNT ≤ n then (s.errLimit 1 0 c).faultFence c 2 else s

/-- The stored bits of a word turn out uncorrectable: it reads as stored and stays poisoned (R498). -/
def State.spoil (s : State) (w : Nat) (stored : BitVec 64) : State :=
  let s := (s.setWord64 w stored).heal (decide <| · = w)
  { s with memT := { s.memT with poison := (s.memT.poison.filter fun p => decide (p / 2 ≠ w)) ++ [2 * w, 2 * w + 1] } }

/-- What port A writes to word `w` in the cycle in which it is read (R499). -/
def portAWrite (hits : List MemHit) (w : Nat) : Option (BitVec 64) :=
  hits.findSome? fun h => if wordOf h.addr.toNat = w then (match h.kind with | .portA d => some d | _ => none) else none

/-- What port A writes to word `w` in the cycle in which port B writes it (R500). -/
def collision (hits : List MemHit) (w : Nat) : Option (BitVec 64) :=
  hits.findSome? fun h => if wordOf h.addr.toNat = w then (match h.kind with | .collide d => some d | _ => none) else none

/-- The half of a 64-bit word at byte address `a`. -/
def half64 (d : BitVec 64) (a : Nat) : Word := if a % 8 < 4 then d.setWidth 32 else (d >>> 32).setWidth 32

/-- Port A writes a whole word, which holds no error any more (R496, R498). -/
def State.putWord64 (s : State) (w : Nat) (d : BitVec 64) : State :=
  let s := (s.setWord64 w d).heal (decide <| · = w)
  { s with memT := { s.memT with poison := s.memT.poison.filter fun p => decide (p / 2 ≠ w) } }

/-- A read of a word through port `port` meets what `hits` says of it; true when the word is uncorrectable. A write of the other
port in the same cycle gives the new data (R499). -/
def State.readWord (s : State) (hits : List MemHit) (port w : Nat) : State × Bool :=
  match portAWrite hits w with
  | some d => (s.putWord64 w d, false)
  | none =>
    if s.poisoned w then (s.noteUncorr port w none, true)
    else
      match (hits.find? fun h => decide (wordOf h.addr.toNat = w) && (match h.kind with | .collide _ => false | _ => true)).map MemHit.kind with
      | some .corrected => (s.noteCorr port w, false)
      | some (.uncorrectable v holds) => ((s.spoil w v).noteUncorr port w holds, true)
      | _ => (if s.memT.single.contains w then s.noteCorr port w else s, false)

/-- A port-B write of a half: with different data written by port A to the word in the same cycle, it is discarded
(R500). -/
def State.writeHalf (s : State) (hits : List MemHit) (a : Nat) (v : Word) : State :=
  let w := wordOf a
  let t := (s.setHalf a v).heal (decide <| · = w)
  match collision hits w with
  | some d =>
    let u := s.putWord64 w d
    if u.half (wordAddr w) = t.half (wordAddr w) ∧ u.half (wordAddr w + 4) = t.half (wordAddr w + 4) then t
    else ((u.sat F.MEM_COLLIDE_COUNT_COUNT).memCapture F.MEM_COLLIDE_CAPT_VALID 1 w).raise .mem C.MEM_COLLIDE
  | none => t

/-! ### Background test (R501 to R506) -/

/-- The region under march is aborted: it is restored from the save buffer (R503). -/
def State.testAbort (s : State) : State :=
  match s.memT.test, s.memT.restoring with
  | some (r, true), false =>
    let s := s.sat F.MEM_TEST_COUNT0_ABORTS
    { s with memT := { s.memT with restoring := true, aborts := tput 0 s.memT.aborts r (tget 0 s.memT.aborts r + 1) } }.showTest
  | _, _ => s

/-- An access to a word that the test did not make (R503). -/
def State.testTouch (s : State) (w : Nat) : State :=
  match s.memT.test with
  | some (r, _) => if w / 512 = r then s.testAbort else s
  | none => s

/-- A region is in use by the data path (R501). -/
def State.regionUsed (s : State) (r : Nat) : Bool :=
  decide (r < 3072) && bit (s.place.live.usedMask (r / 768)) (r % 768)

/-- PLACE took the region under march: the march is aborted (R512). -/
def State.testYield (s : State) : State :=
  match s.memT.test with
  | some (r, _) => if s.regionUsed r then s.testAbort else s
  | none => s

/-- The test stops, or is stopped: a region under march is restored first (R506, R513). -/
def State.testHalt (s : State) : State :=
  match s.memT.test with
  | some (_, true) => s.testAbort
  | _ => s.testDrop

/-- A page reset of MEM (R513): BAD_MAP stays, the test starts again once a region under march is restored. -/
def State.memPageReset (s : State) : State :=
  let m := s.memT
  let busy := match m.test with | some (_, true) => true | _ => false
  let n := popCount 3072 ((List.range 100).foldl (fun v k => v + (s.reg (0x6800 + 4 * k)).toNat * 2 ^ (32 * k)) 0)
  let s := s.wr F.MEM_STAT_BAD_REGIONS (min 255 n)
  { s with memT := { State.reset.memT with test := if busy then m.test else none, restoring := busy, restart := busy, poison := m.poison, single := m.single,
                                           badHams := m.badHams, badItin := m.badItin } }.showTest

/-- Banks of a cluster that does not run are passed over (R501). -/
def State.skipRegions (s : State) (r : Nat) : Nat :=
  [0, 1, 2, 3].foldl (fun r c => if r / 768 = c ∧ s.cpow c ≠ 4 then 768 * (c + 1) else r) r

/-- The test goes on to the region after `r`; the last one ends the sweep (R505). -/
def State.testNext (s : State) (r : Nat) : State :=
  let good := !s.memT.failed
  let s := { s with memT := { s.memT with test := none, restoring := false, next := (r + 1) % 3200,
                                          failed := if r = 3199 then false else s.memT.failed } }
  let s := if r = 3199 then
      let s := s.bump F.MEM_TEST_COUNT0_SWEEPS
      if good then s.raise .mem C.MEM_TEST_PASS else s
    else s
  s.showTest

/-- The first failure or skip is captured (R503, R504, R515). -/
def State.testCapture (s : State) (kind r : Nat) : State :=
  if s.on F.MEM_TEST_CAPT_VALID then s
  else s.setReg F.MEM_TEST_CAPT_VALID.addr (BitVec.ofNat 32 (2 ^ 31 + kind * 2 ^ 30 + r / 64 * 2 ^ 24 + r % 64))

/-- A march of region `r` failed: a region of banks 0 to 47 is withdrawn (R504). -/
def State.testFailed (s : State) (r : Nat) : State :=
  let s := ((s.sat F.MEM_TEST_COUNT1_FAILS).testCapture 1 r).raise .mem C.MEM_TEST_FAIL
  let s := { s with memT := { s.memT with failed := true } }
  if r < 3072 then
    let f := if r % 64 < 32 then F.MEM_BAD_MAP_LO_REGIONS (r / 64) else F.MEM_BAD_MAP_HI_REGIONS (r / 64)
    if bit (s.rd f) (r % 32) then s else (s.wr f (setBit (s.rd f) (r % 32))).sat F.MEM_STAT_BAD_REGIONS
  else s

end Sys2Proof.Machine
end

