-- ==== Sys2Proof/Machine/Memory.lean ====
section
/-! DEFINITION. Events of the SRAM banks and of their background test (R498 to R507). -/
namespace Sys2Proof.Machine
open Sys2Proof

/-- SCRUB_WRITEBACK (R498): with SCRUB_EN the corrected word is written back, and reads as it did. `reader` is the port of a
reader of the data path that met the error; a window read has counted it already. -/
def execScrubWriteback (w : Fin 1638400) (reader : Option (Fin 2)) (s : State) : Host.Outcome State Fault Refusal :=
  .next <| s.whenUp fun s =>
    if s.poisoned w then s
    else
      let s := match reader with | some p => s.noteCorr p w | none => s
      if s.on F.MEM_CFG_SCRUB_EN then s.heal (decide <| · = w.val) else s

/-- TEST_SLOT (R501, R506): a march of a free region or a region of banks 48 and 49, else a read scrub. The management
controller needs its rights to the banks. -/
def execTestSlot (s : State) : Host.Outcome State Fault Refusal :=
  .next <| s.whenUp fun s =>
    if s.testOn && s.memT.test.isNone then
      let r := s.skipRegions s.memT.next
      let march := !s.regionUsed r
      if s.mayAccess 3 sramArt false && (s.mayAccess 3 sramArt true || !march) then
        let s := (s.wr F.MEM_STAT_BANK (r / 64)).wr F.MEM_STAT_REGION (r % 64)
        { s with memT := { s.memT with test := some (r, march) } }.showTest
      else
        ({ s with memT := { s.memT with stop := true } }.refuse 3 (wordAddr (512 * r)) (s.mayAccess 3 sramArt false) 0).showTest
    else s

/-- MARCH_DONE (R498, R502, R504, R505): a march or a scrub has read every word of its region; `corr` and `bad` are the
words found with errors, `fail` a march that read something else than it wrote. -/
def execMarchDone (fail : Bool) (corr : List (Fin 512)) (bad : List (Fin 512 × BitVec 64 × Option Bank49)) (s : State) :
    Host.Outcome State Fault Refusal :=
  .next <| s.whenUp fun s =>
    match s.memT.test, s.memT.restoring with
    | some (r, march), false =>
      let known := (List.range 512).filter fun i => s.poisoned (512 * r + i)
      let errs := (List.range 512).filter fun i => corr.any (·.val = i) || s.memT.single.contains (512 * r + i)
      let s := s.each errs fun s i => if known.contains i then s else s.noteCorr 1 (512 * r + i)
      let s := if march || s.on F.MEM_CFG_SCRUB_EN then s.heal (decide <| · / 512 = r) else s
      let s := s.each known fun s i => s.noteUncorr 1 (512 * r + i) none
      let s := s.each bad fun s x =>
        if known.contains x.1.val then s else (s.spoil (512 * r + x.1) x.2.1).noteUncorr 1 (512 * r + x.1) x.2.2
      if s.memT.test.isNone then s
      else
        let s := if march && fail then s.testFailed r else s
        let s := if march then { s with memT := { s.memT with aborts := tput 0 s.memT.aborts r 0 } } else s
        s.testNext r
    | _, _ => s

/-- MARCH_ABORT (R503, R512): an access to the region under march; `fail` when the march had already failed. -/
def execMarchAbort (fail : Bool) (s : State) : Host.Outcome State Fault Refusal :=
  .next <| s.whenUp fun s =>
    match s.memT.test, s.memT.restoring with
    | some (r, true), false => (if fail then s.testFailed r else s).testAbort
    | _, _ => s

/-- RESTORE_DONE (R503, R506, R513): the region is tried again in the next slot, or skipped after 16 aborts in a row. -/
def execRestoreDone (s : State) : Host.Outcome State Fault Refusal :=
  .next <| s.whenUp fun s =>
    match s.memT.test, s.memT.restoring with
    | some (r, _), true =>
      if s.memT.restart then s.testDrop
      else if 16 ≤ tget 0 s.memT.aborts r then
        (((s.sat F.MEM_TEST_COUNT1_SKIPPED).testCapture 0 r).raise .mem C.MEM_TEST_SKIP).testNext r
      else s.testDrop
    | _, _ => s

/-- CORR_WINDOW (R507): a window of 1 s of bank `b` ends. -/
def execCorrWindow (b : Fin 50) (s : State) : Host.Outcome State Fault Refusal :=
  .next <| s.whenUp fun s =>
    let n := tget 0 s.memT.corr b
    let s := { s with memT := { s.memT with corr := tput 0 s.memT.corr b 0 } }
    if s.rd F.MEM_CFG_CORR_WARN < n then s.errLimit 0 b 0 else s

/-- UNCORR_QUIET_RESET (R507): 10 s without a new uncorrectable word in cluster `c`. -/
def execUncorrQuietReset (c : Fin 4) (s : State) : Host.Outcome State Fault Refusal :=
  .next <| s.whenUp fun s => { s with memT := { s.memT with uncorr := tput 0 s.memT.uncorr c 0 } }

end Sys2Proof.Machine
end

