-- ==== Sys2Proof/Machine/Pass.lean ====
section
/-! DEFINITION. Passes of PLACE: start, publication, quality triggers and heat (R244 to R256, R508, R529). -/
namespace Sys2Proof.Machine
open Sys2Proof

/-- Follow Hampers with a request word of bank 49 that is poisoned: a commit after the words were rewritten clears the
mark (R508). -/
def State.cleanHams (s : State) (taken : List Nat) : State :=
  let dirty (h : Nat) : Bool := s.memT.poison.any fun p =>
    decide (49 * 65536 + 128 * h ≤ p) && decide (p < 49 * 65536 + 128 * h + 64)
  { s with memT := { s.memT with badHams := s.memT.badHams.filter fun h => !taken.contains h || dirty h } }

/-- The requests a pass works on (R245): committed Hampers, exports of a slave, and Hampers whose request cannot be read,
which count as EN 0 (R508). -/
def State.snapshot (s : State) (taken : List Nat) : Plan :=
  let p := taken.foldl (fun p h => s.takeReq p h) s.place.live
  let p := if s.en .place then p.takeExports s.casc.staged else p
  let p := s.memT.badHams.foldl (fun p h =>
    (p.release h).upd h fun q => { q with req := { q.req with en := false }, code := 0, follow := none, state := 0, reason := 0 }) p
  let p := s.validateAll (taken.filter fun h => !s.memT.badHams.contains h) p
  { p with rates := (List.range 4).map fun i =>
      if p.chains.any fun c => c.legs.any fun l => l.br.any fun b => decide (b.input = i) then s.staged i else 0 }

/-- PASS_START (R244, R245): the snapshot is taken, and the decisions on the resources available at this instant. -/
def execPassStart (s : State) : Host.Outcome State Fault Refusal :=
  .next <|
    if s.place.due && !s.place.running && s.busUp then
      let taken := if s.en .place then s.commits else []
      let s := s.cleanHams taken
      let p := s.snapshot taken
      let s := s.each taken fun s h => s.wr (F.PLACE_COMMIT_HAMPERS (h / 32)) (clrBit (s.rd (F.PLACE_COMMIT_HAMPERS (h / 32))) (h % 32))
      let live := { s.place.live with hams := s.place.live.hams.map fun x => (x.1, { x.2 with follow := none }) }
      let s := { s with casc := if s.en .place then { s.casc with staged := [] } else s.casc,
                        place := { s.place with due := false, runLoss := s.place.loss, loss := false, redo := false,
                                                runHold := s.place.hold, hold := false,
                                                running := true, snap := p, live := live, taken := taken } }
      { s with place := { s.place with plan := s.solve p } }
    else s

/-- What the publication means for the switch of Hamper `n` that asked for it (R359 to R361). `bad` is the reason a
follow of this pass failed, `waits` that its request came after the snapshot. -/
def State.followServed (s : State) (n bad : Nat) (waits : Bool) : State :=
  match (s.fol n).sw with
  | none => s
  | some sw =>
    if !sw.asked || sw.published then s
    else if bad ≠ 0 then (s.endSwitch n).afFail n bad
    else
      let q := s.ham n
      if q.state = 2 ∧ q.bearer = sw.bearer ∧ q.freq = sw.freq then
        let s := s.updFol n fun f =>
          { f with sw := some { sw with published := true, second := q.alt.isSome, blend := s.reg F.PLACE_BLEND_CFG_XFADE.addr,
                                        xFollow := s.reg F.PLACE_X_FOLLOW_DIG_BIAS.addr }, holdoff := true }
        let s := (s.bump F.PLACE_FOLLOW_CNT_SWITCHES).raise .place C.SERVICE_AF_SWITCH
        if q.alt.isNone ∧ sw.bearer = 1 then s.endSwitch n
        else if s.reached n then (s.showFollow n).verified n else s.showFollow n
      else if waits then s
      else s.endSwitch n

/-- Capture a rejected commit (R242, R266). -/
def State.captReject (s : State) (p : Plan) (l : List Nat) : State :=
  match sortBy (s.before p) l with
  | h :: _ =>
    if s.on F.PLACE_REJ_CAPT_VALID then s
    else ((s.wr F.PLACE_REJ_CAPT_VALID 1).wr F.PLACE_REJ_CAPT_HAMPER h).wr F.PLACE_REJ_CAPT_CODE (p.ham h).code
  | [] => s

/-- The time a pass took, within the limit of R244: a free value in units of 10 ns. -/
def State.passTime (s : State) (p : Plan) : State :=
  let e := (p.hams.filter fun x => x.2.req.en && decide (x.1 < 128)).length
  let (w, s) := s.take
  s.wr F.PLACE_PASS_LAST_NS (w.toNat % (201 + 40 * e))

/-- The report words that a publication wrote are good again (R508). -/
def State.cleanReports (s : State) (wrote : List Nat) : State :=
  { s with memT := { s.memT with poison := s.memT.poison.filter fun p =>
      !(decide (49 * 65536 ≤ p) && decide (p < 49 * 65536 + 16384) && decide (64 ≤ p % 128) &&
        wrote.contains ((p - 49 * 65536) / 128)) } }

/-- The decisions of the pass that runs (R245): those taken on the resources available at its start, or, where a resource was
lost since, on what is available now; before the follow requests that came after its snapshot. -/
def State.decisions (s : State) : Plan := if s.place.redo then s.solve s.place.snap else s.place.plan

/-- Hampers whose follow request came after the snapshot. -/
def State.lateFollows (s : State) : List Nat := (s.place.live.hams.filter fun x => x.2.follow.isSome).map (·.1)

/-- The plan that the pass publishes: its decisions, with the later follow requests still standing. -/
def State.passPlan (s : State) : Plan :=
  s.lateFollows.foldl (fun q h => q.upd h fun x => { x with follow := (s.place.live.ham h).follow }) s.decisions

/-- Hampers whose commit the pass rejects (R242). -/
def State.passRejects (s : State) : List Nat := s.place.taken.filter fun h => decide ((s.passPlan.ham h).code ≠ 0)

/-- The pass is over: no resource counts as lost any more. -/
def State.passOver (s : State) : State :=
  { s with place := { s.place with running := false, redo := false, runLoss := false, runHold := false, fresh := false, shed := none,
                                   lostLanes := [], lostEngs := [], lostClus := [], taken := [] } }

/-- What follows the publication of the pass that ran in `o`: the capture of a rejected commit, PASS, the report words
written anew, the switches that asked, borrowing requests and the background test. -/
def State.afterPublish (s o : State) : State :=
  let s := s.captReject o.passPlan o.passRejects
  let s := (s.bump F.PLACE_PASS_COUNT).passTime o.passPlan
  let s := s.cleanReports ((List.range 128).filter fun h => decide (s.rd (F.HAMPER_RSTAT_SEQ h) ≠ o.rd (F.HAMPER_RSTAT_SEQ h)))
  let s := s.each (s.follow.map (·.1)) fun s n => s.followServed n (o.decisions.ham n).followBad (o.lateFollows.contains n)
  let s := s.xreqEval ((List.range 128).filter fun n => (o.place.live.report n).moved (o.passPlan.report n))
  s.showExports.testYield

/-- PASS_PUBLISH (R244, R245, R262): the decisions of the pass are put into force together. -/
def execPassPublish (s : State) : Host.Outcome State Fault Refusal :=
  .next <| s.whenUp fun s => if s.place.running then (s.passOver.publish s.passPlan s.passRejects s.holds).afterPublish s else s

/-- QUALITY_TRIGGER (R251): the QUAL of Hamper `n` has stayed below MIN_QUAL. -/
def execQualityTrigger (n : Fin 128) (s : State) : Host.Outcome State Fault Refusal :=
  .next <| s.whenUp fun s =>
    if s.placed n ∧ s.rd (F.HAMPER_RSTAT_QUAL n) < (s.ham n).req.minQual then s.trigger else s

/-- `a` leaves a hot cluster before `b` (R255): borrowing lanes first, then the lower priority, the higher index at equal
priority. -/
def Plan.shedBefore (p : Plan) (a b : PChain) : Bool :=
  let x := decide (a.use = .borrow)
  let y := decide (b.use = .borrow)
  if x ≠ y then x
  else if p.prio a.id ≠ p.prio b.id then decide (p.prio a.id < p.prio b.id)
  else decide ((p.top b.id).getD 0 < (p.top a.id).getD 0)

/-- Chains in the order in which they leave a hot cluster. -/
def Plan.shedOrder (p : Plan) (l : List PChain) : List PChain :=
  l.foldr (fun c acc => acc.takeWhile (p.shedBefore · c) ++ [c] ++ acc.dropWhile (p.shedBefore · c)) []

/-- HOT_SHED (R255): the next pass moves the first chain of a hot cluster that fits elsewhere without displacement. -/
def execHotShed (s : State) : Host.Outcome State Fault Refusal :=
  .next <|
    if s.on F.PLACE_X_POLICY_HOT_SHED && s.en .place && decide (2 ≤ s.radio) && s.busUp then
      let p := s.place.live
      match (p.shedOrder (p.chains.filter fun c => (s.clu c.clus).hot)).find? fun c => ((s.shedChain false p c.id).find c.id).isNone with
      | some c => ({ s with place := { s.place with shed := some c.id } }).trigger
      | none => s
    else s

end Sys2Proof.Machine
end

