-- ==== Sys2Proof/Machine/Probe.lean ====
section
/-! DEFINITION. Events of a probe command (R483 to R491, R532). -/
namespace Sys2Proof.Machine
open Sys2Proof

/-- PROBE_SETTLE_DONE (R483, R484, R491): `listen` is the power found on the target input in quarter dBm; at or above the
threshold the point is occupied, else emission begins, in Transmit. -/
def execProbeSettleDone (listen : Option Int) (pow : Powers) (s : State) : Host.Outcome State Fault Refusal :=
  .next <| s.whenUp fun s =>
    if s.probing ∧ s.rd F.PROBE_STAT_STATE = 2 then
      let p := s.rd F.PROBE_STAT_POINT
      let heard := decide (s.rd F.PROBE_CFG_MODE ≠ 1) &&
        listen.any fun l => decide (ofField 16 (s.rd F.PROBE_OCC_THR_DBM) ≤ l)
      if heard then ((s.wr (F.PROBE_RESULT0_STATUS p) 2).pointsFrom pow (p + 1)).advance
      else
        let s := if s.pwr.trans = some .rxToTx then s.arrive 4 else s
        let s := (s.wr F.PROBE_STAT_STATE 3).wr F.PROBE_STAT_LOCKED 1
        let s := if s.rd F.PROBE_CFG_MODE = 2 ∧ s.probe.emitted = false then s.wr F.PROBE_TX_TIME s.nowUs else s
        { s with probe := { s.probe with emitted := true } }
    else s

/-- The result of a point measured in the mode of the command (R490). -/
def State.putReading (s : State) (p : Nat) (r : ProbeReading) : State :=
  let s := (s.wr (F.PROBE_RESULT0_STATUS p) 1).wr (F.PROBE_RESULT1_FWD p) r.fwd.toNat
  if s.rd F.PROBE_CFG_MODE = 0 then
    ((s.wr (F.PROBE_RESULT0_RL_DB10 p) r.rl10.val).wr (F.PROBE_RESULT0_PHASE p) r.phase.toNat).wr
      (F.PROBE_RESULT1_REFL p) r.refl.toNat
  else s

/-- The offsets of a calibration (R532): the onset on each device less that on the master. -/
def State.putOnsets (s : State) (onsets : List (Fin 4 × Int)) : State :=
  let at_ (d : Nat) : Option Int := (onsets.find? fun x => decide (x.1.val = d)).map Prod.snd
  match at_ 0 with
  | none => s.endCal 2
  | some m =>
    let ds := 0 :: [1, 2, 3].filter s.reaches
    let s := s.each ds fun s d =>
      match at_ d with
      | some o => (s.wr (F.CASC_CAL_OFS_NS d) (toField 24 (o - m))).wr (F.CASC_CAL_OFS_VALID d) 1
      | none => s
    s.endCal (if ds.all fun d => (at_ d).isSome then 1 else 2)

/-- PROBE_DWELL_END (R484, R490, R532): the result of the point is written, and the next one settles. -/
def execProbeDwellEnd (r : ProbeReading) (onsets : List (Fin 4 × Int)) (pow : Powers) (s : State) :
    Host.Outcome State Fault Refusal :=
  .next <| s.whenUp fun s =>
    if s.probing ∧ s.rd F.PROBE_STAT_STATE = 3 then
      let p := s.rd F.PROBE_STAT_POINT
      let s := s.putReading p r
      let s := if s.probe.cal then s.putOnsets onsets else s
      (s.pointsFrom pow (p + 1)).advance
    else s

/-- PROBE_MASK_VIOLATION (R487, R488): a window ends in which a judged bin exceeds its limit. -/
def execProbeMaskViolation (bins : List SpecBin) (s : State) : Host.Outcome State Fault Refusal :=
  .next <| s.whenUp fun s =>
    if s.probing ∧ s.rd F.PROBE_STAT_STATE = 3 ∧ bins.any (s.overMask (s.rd F.PROBE_STAT_POINT)) = true then (s.probeAbort 1).advance else s

/-- PROBE_OCCUPANCY (R483): lane `n` reports a carrier in the band of the point being emitted. -/
def execProbeOccupancy (n : Fin 24) (pow : Powers) (s : State) : Host.Outcome State Fault Refusal :=
  .next <| s.whenUp fun s =>
    let p := s.rd F.PROBE_STAT_POINT
    if s.probing ∧ s.rd F.PROBE_STAT_STATE = 3 ∧ s.laneBlocks [(n, 32767)] p n = true then
      ((s.wr (F.PROBE_RESULT0_STATUS p) 2).pointsFrom pow (p + 1)).advance
    else s

/-- PROBE_TX_LATE (R486): the command ends, results stand. -/
def execProbeTxLate (s : State) : Host.Outcome State Fault Refusal :=
  .next <| s.whenUp fun s =>
    if s.probing ∧ (s.rd F.PROBE_STAT_STATE = 1 ∨ s.rd F.PROBE_STAT_STATE = 2) then
      (((s.probeOff.sat F.PROBE_COUNT_TX_LATE).raise .probe C.LINK_TX_LATE).endCal 2).advance
    else s

/-- PROBE_LOCK_LOSS (R488). -/
def execProbeLockLoss (s : State) : Host.Outcome State Fault Refusal :=
  .next <| s.whenUp fun s => if s.probing ∧ 2 ≤ s.rd F.PROBE_STAT_STATE then (s.probeAbort 2).advance else s

end Sys2Proof.Machine
end

