-- ==== Sys2Proof/Machine/BusView.lean ====
section
/-! DEFINITION. What a read of a register finds: stored words, and the fields that follow the state of a block. -/
namespace Sys2Proof.Machine
open Sys2Proof

/-! ### Pins -/

/-- INT_N asserted (R39, R51, R123, R124, R560): the interrupt tree outside an EDGE_GAP, the level held from Sleep entry until
Standby, or an XO that failed or starts late. -/
def State.intPin (s : State) : Bool :=
  (if s.pins.gpioSleep then s.pins.intnSleep else s.intTree && !s.intGap) || decide (s.clk.xo = .failed) || s.clk.xoLate

/-- The boot that follows a warm reset still runs, so the balls are released (R39, R160). -/
def State.warmBoot (s : State) : Bool := decide (s.boot ≠ .ready) && s.on F.SYS_BOOT_STAT_WARM

/-- ALERT_N asserted by this device (R160, R181). -/
def State.alertPin (s : State) : Bool := s.twi.alertOwed && s.on F.TWI_ALERT_CFG_EN && s.en .twi && !s.warmBoot

/-! ### PAGE_STAT.ACTIVE (R97, R102, R103, R266, R347) -/

/-- The engine with key `k` is held in the published placement, or borrowed. -/
def State.engInUse (s : State) (k : Nat) : Bool := s.place.live.engHeld k || (s.borrowed k).isSome

/-- The Viterbi/RS unit of the cluster decodes for OFDM engine `e` (R16, R239): an export holds none (R529). -/
def Plan.vrsServes (p : Plan) (e : Nat) : Bool :=
  p.chains.any fun d => usesVrs d.bearer && decide (d.use = .held) && d.legs.any fun l => decide (l.eng = e)

/-- Work is placed on a page's block, or it runs (R97, R102, R103): the pages of a cluster that is fenced or off read 0. -/
def State.pageActive (s : State) (t : PageType) (i : Nat) : Bool :=
  let p := s.place.live
  let power (c : Nat) : Bool := decide (1 ≤ s.cpow c) && decide (s.cpow c ≤ 4)
  match t with
  | .time => s.itinOn
  | .mem => s.memT.test.isSome
  | .twi => decide (s.twi.ctl = .active) || (match s.twi.recov with | .attempt _ => true | _ => false)
  | .host => !s.host.bufs.isEmpty || decide (s.rd F.HOST_IMG_STAT_STATE = 1)
  | .sched => s.sched.queues.any fun q => q.2.live
  | .strm => s.on F.STRM_STAT_SENDING
  | .store => s.on F.STORE_STAT_BUSY || !s.data.writes.isEmpty
  | .aud => s.audRun i
  | .rfin => !(s.lanesOn i).isEmpty
  | .probe => s.probing
  | .casc => decide (s.rd F.CASC_STAT_UP ≠ 0)
  | .clus => p.usesClus i && power i
  | .lane => (s.on (F.LANE_ASSIGN_PLACED i) || s.laneRunning i) && power (i / 6)
  | .ofdm => (s.engInUse (1 + i) || decide (s.engState (1 + i) ≠ 0)) && power (i / 2)
  | .ana => (s.engInUse (17 + i) || decide (s.engState (17 + i) ≠ 0)) && power (i / 4)
  | .fec => (p.chains.any fun c => decide (c.use = .held) && usesVrs c.bearer) || s.fec.ldpc.any fun u => u.2.cur.isSome || !u.2.fifo.isEmpty
  | .adec => p.hams.any fun x => x.2.adec.isSome || x.2.adecAlt.isSome
  | .place => s.place.running
  | .data => !s.data.assy.isEmpty || !s.data.envs.isEmpty || s.data.burn.isSome
  | _ => false

/-! ### Views of single blocks -/

/-- CLUS.USE (R97). -/
def State.clusUse (s : State) (c : Nat) : Nat :=
  let p := s.place.live
  let bits (n : Nat) (f : Nat → Bool) : Nat := (List.range n).foldl (fun m i => if f i then setBit m i else m) 0
  bits 6 (fun i => p.laneUsed (6 * c + i)) * 2 ^ 24 + bits 2 (fun i => s.engInUse (1 + 2 * c + i)) * 2 ^ 20 +
    bits 4 (fun i => s.engInUse (17 + 4 * c + i)) * 2 ^ 16 + b2n (s.pairOn c).isSome * 2 ^ 8 +
    bits 2 (fun i => p.vrsServes (2 * c + i))

/-- CLUS.STAT beside POWER and FAULT_WHY (R97). -/
def State.clusStat (s : State) (c : Nat) (w : Word) : Word :=
  putBits (putBits (putBits (putBits (putBits w 27 27 (b2n (s.clu c).hot)) 26 26 (b2n (bit (s.rd F.PWR_FENCE_THERM) c)))
    25 25 (b2n (bit (s.rd F.PWR_FENCE_FAULT) c))) 24 24 (b2n (bit (s.rd F.PWR_FENCE_FUSE) c))) 23 16
    (getBits (s.reg F.PWR_TEMP_CLUS0.addr) (8 * c + 7) (8 * c))

/-- Clusters that are powered down for lack of use (R83): PWR.FENCE.IDLE_OFF. -/
def State.idleOff (s : State) : Nat :=
  (List.range 4).foldl (fun m c =>
    if 2 ≤ s.radio ∧ s.cpow c = 0 ∧ s.on F.PWR_CLUS_CTRL_IDLE_OFF = true then setBit m c else m) 0

/-- PLACE.FREE0 and FREE1 (R266), live from reset on (assumption 83). -/
def State.free0 (s : State) : Nat :=
  let p := s.place.live
  let cs := (List.range 4).filter fun c => !s.fenced c
  (cs.foldl (fun n c => n + ((List.range 6).filter fun i => !p.laneUsed (6 * c + i)).length) 0) * 2 ^ 24 +
    (cs.foldl (fun n c => n + ((List.range 2).filter fun i => !p.engHeld (1 + 2 * c + i)).length) 0) * 2 ^ 16 +
    (cs.foldl (fun n c => n + ((List.range 4).filter fun i => !p.engHeld (17 + 4 * c + i)).length) 0) * 2 ^ 8 +
    (cs.filter fun c => !p.vrsServes (2 * c) && !p.vrsServes (2 * c + 1)).length
def State.free1 (s : State) : Nat :=
  let p := s.place.live
  let cs := (List.range 4).filter fun c => !s.fenced c
  ((List.range 2).filter fun u => decide (p.ldpcBound u = 0)).length * 2 ^ 30 +
    ((List.range 6).filter fun e => decide (p.adecBound e = 0)).length * 2 ^ 24 +
    4 * cs.foldl (fun n c => n + popCount 768 (s.freeMask p c)) 0

/-- Hampers in a state of R261: PLACE.STAT (R266). -/
def State.stateCount (s : State) (st : Nat) : Nat :=
  (s.place.live.hams.filter fun x => decide (x.1 < 128) && decide (x.2.state = st)).length

/-- RFIN.LEVEL (R201): minus 128 dB in Hold. -/
def State.levelWord (s : State) (i : Nat) : Word :=
  match (s.rfi i).est4 with
  | none => 0xFE00FE00
  | some e =>
    BitVec.ofNat 32 (toField 16 (e - 12 + ((Config.fullScale i).toNat % 9 : Nat)) * 2 ^ 16 + toField 16 (s.rfi i).rms4)

/-- LANE.STAT beside its stored bits (R236): INVALID and UNSETTLED are those of the latest output word; what a lane had sent counts
as invalid in a root loss (R62). -/
def State.laneStat (s : State) (n : Nat) (w : Word) : Word :=
  let l := s.lane n
  let inv := bit l.dsp.word 3 || (l.run && s.clk.rootLost)
  putBits (putBits (putBits (putBits w 4 4 (b2n (bit (s.rd (F.CAUSE_RAW .lane n)) C.LANE_SATURATED))) 3 3 (b2n inv)) 2 2
    (b2n (bit l.dsp.word 0))) 0 0 (b2n (s.laneRunning n))

/-- Word `d` of the published words of a queue, counted from its head; none beyond them (R151). -/
def State.queueWord (s : State) (n d : Nat) : Option Nat :=
  (((s.queue n).pkts.filter (·.pub)).flatMap (Packet.words n))[d]?

/-- The commit of Hamper `n` waits for a pass or is being decided, and it is not Placed: it reads as Pending (R245, R261;
assumption 73). -/
def State.pending1 (s : State) (n : Nat) : Bool :=
  !s.placed n &&
    ((bit (s.rd (F.PLACE_COMMIT_HAMPERS (n / 32))) (n % 32) && s.on (F.HAMPER_CTRL_EN n)) ||
      (s.place.running && s.place.taken.contains n && (s.place.snap.ham n).req.en))

/-! ### A page register as it reads -/

/-- The register at offset `o` of page `i` of a type, beyond the header, as initiator level `lvl` reads it. What is free reads
live (assumption 83). -/
def State.pageWord (s : State) (lvl : Nat) (t : PageType) (i o : Nat) : Word :=
  let w := s.reg (t.base i + o)
  let nat (n : Nat) : Word := BitVec.ofNat 32 n
  match t with
  | .irq =>
    if o = 0x040 then nat s.irqSummary
    else if o = 0x04C then nat (b2n s.intPin * 2 ^ 16 + s.irqPending)
    else if 0x100 ≤ o then nat (s.irqSrc ((o - 0x100) / 4))
    else w
  | .pwr => if o = 0x060 then putBits w 7 4 s.idleOff else w
  | .time =>
    if o = 0x040 then nat s.nowNs
    else if o = 0x044 then nat (tget 0 s.time.latch lvl)
    else if o = 0x048 then nat (tget 0 s.time.latch lvl / 2 ^ 32)
    else if o = 0x094 then nat (min s.itinRemain (2 ^ 32 - 1))
    else w
  | .twi =>
    if o = 0x044 then
      putBits (putBits (putBits (putBits w 4 4 (b2n (s.twi.started || decide (s.twi.ctl = .active)))) 3 3 (b2n (s.pageActive .twi 0))) 2 2 (b2n s.alertPin)) 1 1
        (b2n (!s.twi.ibr.isEmpty))
    else if o = 0x0C4 then putBits w 3 0 s.twi.ibr.length
    else w
  | .host =>
    if o = 0x044 then putBits w 17 16 s.host.bufs.length
    else w
  | .sched =>
    if o = 0x044 then putBits w 23 16 (min 255 ((List.range 128).filter fun n => s.on (F.SCHED_QSTAT0_OVER n)).length)
    else if 0xC00 ≤ o ∧ o % 8 = 0 then
      let n := (o - 0xC00) / 8
      putBits (putBits (putBits w 30 30 (b2n ((s.queue n).live && s.qOpen n))) 27 16 (((s.queue n).used + 1023) / 1024)) 15 0
        (min 0xFFFF (s.queue n).pkts.length)
    else w
  | .store =>
    if o = 0x040 then
      putBits w 27 27 (b2n (s.rootOk && decide (s.rd F.STORE_STAT_STATE ≠ 0) && decide (s.rd F.STORE_STAT_STATE ≠ 4)))
    else if 0x800 ≤ o then nat (s.storeWord ((o - 0x800) / 4))
    else w
  | .aud => if o = 0x054 ∧ s.on (F.AUD_CFG_MASTER i) then putBits w 30 30 1 else w
  | .rfin => if o = 0x048 then s.levelWord i else w
  | .clus =>
    if o = 0x040 then s.clusStat i w
    else if o = 0x044 then nat (s.clusUse i)
    else if o = 0x048 then nat (4 * popCount 768 (s.freeMask s.place.live i) * 2 ^ 16 + 4 * popCount 768 (s.withdrawn i))
    else w
  | .lane =>
    if o = 0x048 then s.laneStat i w
    else if o = 0x04C then nat (s.laneLatency i)
    else if 0x800 ≤ o then
      (if o < 0xA00 then nat ((s.lane i).bank0.tap ((o - 0x800) / 4)) else nat ((s.lane i).bank1.tap ((o - 0xA00) / 4)))
    else w
  | .adec =>
    if 0x050 ≤ o ∧ o < 0x068 then
      let e := (o - 0x050) / 4
      nat (s.place.live.adecBound e * 2 ^ 16 + s.place.live.adecLoad e)
    else w
  | .place =>
    if o = 0x040 then nat (s.stateCount 2 * 2 ^ 24 + (s.stateCount 3 + s.stateCount 6) * 2 ^ 16 + s.stateCount 5 * 2 ^ 8 + b2n s.place.due)
    else if o = 0x070 then nat s.free0
    else if o = 0x074 then nat s.free1
    else if 0x800 ≤ o ∧ o % 16 = 8 then putBits w 7 0 (s.followGain ((o - 0x800) / 16))
    else w
  | .data =>
    if o = 0x074 then putBits w 1 1 (b2n s.expired)
    else if 0x800 ≤ o then nat (s.noticeWord ((o - 0x800) / 4))
    else w
  | .hamper => if o = 0x100 ∧ s.pending1 i = true then putBits w 31 25 0x10 else w
  | .qw =>
    if o = 0x040 then nat (min 0xFFFF (s.queue i).pubPkts * 2 ^ 16 + min 0xFFFF (s.queue i).pubWords)
    else if 0x100 ≤ o then nat ((s.queueWord i ((o - 0x100) / 4)).getD 0)
    else w
  | _ => w

/-- A header register (R103). -/
def State.headWord (s : State) (t : PageType) (i o : Nat) : Word :=
  let w := s.reg (t.base i + o)
  if o = 0x008 then
    putBits (putBits w 2 2 (b2n (s.on (F.LOCK t i) || s.on (F.PERM t i)))) 0 0 (b2n (s.pageActive t i))
  else w

/-- A page's reset is in progress (R105). -/
def State.rstBusy (s : State) (t : PageType) (i : Nat) : Bool :=
  decide (t ≠ .hamper) && decide (t ≠ .qw) && s.on (F.PAGE_RST_BUSY t i)

/-- What a page reads as during its reset (R105): reset values, which in CASC.CFG depend on the role (R536). -/
def State.resetView (s : State) (t : PageType) (i o : Nat) : Word :=
  let w := resetWord (t.base i + o)
  if t = .casc ∧ o = 0x040 ∧ s.role = 0 then 0x112
  else if o = 0x004 then putBits w 1 1 1 else if o = 0x008 then putBits w 1 1 1 else w

/-- An assigned word of a page or window below the SRAM window, as it reads. -/
def State.wordAt (s : State) (lvl : Nat) (t : PageType) (i o : Nat) : Word :=
  if s.rstBusy t i then s.resetView t i o
  else if t ≠ .hamper ∧ t ≠ .qw ∧ o < 0x40 then s.headWord t i o
  else s.pageWord lvl t i o

end Sys2Proof.Machine
end

