-- ==== Sys2Proof/Machine/Itinerary.lean ====
section
/-! DEFINITION. The Itinerary: its windows, start, stop and switch (R446 to R452). -/
namespace Sys2Proof.Machine
open Sys2Proof

/-- An entry of the Itinerary is in force, or the wait before the anchor (R448). A change of its power request is a task of the
management controller (R21, R119). A poisoned entry runs as POWER 1 with
every gate closed (R508). -/
def State.itinShow (s : State) : State :=
  let b := s.itinBank
  let (wait, e, power, gates) := match s.entryAt b s.time.now with
    | none => (1, 0, 1, 0)
    | some e =>
      if s.memT.badItin.contains (64 * b + e) then (0, e, 1, 0) else (0, e, s.itinPower b e, s.itinGates b e)
  let s := (s.wr F.TIME_STAT_ITIN_WAIT wait).wr F.TIME_STAT_ENTRY e
  let s := if s.rd F.PWR_STATE_STAT_ITIN_REQ = power then s else s.mgmtTask stateTask fun s => s.wr F.PWR_STATE_STAT_ITIN_REQ power
  (s.setGates gates).retarget

/-- The Itinerary follows the time base (R446, R448, R449, R451): an entry held by a backward step stays in force until
the time base is back at the instant of the step; a pending SWITCH takes effect at a cycle boundary. -/
def State.itinEval (s : State) : State :=
  if !s.itinOn || s.time.hold.any fun h => decide (s.time.now < h) then s
  else
    let s := { s with time := { s.time with hold := none } }
    let b := s.itinBank
    let s := if s.on F.TIME_STAT_SWITCH_PEND ∧ s.time.cycle < s.cycleAt b s.time.now then
        ((s.wr F.TIME_STAT_SWITCH_PEND 0).wr F.TIME_ITIN_CTRL_SWITCH 0).wr F.TIME_STAT_ITIN_BANK (1 - b)
      else s
    let s := { s with time := { s.time with cycle := s.cycleAt s.itinBank s.time.now } }
    s.itinShow

/-- ITIN_WINDOW_START (R445, R448, R451): at a cycle boundary an armed step applies before a SWITCH. -/
def execItinWindowStart (s : State) : Host.Outcome State Fault Refusal :=
  .next <| s.whenUp fun s =>
    (if s.itinOn && decide (s.time.cycle < s.cycleAt s.itinBank s.time.now) then s.applyStep else s).itinEval

/-- RUN 1: bank START_BANK starts (R449). -/
def State.itinStart (s : State) : State :=
  let b := s.rd F.TIME_ITIN_CTRL_START_BANK
  let s := ((s.wr F.TIME_STAT_ITIN_RUN 1).wr F.TIME_STAT_ITIN_BANK b).wr F.TIME_STAT_SWITCH_PEND 0
  { s with time := { s.time with hold := none, cycle := s.cycleAt b s.time.now } }.itinShow

/-- RUN 0: the Itinerary stops at once (R449): no request, and every gate open (R464). -/
def State.itinStop (s : State) : State :=
  if !s.itinOn then s
  else
    let s := ((s.wr F.TIME_ITIN_CTRL_RUN 0).wr F.TIME_ITIN_CTRL_SWITCH 0).wr F.TIME_STAT_ITIN_RUN 0
    let s := ((s.wr F.TIME_STAT_SWITCH_PEND 0).wr F.TIME_STAT_ITIN_WAIT 0).wr F.TIME_STAT_ENTRY 0
    let s := { s with time := { s.time with hold := none } }
    ((s.wr F.PWR_STATE_STAT_ITIN_REQ 0).setGates 0xFFFF).retarget

/-- Why a word is rejected at ITIN_CTRL (R449). -/
def State.itinReason (s : State) (w : Word) : Option Nat :=
  let start := bit w.toNat 31 && !s.itinOn
  let b := if start then getBits w 8 8 else s.itinBank
  if start && (!s.on F.TIME_STAT_SET || decide (s.itinLen b = 0)) then some 4
  else if bit w.toNat 0 && decide (s.itinLen (1 - b) = 0) then some 4
  else none

/-- After a write of ITIN_CTRL: start, stop, or a SWITCH to come. A SWITCH without RUN has no active bank to act on. -/
def State.afterItinCtrl (s : State) (w : Word) : State :=
  if bit w.toNat 31 then
    let s := if s.itinOn then s else s.itinStart
    if bit w.toNat 0 then (s.wr F.TIME_STAT_SWITCH_PEND 1).wr F.TIME_ITIN_CTRL_SWITCH 1 else s
  else s.itinStop.wr F.TIME_ITIN_CTRL_SWITCH 0

/-- A TIME register that the running Itinerary uses (R449): entries, anchor and length of the active bank. -/
def State.itinHolds (s : State) (o : Nat) : Bool :=
  let b := s.itinBank
  s.itinOn && ((decide (0xA0 + 16 * b ≤ o) && decide (o < 0xB0 + 16 * b)) ||
    (decide (0x800 + 0x200 * b ≤ o) && decide (o < 0xA00 + 0x200 * b)))

end Sys2Proof.Machine
end

