-- ==== Sys2Proof/Machine/Reset.lean ====
section
/-! DEFINITION. What cold reset, warm reset and Sleep keep (R89 to R92). -/
namespace Sys2Proof.Machine
open Sys2Proof

/-- The two ways in which most registers return to their reset words at once (R90). -/
inductive Wipe where
  | warm | sleep
deriving DecidableEq, Repr

/-- The bits from `lo` to `hi` as a mask. -/
def bitMask (hi lo : Nat) : Nat := 2 ^ (hi + 1) - 2 ^ lo

/-- RWS bits of a register row. -/
def RegSpec.rwsMask (r : RegSpec) : Nat :=
  r.fields.foldl (fun m f => if f.acc = .rws then m + bitMask f.hi f.lo else m) 0

/-- Bits of the register at offset `o` of a page that are kept beside RWS fields (R90). Counts that the register tables
define "since cold reset" are kept across a warm reset, and RELOCK_COUNT across Sleep too (R68; assumption 38). -/
def keepExtra (w : Wipe) (t : PageType) (o : Nat) : Nat :=
  let all := 0xFFFFFFFF
  match t with
  | .sys =>
    if o = 0x048 ∨ o = 0x064 then all
    else if o = 0x06C then (if w = .sleep then all else bitMask 31 16 + bitMask 4 4)
    else if o = 0x068 ∧ w = .sleep then all else 0
  | .clk => if o = 0x064 then 1 else if o = 0x060 ∨ o = 0x068 then all else 0
  | .pwr =>
    if o = 0x048 ∨ o = 0x04C ∨ o = 0x060 then all
    else if o = 0x058 then bitMask 15 8
    else if o = 0x044 then bitMask 24 20 + (if w = .sleep then bitMask 19 16 else 0)
    else if o = 0x040 ∧ w = .sleep then all else 0
  | .irq => if w = .sleep ∧ (o = 0x044 ∨ o = 0x048) then all else 0
  | .prot => if w = .sleep ∧ 0x800 ≤ o then all else 0
  | .time =>
    if w = .sleep then (if o = 0x010 then 0 else all)
    else if o = 0x04C then bitMask 31 25
    else if o = 0x050 ∨ o = 0x058 ∨ (0x070 ≤ o ∧ o ≤ 0x078) ∨ 0xC00 ≤ o then all else 0
  | .mem => if 0x800 ≤ o then all else if o = 0x048 then bitMask 7 0 else 0
  | .twi => if o = 0x0B4 ∧ w = .warm then bitMask 31 24 else 0
  | .clus => if w = .warm then (if o = 0x04C then all else if o = 0x040 then bitMask 9 8 else 0) else 0
  | .casc => if w = .sleep ∧ o = 0x040 then all else 0
  | .store => if 0x080 ≤ o ∧ o < 0x100 then all else 0
  | .data => if 0x0A0 ≤ o ∧ o < 0x100 then all else 0
  | .hamper => if w = .sleep then all else 0
  | _ => 0

/-- The bits of the register at address `a` that survive (R90). -/
def keepMask (w : Wipe) (a : Nat) : Nat :=
  match pageOf a with
  | none => 0
  | some (t, _, o) =>
    if t ≠ .hamper ∧ t ≠ .qw ∧ o = 0x020 then (if w = .sleep then 3 else 2)
    else keepExtra w t o ||| (match findReg (regsOf t) o with | some (r, _) => r.rwsMask | none => 0)

/-- Registers of which the bits of `keep` stay and the others take their reset values. -/
def maskRegs (keep : Nat → Nat) (l : List (Nat × Word)) : List (Nat × Word) :=
  l.filterMap fun (x : Nat × Word) =>
    let k := keep x.1
    let r := (resetWord x.1).toNat
    let v := BitVec.ofNat 32 ((x.2.toNat &&& k) + maskSub r k)
    if v = resetWord x.1 then none else some (x.1, v)

/-- Registers after a warm reset or Sleep. -/
def wipeRegs (w : Wipe) (l : List (Nat × Word)) : List (Nat × Word) := maskRegs (keepMask w) l

/-- What no reset changes: OTP and eMMC. Writes that a cold reset cuts leave torn blocks, and a burn that a reset cuts
leaves a torn word (R405, R418). -/
def DataSt.kept (d : DataSt) (cold : Bool) : DataSt :=
  { State.reset.data with
    otp := d.otp, otpTorn := d.otpTorn || d.burn.isSome, otpBad := if cold then [] else d.otpBad, store := d.store, nextNum := d.nextNum, baskets := d.baskets,
    capMib := d.capMib, hwm := d.hwm,
    torn := d.torn || (cold && (!d.writes.isEmpty || (match d.verify with | .commit _ => true | _ => false))) }

/-- Bytes of banks 48 and 49 (R90): the rest lose their power. -/
def keepBanks (l : List Host.Cell) : List Host.Cell := l.filter fun c => decide (bankAddr 48 ≤ c.1)

/-- A cold reset: everything at its reset value, with the record of the cause as given (R71, R90, R91). -/
def State.coldReset (s : State) (pins : PinSt) (cause : Word) : State :=
  { State.reset.setReg F.SYS_RESET_CAUSE_POR.addr cause with
    pins := pins, data := s.data.kept true, free := s.free, pending := s.pending }

/-- A self-test that a cluster still owes since the cold reset stays due; the rest of its state starts anew (R90). -/
def State.keptClus (s : State) : List (Nat × ClusSt) :=
  ((List.range 4).filter fun c => !(s.clu c).testDue).map fun c => (c, { ClusSt.init with testDue := false })

/-- What a warm reset or Sleep leaves of the internal state of the blocks (R72, R90, R452, R513). -/
def State.wiped (s : State) (w : Wipe) : State :=
  let r := State.reset
  let t := s.time
  { r with
    regs := wipeRegs w s.regs
    mem := keepBanks s.mem
    boot := s.boot
    pins := { s.pins with intnSleep := false, gpioSleep := false, filtSleep := [], ppsOld := [] }
    pwr := { r.pwr with clus := s.keptClus }
    clk := { r.clk with xo := s.clk.xo, xoLate := s.clk.xoLate, xoFailDue := s.clk.xoFailDue, drive := s.clk.drive }
    time := if w = .sleep then t else { t with slew := 0, agree := 0, armed := false, set2 := none, hold := none, cycle := 0, latch := [] }
    place := if w = .sleep then { r.place with live := s.place.live } else r.place
    data := s.data.kept false
    memT :=
      if w = .sleep then
        { r.memT with poison := s.memT.poison.filter (fun p => decide (48 * 65536 ≤ p)), single := s.memT.single.filter (fun w => decide (48 * 32768 ≤ w)), badHams := s.memT.badHams, badItin := s.memT.badItin }
      else
        { r.memT with poison := s.memT.poison.filter fun p => decide (48 * 65536 ≤ p) && !(decide (49 * 65536 ≤ p) && decide (p < 49 * 65536 + 16384))
                      single := s.memT.single.filter fun w => decide (48 * 32768 ≤ w) && !(decide (49 * 32768 ≤ w) && decide (w < 49 * 32768 + 8192)) }
    free := s.free
    pending := s.pending }

/-- The time base over an interval counted in RC cycles (R443): it advances by the ratio of CLK.RC_CAL, and UNCERT grows
at 500 ppm of that time. -/
def State.coast (s : State) (rc : Nat) : State :=
  let t : Nat := rc * s.rd F.CLK_RC_CAL_XO_PER_1024 * (15625 * 10 ^ 9) / 1024
  (s.moveTime t).growUnc 500 t

/-- The rank-1 source is forgotten; the device is in Thermos when its time is set (R443). -/
def State.toThermos (s : State) : State :=
  { s with time := { s.time with prev := none, prevE := 0, run := 0, qual := false, slew := 0, agree := 0, armed := false } }

/-- A pending step does not survive a warm reset, nor a source that came over a Triuc link, which the reset takes down
(R452, R527). -/
def State.dropStep (s : State) : State :=
  let s := if s.on F.TIME_STAT_STEP_PEND then { s with time := { s.time with qual := false, run := 0 } } else s
  if s.time.casc then s.toThermos else s

/-- A warm reset takes effect (R89, R90, R92): the bit of its cause is set, and the device boots from the retained patch
image. -/
def State.warmReset (s : State) (cause : Fld) : State :=
  let s := s.dropStep.wiped .warm
  let s := { s with boot := .warm }
  let s := (s.wr cause 1).showFence
  let s := (s.each (List.range 4) fun s c => if bit (s.rd F.PWR_FENCE_FENCED) c then s.wr (F.CLUS_STAT_POWER c) 6 else s).cascRole
  s.timeEval

end Sys2Proof.Machine
end

