-- ==== Sys2Proof/Machine/Store.lean ====
section
/-! DEFINITION. The object store: mount, commits, commands and Baskets (R403 to R410, R426). -/
namespace Sys2Proof.Machine
open Sys2Proof

/-! ### Mount (R404 to R406, R417) -/

/-- The journal is read: Baskets, torn blocks, high-water marks, notices, and the objects that waited (R404, R405, R417). -/
def State.mountStore (s : State) (mib : Nat) : State :=
  let s := { s.wr F.STORE_STAT_STATE 2 with data := { s.data with capMib := mib, fails := 0 } }
  let s := (s.wr F.STORE_CAP_TOTAL_MIB mib).wr F.STORE_CAP_FREE_MIB mib
  let s := s.each (List.range 16) fun s b =>
    (s.setReg (F.STORE_BASKET_CFG_EN b).addr (tget 0 s.data.baskets b)).overBasket b
  let s := s.each (s.data.store.filterMap fun x => x.env) fun s t =>
    { s with data := { s.data with hwm := tput 0 s.data.hwm t.slot (max (tget 0 s.data.hwm t.slot) t.seq) } }
  let s := s.showSeqs.showNotices
  let s := if s.data.torn then { s with data := { s.data with torn := false } }.storeEvent 5 0 else s
  s.releaseWaiting

/-- The store is not mounted: what waited goes on, to be refused by the store and the signature engine (R404, R428). -/
def State.unmounted (s : State) (code : Nat) : State :=
  ((s.wr F.STORE_STAT_STATE code).storeEvent 6 0).releaseWaiting.showSeqs.showNotices

/-- STORE_MOUNT_DONE (R404). -/
def execStoreMountDone (r : MountResult) (s : State) : Host.Outcome State Fault Refusal :=
  .next <| s.whenUp fun s =>
    if s.rd F.STORE_STAT_STATE ≠ 1 ∨ s.en .store = false then s
    else match r with
      | .mounted mib => s.mountStore mib
      | .noDevice => s.unmounted 0
      | .noJournal mib => { s with data := { s.data with capMib := mib } }.unmounted 3
      | .failed => s.unmounted 4
      | .otherKey => s.unmounted 5

/-- OBJECT_COMMIT (R405): the oldest write under way. A commit the management controller may not make is abandoned (R119). -/
def execObjectCommit (s : State) : Host.Outcome State Fault Refusal :=
  .next <| s.whenUp fun s =>
    match s.data.writes with
    | (b, o) :: r => if s.mounted then ({ s with data := { s.data with writes := r } }).storeTask id fun s => s.commitObj b o none else s
    | [] => s

/-! ### Commands (R410) -/

/-- Why a write of STORE.CMD is rejected (R410, R427, R430). -/
def State.storeCmdReason (s : State) (w : Word) : Option Nat :=
  let op := getBits w 31 28
  if op = 0 ∨ 6 ≤ op then some 3
  else if op = 5 ∧ getBits w 23 16 ≠ 0xA5 then some 3
  else if s.on F.STORE_STAT_BUSY then some 4
  else if s.rd F.STORE_STAT_STATE ≠ 2 ∧ ¬(op = 5 ∧ s.rd F.STORE_STAT_STATE = 3) then some 4
  else if op = 3 ∧ (s.notices.head?.any fun x => decide (x.num = s.rd F.STORE_ARG)) = true then some 4
  else none

/-- After STORE.CMD was written: the command starts. -/
def State.afterStoreCmd (s : State) (w : Word) : State :=
  let c : StoreCmd := { op := getBits w 31 28, basket := getBits w 27 24, arg := s.rd F.STORE_ARG, ofs := s.rd F.STORE_ARG_OFS, code := 1 }
  { s with data := { s.data with cmd := some c } }.wr F.STORE_STAT_BUSY 1

/-- A command ends with a code. -/
def State.endStoreCmd (s : State) (code : Nat) : State :=
  (({ s with data := { s.data with cmd := none } }.wr F.STORE_STAT_BUSY 0).wr F.STORE_RESULT_DONE 1).wr F.STORE_RESULT_CODE code

/-- OBJ_META shows an object (R430). -/
def State.showMeta (s : State) (x : Stored) : State :=
  let s := (s.wr F.STORE_OBJ_META0_NUMBER x.num).wr F.STORE_OBJ_META1_SRC x.obj.src
  let s := (s.wr F.STORE_OBJ_META1_BASKET x.basket).wr F.STORE_OBJ_META1_HAMPER x.obj.hamper
  let notice := x.env.any fun t => decide (2 ≤ t.type) && decide (t.type ≤ 0xFFF)
  let s := (s.wr F.STORE_OBJ_META1_SIGNED (b2n x.env.isSome)).wr F.STORE_OBJ_META1_NOTICE (b2n notice)
  let s := (s.wr F.STORE_OBJ_META1_ACKED (b2n x.acked)).wr F.STORE_OBJ_META1_CORRUPT (b2n x.corrupt)
  let s := (s.wr F.STORE_OBJ_META1_BCHECK x.obj.bcheck).wr F.STORE_OBJ_META2_LENGTH x.obj.data.length
  (s.wr F.STORE_OBJ_META3_CRC x.obj.crc).wr F.STORE_OBJ_META4_TIME x.time

/-- READ: the window and OBJ_META; a CRC-32C that does not hold marks the object (R410, R424). -/
def State.storeRead (s : State) (c : StoreCmd) (intact : Bool) : State :=
  match s.data.store.find? fun x => decide (x.num = c.arg) with
  | none => s.endStoreCmd 2
  | some x =>
    let bytes := (x.obj.data.drop c.ofs).take 2048
    let s := { s with data := { s.data with window := bytes } }
    let s := if intact then s else
      { s with data := { s.data with store := s.data.store.map fun (y : Stored) => if y.num = x.num then { y with corrupt := true } else y } }.chainBreak
        4 x.obj.hamper
    (s.emmcOk.showMeta { x with corrupt := x.corrupt || !intact }).endStoreCmd 1

/-- The numbers TRIM deletes from Basket `b` (R410). An ARG other than 0 or 1 deletes nothing. (assumption 15) -/
def State.trimmed (s : State) (b arg : Nat) : List Nat :=
  let l := s.data.store.filter fun x => decide (x.basket = b)
  if arg = 0 then oldestFor (s.usedBlocks b - s.quotaBlocks b) l
  else if arg = 1 then (l.filter fun x => !x.pending).map fun x => x.num
  else []

/-- FORMAT: a new journal, no Basket enabled, numbers from 1 (R410). High-water marks stay (R406). -/
def State.formatStore (s : State) : State :=
  let s := { s with data := { s.data with store := [], nextNum := 1, baskets := [], writes := [] } }
  let s := s.each (List.range 16) fun s b =>
    ((s.setReg (F.STORE_BASKET_CFG_EN b).addr 0).wr (F.STORE_BASKET_USAGE_OVER b) 0).showBasket b
  (((s.wr F.STORE_STAT_STATE 2).wr F.STORE_CAP_TOTAL_MIB s.data.capMib).emmcOk.showSeqs).showNotices

/-- NEXT (R410). -/
def State.storeNext (s : State) (c : StoreCmd) : State :=
  match s.data.store.find? fun x => decide (x.basket = c.basket) && decide (c.arg ≤ x.num) with
  | some x => (s.showMeta x).endStoreCmd 1
  | none => s.endStoreCmd 2

/-- DELETE (R410, R427): a write to the same Basket commits first. -/
def State.storeDelete (s : State) (c : StoreCmd) : State :=
  match s.data.store.find? fun x => decide (x.num = c.arg) with
  | some x =>
    if s.writingBlocks x.basket = 0 then (s.emmcOk.removeObjs x.basket fun y => decide (y.num = x.num)).endStoreCmd 1 else s
  | none => s.endStoreCmd 2

/-- TRIM (R410, R427): a write to the same Basket commits first. Abandoned under R119 it ends with code 4 (assumption 87). -/
def State.storeTrim (s : State) (c : StoreCmd) : State :=
  let gone := s.trimmed c.basket c.arg
  if s.writingBlocks c.basket = 0 then
    s.storeTask (fun s => s.endStoreCmd 4) fun s => (s.emmcOk.removeObjs c.basket fun x => gone.contains x.num).endStoreCmd 1
  else s

/-- STORE_CMD_DONE (R410). -/
def execStoreCmdDone (intact : Bool) (s : State) : Host.Outcome State Fault Refusal :=
  .next <| s.whenUp fun s =>
    match s.data.cmd with
    | none => s
    | some c =>
      if s.en .store = false then s
      else if c.op = 1 then s.storeRead c intact
      else if c.op = 2 then s.storeNext c
      else if c.op = 3 then s.storeDelete c
      else if c.op = 4 then s.storeTrim c
      else if s.data.writes.isEmpty then s.formatStore.endStoreCmd 1
      else s

/-! ### eMMC failures (R403) -/

/-- EMMC_COMMAND_FAIL (R403, R414): a final failure counts; what the command was for ends with it, and eight in a row fail
the store. -/
def execEmmcCommandFail (final : Bool) (use : EmmcUse) (s : State) : Host.Outcome State Fault Refusal :=
  .next <| s.whenUp fun s =>
    if !final then s
    else
      let s := (s.sat F.STORE_COUNT_EMMC_ERR).storeEvent 4 0
      let s := { s with data := { s.data with fails := s.data.fails + 1 } }
      let s : State := match use with
        | .objectWrite => { s with data := { s.data with writes := s.data.writes.drop 1 } }
        | .storeCmd => if s.data.cmd.isSome then s.endStoreCmd 4 else s
        | .envelopeWrite =>
          (match s.data.verify, s.data.envs with
           | .commit t, o :: _ =>
             if t.type = 1 then s else ((s.rejectEnv o 9).queueObj o false o.isNotice 0).endVerify 9
           | _, _ => s)
        | .other => s
      if 8 ≤ s.data.fails ∧ s.rd F.STORE_STAT_STATE ≠ 4 then
        let s := if s.data.cmd.isSome then s.endStoreCmd 5 else s
        ({ s with data := { s.data with writes := [] } }).unmounted 4
      else s

/-! ### Baskets (R407, R409) -/

/-- Why a write of BASKET[b].CFG is rejected (R407). -/
def State.basketReason (s : State) (b : Nat) (w : Word) : Option Nat :=
  let quota := getBits w 15 0
  let sum := (List.range 16).foldl (fun n k =>
    if k = b then (if getBits w 31 31 = 1 then n + quota else n)
    else if s.on (F.STORE_BASKET_CFG_EN k) then n + s.rd (F.STORE_BASKET_CFG_QUOTA_MIB k) else n) 0
  if getBits w 31 31 = 1 ∧ (quota = 0 ∨ 16384 < quota) then some 0
  else if s.rd F.STORE_CAP_TOTAL_MIB < sum then some 2
  else if getBits w 31 31 = 0 ∧ (s.data.store.any fun x => decide (x.basket = b)) = true then some 4
  else none

/-- After BASKET[b].CFG was written: the journal keeps it, and OVER is judged, after a write under way to the Basket
(R409, R427). -/
def State.afterBasket (s : State) (b : Nat) : State :=
  let s := { s with data := { s.data with baskets := tput 0 s.data.baskets b (s.reg (F.STORE_BASKET_CFG_EN b).addr) } }
  if s.writingBlocks b = 0 then s.overBasket b else s.showBasket b

/-- After a page reset of STORE, its fields being at reset: a running command ends with code 4; the store stays mounted
(R426). `st`, `mib` are STATE and TOTAL_MIB before. -/
def State.storePageReset (s : State) (st mib : Nat) : State :=
  let busy := s.data.cmd.isSome
  let s := (s.wr F.STORE_STAT_STATE st).wr F.STORE_CAP_TOTAL_MIB mib
  let s := { s with data := { s.data with cmd := none, window := [], refused := false } }
  let s := s.each (List.range 16) fun s b =>
    if st = 2 then
      let s := s.setReg (F.STORE_BASKET_CFG_EN b).addr (tget 0 s.data.baskets b)
      (s.wr (F.STORE_BASKET_USAGE_OVER b) (b2n (decide (s.quotaBlocks b < s.usedBlocks b)))).showBasket b
    else s
  if busy then s.endStoreCmd 4 else s

end Sys2Proof.Machine
end

