-- ==== Sys2Proof/Machine/Power.lean ====
section
/-! DEFINITION. Boot, resets, supplies, radio states, wakes, fences and temperature (R34 to R41, R69 to R97, R127). -/
namespace Sys2Proof.Machine
open Sys2Proof

/-! ### Boot (R36, R92, R93) -/

/-- Boot waits for an image through the host port or the tunnel (R93). -/
def State.waitHost (s : State) : State :=
  { (s.wr F.SYS_BOOT_STAT_WAIT_HOST 1).raise .sys C.SYS_WAIT_HOST with boot := .waitHost }

/-- An image is sought where BOOT_SRC says (R93 step 3). -/
def State.seekImage (s : State) : State :=
  if s.on F.SYS_STRAP_BOOT_SRC then { s with boot := .fetch } else s.waitHost

/-- The fuse fences are read from OTP, at every boot and wake (R84, R90), with what the reading met (R128). -/
def State.loadFuses (s : State) (o : OtpRead) : State :=
  let fail := o.failed || s.data.otpTorn || !o.badKeys.isEmpty
  let s := (s.wr F.SYS_OTP_STAT_CORRECTED (b2n o.corrected)).wr F.SYS_OTP_STAT_FAIL (b2n fail)
  let s := if o.corrected || fail then s.raise .sys C.SYS_OTP_ERR else s
  let s := (s.wr F.PWR_FENCE_FUSE o.fuses.toNat).showFence
  s.each (List.range 4) fun s c => if bit (s.rd F.PWR_FENCE_FENCED) c then s.wr (F.CLUS_STAT_POWER c) 6 else s

/-- OTP is read after a cold reset and at a wake: fuse fences and key slots (R84, R90). -/
def State.loadOtp (s : State) (o : OtpRead) : State :=
  let s := s.loadFuses o
  { s with data := { s.data with otpBad := o.badKeys.map fun (x : Fin 8 × Fin 4) => (x.1.val, x.2.val) } }.showSlots

/-- The store's mount begins (R404), and the background test (R501). -/
def State.startServices (s : State) : State :=
  (if s.en .store then s.wr F.STORE_STAT_STATE 1 else s).testDrop

/-- Boot completes (R93 step 4): READY, BOOT_DONE, an XO failure reported, and the device follows its target. -/
def State.finishBoot (s : State) : State :=
  let s := { (s.wr F.SYS_BOOT_STAT_READY 1).wr F.SYS_BOOT_STAT_WAIT_HOST 0 with boot := .ready }
  let s := s.raise .sys C.SYS_BOOT_DONE
  let s := if s.clk.xoFailDue then { s.raise .clk C.CLK_XO_FAIL with clk := { s.clk with xoFailDue := false } } else s
  s.startServices.retarget

/-- POWER_ON_RESET_RELEASE (R70, R91): the record is POR unless a brown-out stands in it. -/
def execPowerOnResetRelease (s : State) : Host.Outcome State Fault Refusal :=
  .next <|
    if s.pins.porHeld then
      let s := { s with pins := { s.pins with porHeld := false } }
      if s.rd F.SYS_RESET_CAUSE_BOR = 0 then s.wr F.SYS_RESET_CAUSE_POR 1 else s
    else s

/-- The level a strap ball is sampled at (R34, R35): the pull-downs are on until the sampling, so an open ball reads 0. -/
def strapLevel (t : StrapTie) : Bool := decide (t = .vddIo33)

/-- STRAP_SAMPLE (R34 to R37): with TESTEN at 1 the device stays in cold reset. The pull-downs of the strap balls end. -/
def execStrapSample (role1 role0 addr1 addr0 bootSrc testen : StrapTie) (s : State) : Host.Outcome State Fault Refusal :=
  .next <|
    if s.boot = .held ∧ s.pins.porHeld = false ∧ s.pins.testEn = false then
      let s := { s with pins := { s.pins with resetN := true, testEn := strapLevel testen, strapPull := false } }
      if strapLevel testen then s
      else
        let addr := 2 * b2n (strapLevel addr1) + b2n (strapLevel addr0)
        let s := (((s.wr F.SYS_STRAP_TWI_TADDR (0x2C + addr)).wr F.SYS_STRAP_BOOT_SRC (b2n (strapLevel bootSrc))).wr F.SYS_STRAP_TWI_ADDR
          addr).wr F.SYS_STRAP_CASC_ROLE (2 * b2n (strapLevel role1) + b2n (strapLevel role0))
        { s.cascRole with boot := .xoStart, clk := { s.clk with xo := .starting } }
    else s

/-- RESET_N_LOW (R89, R91). -/
def execResetNLow (s : State) : Host.Outcome State Fault Refusal :=
  .next <|
    if s.pins.porHeld then { s with pins := { s.pins with resetN := false } }
    else if s.pins.resetN then s.coldReset { State.reset.pins with porHeld := false } 2
    else s

/-- BROWN_OUT (R70, R71, R91): rail `r`; `coreLost` when VDD_CORE fell below its power-on threshold, which loses the
record. While the power-on reset still holds, a low rail makes no record. -/
def execBrownOut (r : Fin 5) (coreLost : Bool) (s : State) : Host.Outcome State Fault Refusal :=
  .next <|
    if s.pins.porHeld then (if coreLost then s.setReg F.SYS_RESET_CAUSE_POR.addr 0 else s)
    else s.coldReset { State.reset.pins with resetN := s.pins.resetN } (if coreLost then 0 else BitVec.ofNat 32 (4 + r.val * 0x1000))

/-- SUPPLY_LOW (R71): in Sleep, and without the XO, the PWR page latches nothing (R51). -/
def execSupplyLow (r : Fin 5) (s : State) : Host.Outcome State Fault Refusal :=
  .next <|
    if s.boot = .held ∨ bit (s.rd F.PWR_STATE_STAT_SUPPLY_LOW) r = true then s
    else
      let s := s.wr F.PWR_STATE_STAT_SUPPLY_LOW (setBit (s.rd F.PWR_STATE_STAT_SUPPLY_LOW) r)
      if s.radio = 0 ∨ s.clk.xo = .failed then s else s.raise .pwr C.PWR_SUPPLY_LOW

/-- SUPPLY_RECOVERED (R71). -/
def execSupplyRecovered (r : Fin 5) (s : State) : Host.Outcome State Fault Refusal :=
  .next (s.wr F.PWR_STATE_STAT_SUPPLY_LOW (clrBit (s.rd F.PWR_STATE_STAT_SUPPLY_LOW) r))

/-- XO_STABLE (R50, R51, R560, R443): a cold boot goes on, a failed XO is followed by a warm reset, a wake by Standby.
`rc` is the interval without XO in RC cycles, `o` what the reading of OTP finds where one follows. -/
def execXoStable (rc : Nat) (o : OtpRead) (s : State) : Host.Outcome State Fault Refusal :=
  .next <|
    let late := s.clk.xoLate
    let up (s : State) : State := { s with clk := { s.clk with xo := .stable, xoLate := false } }
    let failed (s : State) : State :=
      let s := (up (s.coast rc)).toThermos.warmReset F.SYS_RESET_CAUSE_XO_FAIL
      { s.wr F.CLK_XO_STAT_XO_FAIL 1 with clk := { s.clk with xoFailDue := true } }
    match s.clk.xo with
    | .failed => failed s
    | .starting =>
      if s.boot = .xoStart then
        let s := up s
        let s := if late then { s.wr F.CLK_XO_STAT_XO_FAIL 1 with clk := { s.clk with xoFailDue := true } } else s
        (({ s with boot := .fetch }.wr F.CLK_ROOT_STAT_ON_FALLBACK 1).loadOtp o).seekImage.linksEval
      else if late then failed s
      else (((up (s.coast rc)).toThermos).timeEval).loadOtp o
    | _ => s

/-- XO_FAIL (R51): every domain but AON stops until the XO is stable again. -/
def execXoFail (s : State) : Host.Outcome State Fault Refusal :=
  .next <| if s.clk.xo = .stable ∧ s.pwr.trans ≠ some .standbyToSleep then { s with clk := { s.clk with xo := .failed } } else s

/-- XO_START_TIMEOUT (R560). -/
def execXoStartTimeout (s : State) : Host.Outcome State Fault Refusal :=
  .next <| if s.clk.xo = .starting then { s with clk := { s.clk with xoLate := true } } else s

/-- PATCH_IMAGE_READ_DONE (R93, R557). -/
def execPatchImageReadDone (s : State) : Host.Outcome State Fault Refusal :=
  .next <| s.whenUp fun s => if s.boot = .fetch then { s with boot := .verify true } else s

/-- EMMC_READY_TIMEOUT (R93). -/
def execEmmcReadyTimeout (s : State) : Host.Outcome State Fault Refusal := .next <| s.whenUp fun s => if s.boot = .fetch then s.waitHost else s

/-- PATCH_VERIFY_DONE (R93, R154): `ver` is the version of an image that verifies. -/
def execPatchVerifyDone (ok : Bool) (ver : BitVec 16) (s : State) : Host.Outcome State Fault Refusal :=
  .next <| s.whenUp fun s =>
    match s.boot with
    | .verify emmc =>
      if ok then
        let s := (s.wr F.SYS_BOOT_STAT_PATCH_VER ver.toNat).wr F.SYS_BOOT_STAT_PATCH_SRC (b2n emmc)
        (if emmc then s else s.wr F.HOST_IMG_STAT_STATE 3).finishBoot
      else
        let s := (s.wr F.SYS_BOOT_STAT_PATCH_FAIL 1).raise .sys C.SYS_PATCH_FAIL
        if emmc then s.waitHost else { s.wr F.HOST_IMG_STAT_STATE 4 with boot := .waitHost }
    | _ => s

/-- WARM_BOOT_DONE (R84, R90, R92): `ok` when the CRC-32C of the retained image holds. The fuse fences are read again. -/
def execWarmBootDone (ok : Bool) (o : OtpRead) (s : State) : Host.Outcome State Fault Refusal :=
  .next <| s.whenUp fun s =>
    if s.boot = .warm then
      let s := ((s.wr F.SYS_BOOT_STAT_WARM 1).wr F.CLK_ROOT_STAT_ON_FALLBACK 1).loadFuses o
      if ok then s.showSlots.finishBoot else s.seekImage
    else s

/-- WATCHDOG_EXPIRY (R94): in Standby and above, with EN at 1. -/
def execWatchdogExpiry (s : State) : Host.Outcome State Fault Refusal :=
  .next <| if s.busUp && s.on F.SYS_WDOG_EN then s.warmReset F.SYS_RESET_CAUSE_WDOG else s

/-- WDOG_WARN (R127): once per count. -/
def execWdogWarn (s : State) : Host.Outcome State Fault Refusal :=
  .next <|
    if s.busUp && s.on F.SYS_WDOG_EN && !s.pwr.wdogWarned then
      { s.raise .sys C.SYS_WDOG_WARN with pwr := { s.pwr with wdogWarned := true } }
    else s

/-- MGMT_WATCHDOG_EXPIRY (R89, R509). -/
def execMgmtWatchdogExpiry (s : State) : Host.Outcome State Fault Refusal :=
  .next <| if s.busUp then s.warmReset F.SYS_RESET_CAUSE_MGMT_WDOG else s

/-- MGMT_TASK_TIMEOUT (R127, R128): the management controller abandons a task, which exceeded its time limit or, with
`consistency`, failed an internal consistency check. -/
def execMgmtTaskTimeout (consistency : Bool) (s : State) : Host.Outcome State Fault Refusal :=
  .next <| if s.busUp then s.mgmtFault (if consistency then 3 else 2) 0 else s

/-! ### Wakes (R80, R176) -/

/-- A wake from Sleep begins: the flags of the sources, HOST_REQ at Standby, XO start (R80). -/
def State.startWake (s : State) (flags : Nat) : State :=
  let s := ((s.wr F.PWR_STATE_STAT_WAKE_SRC flags).wr F.PWR_STATE_REQ_HOST_REQ 1).wr F.PWR_STATE_STAT_TARGET 1
  let s := s.startTrans .sleepToStandby
  { s with clk := { s.clk with xo := .starting }, pwr := { s.pwr with waking := true, wakePend := 0 } }

/-- Sources of PWR.WAKE_CFG that are enabled, as flags (R80). -/
def State.wakeEnabled (s : State) : Nat :=
  s.rd F.PWR_WAKE_CFG_QSPI_EN + 2 * s.rd F.PWR_WAKE_CFG_TWI_EN + 4 * s.rd F.PWR_WAKE_CFG_TIMER_EN +
    8 * b2n (decide (s.rd F.PWR_WAKE_CFG_GPIO_MASK ≠ 0))

/-- Wake events of one AON cycle: in Sleep they wake the device, during Standby → Sleep they do so once it is complete, with the
flags of every event until then. (assumption 115) -/
def State.wakeEvent (s : State) (flags : Nat) : State :=
  let f := flags &&& s.wakeEnabled
  if f = 0 then s
  else if s.pwr.trans = some .standbyToSleep then { s with pwr := { s.pwr with wakePend := s.pwr.wakePend ||| f } }
  else if s.radio = 0 ∧ s.pwr.trans = none then s.startWake f
  else s

/-- WAKE_QSPI (R80, R148): `others` are the flags of further sources in the same AON cycle. -/
def execWakeQspi (others : BitVec 4) (s : State) : Host.Outcome State Fault Refusal := .next (s.wakeEvent (1 ||| others.toNat))

/-- WAKE_TWI (R80, R176). -/
def execWakeTwi (others : BitVec 4) (s : State) : Host.Outcome State Fault Refusal := .next (s.wakeEvent (2 ||| others.toNat))

/-- WAKE_TIMER (R80): from Sleep entry on. -/
def execWakeTimer (others : BitVec 4) (s : State) : Host.Outcome State Fault Refusal := .next (s.wakeEvent (4 ||| others.toNat))

/-- WAKE_GPIO (R80): ball `g` has been at `level` for 2 AON cycles. -/
def execWakeGpio (g : Fin 8) (level : Bool) (others : BitVec 4) (s : State) : Host.Outcome State Fault Refusal :=
  .next <|
    if bit (s.rd F.PWR_WAKE_CFG_GPIO_MASK) g && decide (bit (s.rd F.PWR_WAKE_CFG_GPIO_POL) g = level) then
      s.wakeEvent (8 ||| others.toNat)
    else s.wakeEvent (others.toNat % 8)

/-! ### Transitions (R72 to R78) -/

/-- Standby is reached from Synth On (R72, R256, R521): placements and queues end, clusters, root PLL and links stop.
SEED_LOADED keeps its value (assumption 86), neither FALLBACK nor RETURN is raised (assumption 88), and the count of failed relock
attempts starts again (assumption 89). -/
def State.enterStandby (s : State) : State :=
  let s := s.arrive 1
  let s := s.dropAllQueues.strmStop.editPlan Plan.suspendAll
  let s := (s.each engKeys State.engIdle).clusStopAll
  let s := (s.endRelock.wr F.CLK_ROOT_STAT_LOCKED 0).wr F.CLK_ROOT_STAT_ON_FALLBACK 1
  let s := { s with clk := { s.clk with rootLost := false, consecFail := 0, failRaised := false } }
  let s := s.linksEval.xreqEval []
  s.antEvalAll.advance.antEvalAll

/-- Sleep is reached (R39, R72, R90): the AON island, the banks it keeps and the registers of R90 remain. A wake event that came
meanwhile follows at once (R80), and so does a target that has risen since (R75), without a wake source. -/
def State.enterSleep (s : State) : State :=
  let intn := s.intTree && !s.intGap
  let t := s.rd F.PWR_STATE_STAT_TARGET
  let filt := (List.range 4).map fun i => s.rd (F.RFIN_FILT_CTRL_CODE i)
  let w := s.pwr.wakePend
  let s := s.wiped .sleep
  let s := { s with clk := { s.clk with xo := .stopped, xoLate := false }
                    pins := { s.pins with intnSleep := intn, gpioSleep := true, filtSleep := filt, ppsOld := [] } }
  let s := ((s.wr F.PWR_STATE_STAT_STATE 0).wr F.PWR_STATE_STAT_WAKE_SRC 0).wr F.PWR_STATE_STAT_TARGET t
  let s := s.each (List.range 4) fun s c => if bit (s.rd F.PWR_FENCE_FENCED) c then s.wr (F.CLUS_STAT_POWER c) 6 else s
  if w ≠ 0 then s.startWake w
  else if t = 0 then s
  else { s.startTrans .sleepToStandby with clk := { s.clk with xo := .starting, xoLate := false } }

/-- Standby is reached from Sleep (R80, R90), with the cause WAKE where a wake source began it. A boot after a failed image is one
after a cold reset. -/
def State.wakeUp (s : State) (imgOk : Bool) : State :=
  let woken := s.pwr.waking
  let s := { (s.arrive 1) with pwr := { s.pwr with trans := none, waking := false } }
  let s := { s with pins := { s.pins with intnSleep := false, gpioSleep := false, filtSleep := [] } }
  let s := ((if woken then s.raise .pwr C.PWR_WAKE else s).wr F.CLK_ROOT_STAT_ON_FALLBACK 1).wr F.CASC_STAT_INDEX s.role
  let s := s.wr F.CASC_STAT_MASTER_OK (b2n (decide (s.role = 0)))
  if imgOk then s.startServices.linksEval.itinEval.retarget
  else { (s.wr F.SYS_BOOT_STAT_READY 0).wr F.SYS_BOOT_STAT_WARM 0 with boot := .fetch }.seekImage.linksEval.retarget

/-- STATE_TRANSITION_DONE (R51, R73 to R78, R81): no transition ends without the XO, and none raises FALLBACK or RETURN (assumption 88). `pow` for a probe command that begins in Receive, `imgOk` for the CRC-32C of
the patch image at a wake. -/
def execStateTransitionDone (pow : Powers) (imgOk : Bool) (s : State) : Host.Outcome State Fault Refusal :=
  .next <|
    if s.clk.xo ≠ .stable then s
    else match s.pwr.trans with
    | some .sleepToStandby => s.wakeUp imgOk
    | some .standbyToSynth =>
      let s := (s.arrive 2).wr F.CLK_ROOT_STAT_LOCKED 1
      let s := { s with pwr := { s.pwr with lockFailed := false }, clk := { s.clk with consecFail := 0, failRaised := false } }
      let s := s.ontoRoot.clusStartAll
      let s := ({ s with place := { s.place with fresh := true } }).trigger
      s.linksRetrain.antEvalAll.advance
    | some .synthToRx =>
      let s := s.arrive 3
      let s := s.each (List.range 4) fun s i => if s.rate i ≠ 0 then s.markInput i false else s
      (s.lanesSync.beginSweep pow).advance
    | some .rxToTx =>
      let s := s.arrive 4
      s.advance
    | some .txToRx => ((s.arrive 3).beginSweep pow).advance
    | some .rxToSynth => (((s.arrive 2).each (List.range 4) State.downInput).lanesSync).advance
    | some .synthToStandby => if s.data.burn.isSome then s else s.enterStandby
    | some .standbyToSleep => s.enterSleep
    | _ => s

/-- DRAIN_DONE (R77, R425). -/
def execDrainDone (s : State) : Host.Outcome State Fault Refusal :=
  .next <|
    if s.on F.PWR_STATE_STAT_DRAINING && decide (s.clk.xo = .stable) && s.drained && s.data.writes.isEmpty then
      (s.wr F.PWR_STATE_STAT_DRAINING 0).startTrans .synthToStandby
    else s

/-- DRAIN_TIMEOUT (R77, R425): what is still pending is discarded and counted; it changes no high-water mark. -/
def execDrainTimeout (s : State) : Host.Outcome State Fault Refusal :=
  .next <|
    if s.on F.PWR_STATE_STAT_DRAINING ∧ s.clk.xo = .stable then
      let d := s.data
      let n := d.envs.length + d.waiting.length + d.writes.length
      let s := { s.sat F.DATA_COUNT2_DRAIN_LOST n with
                 data := { d with envs := [], verify := .idle, waiting := [], writes := [] } }
      let s := (s.wr F.DATA_ENV_STAT_QUEUED 0).wr F.DATA_ENV_STAT_BUSY 0
      (s.wr F.PWR_STATE_STAT_DRAINING 0).startTrans .synthToStandby
    else s

/-- SYNTH_LOCK_FAIL (R65, R81): STATE_FAIL once per failed sequence. -/
def execSynthLockFail (s : State) : Host.Outcome State Fault Refusal :=
  .next <|
    if s.pwr.trans = some .standbyToSynth ∧ s.clk.xo = .stable then
      let s := (s.arrive 1).relockFailed
      let s := if s.pwr.lockFailed then s else s.raise .pwr C.PWR_STATE_FAIL
      ({ s with pwr := { s.pwr with lockFailed := true } }).retarget
    else s

/-- SYNTH_LOCK_RETRY (R81). -/
def execSynthLockRetry (s : State) : Host.Outcome State Fault Refusal :=
  .next <|
    if s.pwr.lockFailed && decide (s.clk.xo = .stable) && decide (s.pwr.trans = none) && decide (s.radio = 1) && decide (2 ≤ s.rd F.PWR_STATE_STAT_TARGET) then
      s.startSynth
    else s

/-! ### Clusters (R83 to R86) -/

/-- CLUSTER_POWER_UP_DONE (R83, R86). -/
def execClusterPowerUpDone (c : Fin 4) (s : State) : Host.Outcome State Fault Refusal :=
  .next <|
    if s.cpow c = 1 ∧ s.clk.xo = .stable then s.wr (F.CLUS_STAT_POWER c) (if (s.clu c).unfencing || (s.clu c).testDue then 2 else 3) else s

/-- BANK_INIT_DONE (R83): every word zero with valid ECC. -/
def execBankInitDone (c : Fin 4) (s : State) : Host.Outcome State Fault Refusal :=
  .next <|
    if s.cpow c = 3 ∧ s.clk.xo = .stable then
      let s := s.loseBanks c
      let s := { s with memT := { s.memT with poison := s.memT.poison.filter fun p => decide (p / 65536 / 12 ≠ c.val) } }
      let s := s.heal fun w => decide (w / 32768 / 12 = c.val)
      s.updClu c fun k => { k with bankReady := true }
    else s

/-- CLUSTER_CLOCK_START (R83, R86): the waiting lane applications take effect; a cluster back from a fence is available. -/
def execClusterClockStart (c : Fin 4) (s : State) : Host.Outcome State Fault Refusal :=
  .next <|
    if s.cpow c = 3 && (s.clu c).bankReady && s.rootOk then
      let back := (s.clu c).unfencing
      let s := (s.wr (F.CLUS_STAT_POWER c) 4).updClu c fun k => { k with bankReady := false, unfencing := false }
      let s := s.each ((List.range 6).map (6 * c.val + ·)) fun s n => if (s.lane n).due then s.applyDue n else s
      if back then (s.raise .pwr C.PWR_UNFENCED).backClus else s
    else s

/-- FENCE_POWER_OFF (R85). -/
def execFencePowerOff (c : Fin 4) (s : State) : Host.Outcome State Fault Refusal :=
  .next <| s.whenUp fun s => if s.cpow c = 5 then s.wr (F.CLUS_STAT_POWER c) 6 else s

/-- CLUSTER_CLOCK_STOPPED (R84): a running cluster is fenced for Fault. -/
def execClusterClockStopped (c : Fin 4) (s : State) : Host.Outcome State Fault Refusal :=
  .next <| if s.cpow c = 4 ∧ s.rootOk = true then s.faultFence c 3 else s

/-- SELFTEST_DONE (R84, R86). -/
def execSelftestDone (c : Fin 4) (pass : Bool) (s : State) : Host.Outcome State Fault Refusal :=
  .next <|
    if s.cpow c = 2 ∧ s.clk.xo = .stable then
      let s := ((s.bump (F.CLUS_SELFTEST_RUNS c)).wr (F.CLUS_SELFTEST_VALID c) 1).wr (F.CLUS_SELFTEST_PASS c) (b2n pass)
      let s := s.updClu c fun k => { k with testDue := false }
      if pass then s.wr (F.CLUS_STAT_POWER c) 3 else s.faultFence c 1
    else s

/-! ### Temperature (R87, R88) -/

/-- What one sample does to the runs of a cluster (R88); runs stop counting at 1000. -/
def ThermRun.sample (r : ThermRun) (v warn unf : Nat) : ThermRun :=
  { warn := if warn ≤ v then min 1000 (r.warn + 1) else 0
    hot := if 184 < v then min 1000 (r.hot + 1) else 0
    cool := if v ≤ unf then min 1000 (r.cool + 1) else 0 }

/-- The readings are shown: `t` of the sensors of clusters 0 to 3, `centre` of the die (R87). -/
def State.showTemps (s : State) (t : List Nat) (centre : Nat) : State :=
  let s := (((s.wr F.PWR_TEMP_CLUS0 (t.getD 0 0)).wr F.PWR_TEMP_CLUS1 (t.getD 1 0)).wr F.PWR_TEMP_CLUS2 (t.getD 2 0)).wr
    F.PWR_TEMP_CLUS3 (t.getD 3 0)
  (s.wr F.PWR_TEMP_SYS_CENTRE centre).wr F.PWR_TEMP_SYS_PEAK ((centre :: t).foldl max (s.rd F.PWR_TEMP_SYS_PEAK))

/-- The access of thermal supervision to the PWR page that reads the sensors (R21, R119; assumption 87). -/
def thermTask : List (Nat × Bool) := [(F.PWR_TEMP_CLUS0.addr, false)]

/-- Warnings, and the clusters that are hot (R88, R255). -/
def State.judgeHot (s : State) : State :=
  s.each (List.range 4) fun s c =>
    let k := s.clu c
    if k.therm.warn = 2 then
      let s := s.raise .pwr C.PWR_THERM_WARN
      if k.hot then s else (s.updClu c fun k => { k with hot := true }).trigger
    else if k.hot ∧ 2 ≤ k.therm.cool then (s.updClu c fun k => { k with hot := false }).trigger
    else s

/-- Thermal fences, and their end after 1000 cool samples (R86, R88). -/
def State.judgeFences (s : State) : State :=
  let fen := (List.range 4).filter fun c => decide (2 ≤ (s.clu c).therm.hot) && !bit (s.rd F.PWR_FENCE_THERM) c
  let s := if fen.isEmpty then s else s.mgmtTask fenceTask fun s => s.fence fen false 0
  s.each (List.range 4) fun s c =>
    if s.on F.PWR_THERM_CFG_AUTO_UNFENCE && bit (s.rd F.PWR_FENCE_THERM) c && decide (1000 ≤ (s.clu c).therm.cool) then
      s.mgmtTask fenceTask fun s => s.liftFence c false
    else s

/-- The critical hold and its end (R88). -/
def State.judgeHold (s : State) (all old : List Nat) : State :=
  let hold := s.on F.PWR_STATE_STAT_THERM_HOLD
  let crit := (all.zip old).any fun x => decide (187 ≤ x.1) && (!hold || decide (x.2 < 187))
  let s := if crit then (s.raise .pwr C.PWR_THERM_CRIT).probeAbort 4 else s
  let s := if (all.any fun v => decide (187 ≤ v)) && !s.on F.PWR_STATE_STAT_THERM_HOLD then
      s.mgmtTask stateTask fun s => s.wr F.PWR_STATE_STAT_THERM_HOLD 1
    else s
  let unf := s.rd F.PWR_THERM_CFG_UNFENCE
  let cool := if all.all fun v => decide (v ≤ unf) then min 1000 (s.pwr.holdCool + 1) else 0
  let s := { s with pwr := { s.pwr with holdCool := cool } }
  if 2 ≤ cool ∧ s.on F.PWR_STATE_STAT_THERM_HOLD = true then s.mgmtTask stateTask fun s => s.wr F.PWR_STATE_STAT_THERM_HOLD 0
  else s

/-- The thresholds are judged (R88): the runs of each cluster, then what they ask for. `all` and `old` are the readings and those
before, of the die's centre first. -/
def State.judgeTemps (s : State) (all old : List Nat) : State :=
  let warn := s.rd F.PWR_THERM_CFG_WARN
  let unf := s.rd F.PWR_THERM_CFG_UNFENCE
  let s := s.each (List.range 4) fun s c => s.updClu c fun k => { k with therm := k.therm.sample (all.getD (c + 1) 0) warn unf }
  s.judgeHot.judgeFences.judgeHold all old

/-- TEMP_SAMPLE (R87, R88, R255, R441): the management controller judges the readings, under its rights (R21, R119). -/
def execTempSample (t0 t1 t2 t3 centre : BitVec 8) (s : State) : Host.Outcome State Fault Refusal :=
  .next <|
    if !s.busUp then s
    else
      let t := [t0, t1, t2, t3].map BitVec.toNat
      let old := s.rd F.PWR_TEMP_SYS_CENTRE :: [s.rd F.PWR_TEMP_CLUS0, s.rd F.PWR_TEMP_CLUS1, s.rd F.PWR_TEMP_CLUS2, s.rd F.PWR_TEMP_CLUS3]
      let s := s.showTemps t centre.toNat
      ((s.mgmtTask thermTask fun s => s.judgeTemps (centre.toNat :: t) old).thermosFreq).retarget

end Sys2Proof.Machine
end

