-- ==== Sys2Proof/Machine/Sched.lean ====
section
/-! DEFINITION. The scheduler and the Stream Port (R460 to R477). -/
namespace Sys2Proof.Machine
open Sys2Proof

/-- The packet an item becomes in queue `n` now (R457, R459). -/
def State.packetOf (s : State) (n : Nat) (i : Item) : Packet :=
  let q := s.queue n
  let p : Packet := { cls := i.cls, gap := q.gapDue, pad := i.pad, seq := q.seq, time := s.nowUs, payload := i.payload,
                      crc := 0, pub := false, sent := !s.toStrm n, drop := false, bad := false }
  { p with crc := crc32c (p.head n ++ p.payload) }

/-- A packet is refused or policed (R460, R475): code 2 or 1 of the first since an admission. -/
def State.turnAway (s : State) (n : Nat) (police : Bool) : State :=
  let q := s.queue n
  let s := if police then s.sat (F.SCHED_QSTAT1_POLICED n) else s.sat (F.SCHED_QSTAT1_REFUSED n)
  let s := s.updQueue n fun q =>
    { q with gapDue := true, polArmed := q.polArmed && !police, refArmed := q.refArmed && police }
  if police && q.polArmed then s.schedEvent 1 n else if !police && q.refArmed then s.schedEvent 2 n else s

/-- Admit a packet (R460, R461). -/
def State.enqueue (s : State) (n : Nat) (p : Packet) : State :=
  let bits := 32 * p.size
  let s := s.updQueue n fun q =>
    { q with pkts := q.pkts ++ [p], seq := (q.seq + 1) % 0x10000, gapDue := false, polArmed := true, refArmed := true,
             credit := if s.qRate n = 0 then q.credit else q.credit - bits }
  s.publishQueue n

/-- PACKET_ADMIT (R459 to R461): the oldest item handed in for the queue is judged. An item whose own check fails is
discarded as a chain break; `broken` says that the words stored do not match the CRC when they are read out. -/
def execPacketAdmit (n : Fin 128) (broken : Bool) (s : State) : Host.Outcome State Fault Refusal :=
  .next <| s.whenUp fun s =>
    let n : Nat := n
    match s.sched.items.find? fun i => decide (i.hamper = n) with
    | none => s
    | some i =>
      let s := { s with sched := { s.sched with items := s.sched.items.erase i } }
      let q := s.queue n
      let p := s.packetOf n i
      if !q.live then s
      else if 65535 < i.payload.length then s.turnAway n false
      else if s.on (F.SCHED_QCFG_GATE_ADMIT n) && !s.qOpen n then s.turnAway n false
      else if s.on (F.SCHED_QSTAT0_OVER n) || decide (s.quota n < q.used + 4 * p.size) then s.turnAway n false
      else if 0 < s.qRate n ∧ q.credit < 32 * p.size then s.turnAway n true
      else if !i.ok then (s.updQueue n fun q => { q with gapDue := true }).chainBreak (if i.cls = 4 then 7 else 1) n
      else
        s.enqueue n { p with bad := broken }

/-- CREDIT_TICK (R461): every 1 ms a queue with a rate gains RATE_KBPS bits, up to its cap. -/
def execCreditTick (n : Fin 128) (s : State) : Host.Outcome State Fault Refusal :=
  .next <| s.whenUp fun s =>
    if (s.queue n).live ∧ 0 < s.qRate n then
      s.updQueue n fun q => { q with credit := min (s.qCap n) (q.credit + s.qRate n) }
    else s

/-! ### SCHED.CMD (R463, R476) -/

/-- Packets deleted from the head until USED is within the quota; the packet being sent stays until its send ends. -/
def trimList (quota : Nat) (sending : Bool) (used : Nat) : List Packet → List Packet × Nat
  | [] => ([], 0)
  | p :: r =>
    if used ≤ quota then (p :: r, 0)
    else if sending && !p.sent then
      let (r', k) := trimList quota false (used - 4 * p.size) r
      ({ p with drop := true } :: r', k)
    else
      let (r', k) := trimList quota sending (used - 4 * p.size) r
      (r', k + 1)

/-- A TRIM of queue `n` starts (R463). -/
def State.startTrim (s : State) (n : Nat) : State :=
  let q := s.queue n
  let (l, k) := trimList (s.quota n) (s.sendingQ n) q.used q.pkts
  let s := s.updQueue n fun q => { q with pkts := l, gapDue := q.gapDue || decide (0 < k) }
  let s := { s with sched := { s.sched with trim := some (n, k) } }
  (s.wr F.SCHED_STAT_BUSY 1).overEval n

/-- SCHED_TRIM_DONE (R463): the deleted packets are counted and OUTPUT is raised with code 7. -/
def execSchedTrimDone (s : State) : Host.Outcome State Fault Refusal :=
  .next <| s.whenUp fun s =>
    match s.sched.trim with
    | none => s
    | some (n, k) =>
      let s := { s with sched := { s.sched with trim := none } }
      ((s.wr F.SCHED_STAT_BUSY 0).sat F.SCHED_COUNT_TRIMMED k).schedEvent 7 n

/-- Clear the latency mark of a queue (R467). -/
def State.clearHwm (s : State) (n : Nat) : State :=
  (s.updQueue n fun q => { q with latWarned := false }).wr (F.SCHED_QLAT_HWM_US n) 0

/-! ### Release (R152, R467) -/

/-- Remove the first `c` words; none unless they end a packet. The times of the removed packets come with the rest. -/
def releaseWords : List Packet → Nat → Option (List Nat × List Packet)
  | [], c => if c = 0 then some ([], []) else none
  | p :: r, c =>
    if c = 0 then some ([], p :: r)
    else if p.size ≤ c then (releaseWords r (c - p.size)).map fun x => (p.time :: x.1, x.2)
    else none

/-- A release of `c` words of queue `n`, which end a packet. -/
def State.releaseQueue (s : State) (n c : Nat) : State :=
  match releaseWords (s.queue n).pkts c with
  | none => s
  | some (times, rest) =>
    let strm := s.toStrm n
    let s := s.updQueue n fun q => { q with pkts := rest }
    let s := if strm then s else s.each times fun s t => s.latency n t
    s.overEval n

/-! ### Stream Port -/

/-- The first packet of a queue that is still to be sent. -/
def QueueSt.next (q : QueueSt) : Option Packet := q.pkts.find? fun p => !p.sent

/-- Queues with a packet the port may send now (R465). -/
def State.eligible (s : State) : List Nat :=
  (s.sched.queues.filter fun x => x.2.live && s.toStrm x.1 && s.qOpen x.1 && x.2.next.isSome).map (·.1)

/-- The queue chosen: the highest PRIORITY, then round robin after the queue served last at that priority (R465). -/
def State.chooseQueue (s : State) : Option Nat :=
  let l := s.eligible
  let top := l.foldl (fun m n => max m (s.ham n).req.prio) 0
  let l := l.filter fun n => decide ((s.ham n).req.prio = top)
  match l.find? (fun n => decide (tget 0 s.sched.turn top ≤ n)) with
  | some n => some n
  | none => l.head?

/-- READY_EN of STRM.CFG in force (R470, R472). -/
def State.readyEn (s : State) : Bool := bit s.sched.cfg 0

/-- STREAM_SELECT (R465, R467, R470): the idle port chooses the next packet and begins its send; with READY_EN it waits
while READY is low. -/
def execStreamSelect (s : State) : Host.Outcome State Fault Refusal :=
  .next <|
    if !s.busUp || s.on F.STRM_STAT_SENDING || !s.en .strm || decide (s.radio < 2) || (s.readyEn && !s.on F.STRM_STAT_READY) then s
    else match s.chooseQueue with
      | none => s
      | some n =>
        match (s.queue n).next with
        | none => s
        | some p =>
          let s := { s with sched := { s.sched with turn := tput 0 s.sched.turn (s.ham n).req.prio (n + 1) } }
          let s := { s with sched := { s.sched with nib := 0, frac := 0, wait := false } }
          ((s.wr F.STRM_STAT_SENDING 1).wr F.STRM_STAT_QUEUE n).latency n p.time

/-- Mark the first unsent packet as sent, or remove it where it is not published (R456, R463). -/
def sentFirst (remove : Bool) : List Packet → List Packet
  | [] => []
  | p :: r => if p.sent then p :: sentFirst remove r else if remove || p.drop then r else { p with sent := true } :: r

/-- STREAM_PACKET_SENT (R456, R459, R469): the packet is removed or published as DEST decides, and the port is idle;
`broken` says that the CRC computed while it was read does not match the stored one. -/
def execStreamPacketSent (broken : Bool) (s : State) : Host.Outcome State Fault Refusal :=
  .next <| s.whenUp fun s =>
    if s.on F.STRM_STAT_SENDING then
      let n := s.rd F.STRM_STAT_QUEUE
      match (s.queue n).next with
      | none => (s.wr F.STRM_STAT_SENDING 0).wr F.STRM_STAT_QUEUE 0
      | some p =>
        let s := s.updQueue n fun q => { q with pkts := sentFirst (!s.toReadout n) q.pkts }
        let s := (s.bump F.STRM_COUNT_PKTS).wr F.STRM_WORDS (s.rd F.STRM_WORDS + p.size)
        let s := ((s.wr F.STRM_STAT_SENDING 0).wr F.STRM_STAT_QUEUE 0).publishQueue n
        let s := if broken || p.bad then s.chainBreak 5 n else s
        s.overEval n
    else s

/-- STREAM_READY_LOW (R39, R470): STRM_READY is ignored in Sleep, and without a clock no sample is taken. -/
def execStreamReadyLow (s : State) : Host.Outcome State Fault Refusal := .next (if s.busUp then s.wr F.STRM_STAT_READY 0 else s)

/-- STREAM_READY_HIGH (R39, R470). -/
def execStreamReadyHigh (s : State) : Host.Outcome State Fault Refusal := .next (if s.busUp then s.wr F.STRM_STAT_READY 1 else s)

/-- STREAM_READY_TIMEOUT (R471): the send is abandoned and its packet stays at the head; `words` of it were sent. -/
def execStreamReadyTimeout (words : BitVec 16) (s : State) : Host.Outcome State Fault Refusal :=
  .next <| s.whenUp fun s => if s.on F.STRM_STAT_SENDING && s.readyEn && !s.on F.STRM_STAT_READY then s.abortSend words.toNat else s

/-! ### The nibbles at the balls (R468 to R470) -/

/-- The data, VALID and SYNC balls of the Stream Port. -/
structure StrmBalls where
  data : Nat              -- STRM_D3 in bit 3
  valid : Bool
  sync : Bool
deriving DecidableEq, Repr

/-- Between packets, and while READY holds the port, everything is low (R469, R470). -/
def StrmBalls.low : StrmBalls := { data := 0, valid := false, sync := false }

/-- Nibble `k` of a packet with words `ws`: bits [31:28] of a word first, SYNC with the first of word 0 (R469). -/
def nibbleOf (ws : List Nat) (k : Nat) : StrmBalls :=
  if k < 8 * ws.length then { data := ws.getD (k / 8) 0 / 2 ^ (28 - 4 * (k % 8)) % 16, valid := true, sync := decide (k = 0) }
  else .low

/-- The packet being sent. -/
def State.sending (s : State) : Option Packet :=
  if s.on F.STRM_STAT_SENDING then (s.queue (s.rd F.STRM_STAT_QUEUE)).next else none

/-- What the data, VALID and SYNC balls show now (R469, R470). -/
def State.strmBalls (s : State) : StrmBalls :=
  match s.sending with
  | some p => if s.sched.wait then .low else nibbleOf (p.words (s.rd F.STRM_STAT_QUEUE)) s.sched.nib
  | none => .low

/-- The next cycle of STRM_CLK: the next nibble, or at a word boundary with READY low none (R470). -/
def State.nibble (s : State) : State :=
  let g := s.sched
  let n := if g.wait then g.nib else g.nib + 1
  { s with sched := { g with nib := n, wait := decide (n % 8 = 0) && s.readyEn && !s.on F.STRM_STAT_READY } }

/-- One XO cycle of a send: STOR runs at 10/3 of the XO from the root and at half the XO on fallback; STRM_CLK divides it by
2^DIV (R56, R468, R472). -/
def State.strmCycle (s : State) : State :=
  if s.sending.isSome then
    let per := 6 * 2 ^ (s.sched.cfg / 256 % 4)
    let f := s.sched.frac + (if s.clk.rootLost then 3 else 20)
    { s with sched := { s.sched with frac := f % per } }.each (List.range (f / per)) fun s _ => s.nibble
  else s

/-- STRM_CFG_APPLY (R472): at a packet boundary the written STRM.CFG takes effect. -/
def execStrmCfgApply (s : State) : Host.Outcome State Fault Refusal :=
  .next <| s.whenUp fun s =>
    if s.sched.cfgDue && !s.on F.STRM_STAT_SENDING then
      { s with sched := { s.sched with cfg := (s.reg F.STRM_CFG_DIV.addr).toNat, cfgDue := false } }
    else s

end Sys2Proof.Machine
end

