-- ==== Sys2Proof/Machine/BusCheck.lean ====
section
/-! DEFINITION. The checks of a register access (R99 to R117): assigned addresses, rights, page locks, range checking. -/
namespace Sys2Proof.Machine
open Sys2Proof

/-! ### Assigned addresses (R98, R99) -/

/-- A page offset that a register table assigns. MCLK and GROUP are registers of AUD[0] only (R399). -/
def assignedAt (t : PageType) (i o : Nat) : Bool :=
  match t with
  | .hamper => decide (0x100 ≤ o) || (findReg (regsOf .hamper) o).isSome
  | .qw => decide (o = 0x040) || decide (o = 0x044) || decide (0x100 ≤ o)
  | t =>
    if o < 0x40 then [0x000, 0x004, 0x008, 0x010, 0x014, 0x018, 0x01C, 0x020].contains o
    else if t = .aud ∧ i ≠ 0 ∧ (o = 0x080 ∨ o = 0x084) then false
    else if (t = .host ∨ t = .store ∨ t = .data) ∧ 0x800 ≤ o then true
    else (findReg (regsOf t) o).isSome

/-- The SRAM window (R98). -/
def isSram (a : Nat) : Bool := decide (bankAddr 0 ≤ a)

/-- A reserved address for initiator level `lvl` (R99). -/
def State.reserved (s : State) (lvl a : Nat) : Bool :=
  if isSram a then
    let b := (a - bankAddr 0) / 0x40000
    if b < 48 then !s.clusOn (b / 12) else (decide (b = 48) && decide (lvl < 3)) || decide (50 ≤ b)
  else match pageOf a with
    | some (t, i, o) => !assignedAt t i o
    | none => true

/-! ### Page lock (R107) -/

/-- The kind with which a write is refused by the page lock: 3 Locked, 4 Bad key; none where it passes. -/
def State.lockKind (s : State) (lvl : Nat) (t : PageType) (i o : Nat) (w : Word) : Option Nat :=
  if t = .hamper ∨ t = .qw then none
  else
    let lock := s.on (F.LOCK t i)
    let perm := s.on (F.PERM t i)
    if o = 0x020 then
      if getBits w 0 0 = 0 ∧ (lock || perm) = true then
        (if getBits w 31 16 = 0x4B59 ∧ perm = false then none else some 4)
      else none
    else if (lock || perm) && (decide (o = 0x004) || decide (0x040 ≤ o)) && !(decide (t = .prot) && decide (lvl = 0)) then some 3
    else none

/-! ### Range checking (R110) -/

/-- A page whose registers can be written before READY (R93, R110). -/
def PageType.early (t : PageType) : Bool :=
  decide (t = .sys) || decide (t = .host) || decide (t = .prot) || decide (t = .irq)

/-- A page on which a page reset and EN at 0 are refused (R89, R104). -/
def PageType.noReset (t : PageType) : Bool :=
  decide (t = .sys) || decide (t = .clk) || decide (t = .pwr) || decide (t = .irq) || decide (t = .prot)
def PageType.noDisable (t : PageType) : Bool := t.noReset || decide (t = .host)

/-- The fields of the register at offset `o`, and whether it holds RWX fields. -/
def fieldsAt (t : PageType) (o : Nat) : List FieldSpec := match findReg (regsOf t) o with | some (r, _) => r.fields | none => []
def hasRwx (t : PageType) (o : Nat) : Bool := (fieldsAt t o).any fun f => decide (f.acc = .rwx)

/-- The register at offset `o` is not writable at Basic level: it holds RWX fields (R9), or writable fields in the Expert part
of a LANE page (R236). -/
def expertOnly (t : PageType) (o : Nat) : Bool :=
  hasRwx t o || (decide (t = .lane) && decide (0x400 ≤ o) && (fieldsAt t o).any fun f => decide (f.acc ≠ .ro))

/-- Reasons from the stated range of each field: 3 for a command value, 0 for another (R110). -/
def fieldReasons (l : List FieldSpec) (w : Word) : List Nat :=
  l.filterMap fun f =>
    let v := getBits w f.hi f.lo
    let bad := decide (v < f.vmin) || decide (f.vmax < v)
    match f.acc with
    | .rw | .rws | .rwx => if bad then some 0 else none
    | .wo => if bad then some 3 else none
    | _ => none

/-- A reason where a condition holds. -/
def why (c : Bool) (reason : Nat) : List Nat := if c then [reason] else []

/-- A wake source is enabled in a word of WAKE_CFG (R79, R80). -/
def wakeSource (w : Word) : Bool := decide (getBits w 15 8 ≠ 0) || decide (getBits w 2 0 ≠ 0)

/-- One valid entry of FILT_TABLE (R200). -/
def filtBad (lo hi : Word) : Bool :=
  let l := getBits lo 20 0
  let h := getBits hi 20 0
  decide (getBits lo 31 31 = 1) && (decide (h < l) ||
    (if getBits lo 30 30 = 0 then decide (l < 144) || decide (983040 < h) else decide (l < 1452000) || decide (1492000 < h)))

/-- A frequency within R478. -/
def probeHzOk (f : Nat) : Bool :=
  (decide (144000 ≤ f) && decide (f ≤ 983040000)) || (decide (1452000000 ≤ f) && decide (f ≤ 1492000000))

/-- Reasons of R532 for a calibration: `rfin` tells on which devices the page of CAL_INPUT is enabled. -/
def State.calReasons (s : State) (w : Word) (rfin : BitVec 4) : List Nat :=
  let here := s.en .rfin (getBits w 1 0)
  why (getBits w 31 31 = 1 && (decide (s.rd F.PROBE_CFG_MODE ≠ 2) || decide (s.rd F.PROBE_SWEEP_POINTS ≠ 1) || s.probing || !here ||
    [1, 2, 3].any fun d => s.reaches d && !bit rfin.toNat d)) 4

/-- Reasons that a register has of its own: constraints between fields, states, derived fields frozen at Expert level. -/
def State.ownReasons (s : State) (lvl : Nat) (t : PageType) (i o : Nat) (w : Word) (rfin : BitVec 4) : List Nat :=
  let f := getBits w
  match t with
  | .sys => why (decide (o = 0x060) && decide (f 7 0 ≠ 0xA5) && decide (f 7 0 ≠ 0x5A)) 3
  | .pwr =>
    if o = 0x040 then why (decide (f 1 0 = 0) && !wakeSource (s.reg F.PWR_WAKE_CFG_QSPI_EN.addr)) 4
    else if o = 0x048 then why (decide (s.rd F.PWR_STATE_REQ_HOST_REQ = 0) && !wakeSource w) 4
    else if o = 0x05C then why (decide (f 7 0 < f 15 8 + 5)) 2
    else []
  | .time => if o = 0x090 then (s.itinReason w).toList else why (s.itinHolds o) 4
  | .twi =>
    if o = 0x060 then
      why (decide (f 22 16 = s.rd F.SYS_STRAP_TWI_TADDR)) 2 ++ why (decide (f 31 31 = 1) && s.on F.TWI_CTL_STAT_BUSY) 4
    else if o = 0x064 then why (s.isExpert .twi && decide (f 1 0 ≠ s.rd F.TWI_CTL_CFG_SPEED)) 5
    else []
  | .host =>
    let idle := !s.on F.SYS_BOOT_STAT_WAIT_HOST || decide (s.rd F.HOST_IMG_STAT_STATE = 2)
    if o = 0x060 then why (decide (f 17 0 % 4 ≠ 0)) 0 ++ why idle 4
    else if o = 0x064 then why (decide (f 0 0 = 1) && idle) 4 ++ why (decide (f 1 1 = 1) && decide (s.rd F.HOST_IMG_STAT_STATE = 2)) 4
    else if 0x800 ≤ o then
      why (decide (s.rd F.HOST_IMG_STAT_STATE ≠ 1) || decide (s.rd F.HOST_IMG_LEN_BYTES ≤ s.rd F.HOST_IMG_STAT_RX_BYTES)) 4
    else []
  | .sched =>
    why (decide (o = 0x04C) && (s.on F.SCHED_STAT_BUSY || ((decide (f 31 28 = 1) || decide (f 31 28 = 2)) && !(s.queue (f 22 16)).live))) 4
  | .store =>
    if o = 0x048 then (s.storeCmdReason w).toList
    else if o = 0x050 then why (decide (f 19 0 % 2048 ≠ 0)) 0
    else if 0x080 ≤ o ∧ o < 0x100 ∧ o % 8 = 0 then (s.basketReason ((o - 0x080) / 8) w).toList
    else []
  | .aud =>
    if o = 0x040 then
      why (s.audRun i) 4 ++ why ((decide (f 17 16 < 2) && decide (f 27 26 ≠ 0)) || (decide (f 24 24 = 1) && decide (f 20 20 = 1))) 2
    else if o = 0x044 then why (decide (2 ^ s.audSlots i ≤ f 15 0)) 2
    else []
  | .rfin =>
    if 0x070 ≤ o ∧ o < 0x090 then
      (if o % 8 = 0 then why (filtBad w (s.reg (t.base i + o + 4))) 2 else why (filtBad (s.reg (t.base i + o - 4)) w) 2)
    else if o = 0x0A4 then why (decide (f 26 16 ≤ f 10 0)) 2
    else []
  | .probe =>
    why (s.probing && (decide (o = 0x040) || decide (o = 0x044) || decide (o = 0x048) || decide (o = 0x04C) ||
      (decide (0x800 ≤ o) && decide (o < 0x840)))) 4 ++
    (if o = 0x044 then why (!probeHzOk (f 31 0)) 0
     else if o = 0x054 then (if f 0 0 = 1 ∧ f 1 1 = 0 then s.probeGoReason.toList else [])
     else if 0x840 ≤ o then why (decide (f 31 31 = 1) && (decide (f 7 0 < 20) || decide (80 < f 7 0))) 0
     else [])
  | .casc =>
    if o = 0x060 then why (decide (s.role ≠ 0)) 4
    else if o = 0x064 then why (decide (f 23 0 % 4 ≠ 0)) 0
    else if o = 0x070 then if s.role ≠ 0 then [4] else s.calReasons w rfin
    else if 0x0A0 ≤ o ∧ o < 0x0C0 then (s.xreqReason ((o - 0x0A0) / 4) (decide (f 31 31 = 1)) (f 25 24) (f 22 16) (f 15 12)).toList
    else []
  | .lane =>
    if o = 0x428 then why (decide (f 0 0 = 1) && s.applyBad i) 2
    else if 0x800 ≤ o then why (decide (s.rd (F.LANE_STAT_ACTIVE_BANK i) = b2n (decide (0xA00 ≤ o)))) 4
    else []
  | .ofdm => why (decide (o = 0x050) && s.isExpert .ofdm i && decide (f 1 0 ≠ getBits (s.reg (t.base i + o)) 1 0)) 5
  | .ana =>
    if o = 0x400 then why (decide (f 31 24 ≤ f 23 16)) 2
    else if o = 0x404 ∨ o = 0x408 then why (decide (f 23 16 < f 31 24 + 3)) 2
    else []
  | .data =>
    if o = 0x088 then why (decide (f 15 0 % 2048 ≠ 0)) 0
    else if o = 0x08C then (s.ntcAckReason w).toList
    else if o = 0x100 then (s.keyProgReason lvl w).toList
    else []
  | .hamper =>
    if 0x100 ≤ o then [4]
    else if o = 0x01C then why (decide (f 31 16 % 4 ≠ 0) || decide (f 15 0 % 4 ≠ 0)) 0
    else if o = 0x024 then why (decide (7 < f 27 24)) 0
    else if o = 0x02C then why (decide (w ≠ 0) && (decide (w.toNat < 1000) || decide (10000000 < w.toNat))) 0
    else []
  | .qw =>
    if o = 0x044 then
      let c := f 15 0
      if c = 0 ∨ (s.queue i).pubWords < c then [0]
      else why (releaseWords (s.queue i).pkts c).isNone 2
    else []
  | _ => []

/-- Every reason for which a write to an assigned word of a page or of the two windows of words is rejected (R104, R105,
R108, R110). -/
def State.pageReasons (s : State) (lvl : Nat) (t : PageType) (i o : Nat) (w : Word) (rfin : BitVec 4) : List Nat :=
  if s.rstBusy t i then [4]
  else why (!s.ready && !t.early) 4 ++
  (if t ≠ .hamper ∧ t ≠ .qw ∧ o < 0x40 then
    (if o = 0x004 then
      why ((t.noDisable && decide (getBits w 0 0 = 0)) || (t.noReset && decide (getBits w 1 1 = 1)) ||
        (!t.expert && decide (getBits w 8 8 = 1))) 6
     else [])
   else if expertOnly t o && !s.isExpert t i then [1]
   else fieldReasons (fieldsAt t o) w ++ s.ownReasons lvl t i o w rfin)

/-- Every reason for which a write is rejected under range checking; a write through the SRAM window to bank 49 has reason
State (R100). -/
def State.rangeReasons (s : State) (lvl a : Nat) (w : Word) (rfin : BitVec 4) : List Nat :=
  if isSram a then why (!s.ready || decide (bankAddr 49 ≤ a)) 4
  else match pageOf a with
    | some (t, i, o) => s.pageReasons lvl t i o w rfin
    | none => []

/-- The reason that is recorded: of several, spec/ does not say which, and a free value chooses (assumption 1). -/
def State.pickReason (s : State) (l : List Nat) : Nat × State :=
  match l.eraseDups with
  | [r] => (r, s)
  | l => (l.getD (s.take.1.toNat % l.length) 0, s.take.2)

end Sys2Proof.Machine
end

