-- ==== Sys2Proof/Machine/Rf.lean ====
section
/-! DEFINITION. RF inputs: gain, calibration, filter selection and antenna supply (R186 to R207). -/
namespace Sys2Proof.Machine
open Sys2Proof

/-- A level difference in quarter dB as whole dB, halves upward. (assumption 5) -/
def roundDb (d4 : Int) : Int := (d4 + 2) / 4

/-- A value limited to plus or minus `m`. -/
def limitDb (m : Nat) (d : Int) : Int := max (-(m : Int)) (min m d)

/-- TARGET minus the RMS level, in quarter dB (R190). -/
def State.agcError (s : State) (i : Nat) (rms4 : Int) : Int := -4 * (s.rd (F.RFIN_GAIN_CTRL_TARGET i) : Int) - rms4

/-- AGC_WINDOW_END (R190, R192, R201, R561): LEVEL is updated, and in Fast the step of the window applies at this
boundary; a difference below 1 dB makes none, and after an overload the step is −FAST_MAX. An input in Hold gives no
result. The difference is tested before it is rounded (assumption 94). -/
def execAgcWindowEnd (i : Fin 4) (rms4 : Int) (s : State) : Host.Outcome State Fault Refusal :=
  .next <| s.whenUp fun s =>
    if s.inputHeld i then s
    else
      let s1 := s.updRf i fun r => { r with rms4 := rms4, est4 := some (rms4 - 4 * s.gain i) }
      let d4 := s.agcError i rms4
      if s.rd (F.RFIN_GAIN_STAT_AGC_STATE i) = 1 ∧ (s.rfi i).gainDue = some .fast then
        (s1.updRf i fun r => { r with gainDue := none }).stepGain i (-(s.rd (F.RFIN_AGC_LOOP_FAST_MAX i) : Int))
      else if s.rd (F.RFIN_GAIN_STAT_AGC_STATE i) = 1 ∧ 4 ≤ d4.natAbs then
        s1.stepGain i (limitDb (s.rd (F.RFIN_AGC_LOOP_FAST_MAX i)) (roundDb d4))
      else s1

/-- AGC_STEP_SLOT (R191, R193): in Frozen, a difference above HYST steps G; an overload slot at the same boundary
makes one step with it, the more negative of the two. -/
def execAgcStepSlot (i : Fin 4) (rms4 : Int) (s : State) : Host.Outcome State Fault Refusal :=
  .next <| s.whenUp fun s =>
    if s.inputHeld i || decide (s.rd (F.RFIN_GAIN_STAT_AGC_STATE i) ≠ 2) then s
    else
      let d4 := s.agcError i rms4
      let reg : Option Int :=
        if 2 * s.rd (F.RFIN_AGC_LOOP_HYST i) < d4.natAbs then
          some (limitDb (s.rd (F.RFIN_AGC_LOOP_STEP_MAX i)) (roundDb d4)) else none
      let ovl : Option Int :=
        if (s.rfi i).gainDue = some .overload then some (-(s.rd (F.RFIN_OVL_CFG_OVL_STEP i) : Int)) else none
      let s := s.updRf i fun r => { r with gainDue := if r.gainDue = some .overload then none else r.gainDue }
      match reg, ovl with
      | some a, some b => s.stepGain i (min a b)
      | some a, none => s.stepGain i a
      | none, some b => s.stepGain i b
      | none, none => s

/-- OVERLOAD (R192): a window of 1024 samples with more than OVL_COUNT at full scale. In Fast and Frozen a negative
step waits for the next common boundary; otherwise the overload is only reported. -/
def execOverload (i : Fin 4) (full : Nat) (recent : Bool) (s : State) : Host.Outcome State Fault Refusal :=
  .next <|
    if !s.sampling || !s.rootOk || decide (s.rate i = 0) || !s.en .rfin i then s
    else if full ≤ s.rd (F.RFIN_OVL_CFG_OVL_COUNT i) then s.level .rfin C.RFIN_OVERLOAD false i
    else
      let s := ((s.level .rfin C.RFIN_OVERLOAD true i).raise .rfin C.RFIN_OVERLOAD i).sat (F.RFIN_OVL_EVENTS i)
      let st := s.rd (F.RFIN_GAIN_STAT_AGC_STATE i)
      if st = 1 then s.updRf i fun r => { r with gainDue := some .fast }
      else if st = 2 ∧ recent = false then s.updRf i fun r => { r with gainDue := some .overload }
      else s

/-- GAIN_STEP_APPLY (R187, R192 to R194): at a common boundary the waiting step takes effect. A step of the AGC that no
longer fits its state is dropped; a manual step that falls in Hold is left to the end of the calibration. -/
def execGainStepApply (i : Fin 4) (s : State) : Host.Outcome State Fault Refusal :=
  .next <|
    let st := s.rd (F.RFIN_GAIN_STAT_AGC_STATE i)
    let due := (s.rfi i).gainDue
    if s.rootOk then
      let s1 := s.updRf i fun r => { r with gainDue := none }
      if s.inputHeld i then s1
      else match due with
        | some .fast => if st = 1 then s1.stepGain i (-(s.rd (F.RFIN_AGC_LOOP_FAST_MAX i) : Int)) else s1
        | some .overload => if st = 2 then s1.stepGain i (-(s.rd (F.RFIN_OVL_CFG_OVL_STEP i) : Int)) else s1
        | some .manual => if st = 0 then s1.manualGain i else s1
        | none => s1
    else s

/-- CALIBRATION_DONE (R194 to R196): a pass restarts the AGC or puts the manual gain into force, a failure powers the
input down; PLACE is told, and a further calibration asked for meanwhile starts. -/
def execCalibrationDone (i : Fin 4) (res : CalResult) (s : State) : Host.Outcome State Fault Refusal :=
  .next <|
    match (if s.rootOk then (s.rfi i).cal else .idle) with
    | .idle => s
    | ph =>
      let s := s.updRf i fun r => { r with cal := .idle }
      let s :=
        match res with
        | .pass =>
          let s := ((s.wr (F.RFIN_CAL_RESULT i) 1).wr (F.RFIN_CAL_CAL_OK i) 1).raise .rfin C.RFIN_CAL_DONE i
          let s := { s.updRf i fun r => { r with gainDue := none, measured := some s.free } with free := s.free + 35 }
          let s := if s.on (F.RFIN_GAIN_CTRL_MODE i) then s.manualGain i else s.startAgc i
          ((s.markInput i false).lanesSync).trigger
        | r =>
          let s := (s.wr (F.RFIN_CAL_RESULT i) (if r = .adcFault then 2 else 3)).wr (F.RFIN_CAL_CAL_OK i) 0
          (((s.raise .rfin C.RFIN_CAL_FAIL i).holdInput i).level .rfin C.RFIN_OVERLOAD false i).lanesSync.trigger true
      if ph = .again then s.startCal i else s

/-- FILT_SEL_CHANGE (R198, R199): at a common boundary the code and zone asked for are applied; with a new code the SETTLE
interval begins, and a change of zone calibrates the input as a rate commit does. -/
def execFiltSelChange (i : Fin 4) (s : State) : Host.Outcome State Fault Refusal :=
  .next <|
    match (if s.rootOk then (s.rfi i).filtDue else none) with
    | some w =>
      let code := s.rd (F.RFIN_FILT_CTRL_CODE i)
      let zone := s.rd (F.RFIN_FILT_CTRL_ZONE2 i)
      let s := (s.wr (F.RFIN_FILT_CTRL_CODE i) w.1).wr (F.RFIN_FILT_CTRL_ZONE2 i) w.2
      let settle := decide (w.1 ≠ code) && decide (0 < s.rd (F.RFIN_FILT_CTRL_SETTLE i))
      let s := s.updRf i fun r => { r with filtDue := none, settling := r.settling || settle }
      let s := s.when settle fun s => s.markInput i false
      if w.2 ≠ zone ∧ s.calibrates ∧ s.rate i ≠ 0 ∧ s.en .rfin i then s.startCal i else s
    | none => s

/-- FILT_SETTLE_END (R199, R229): the marked interval ends, and the lanes run the final count of the same event. -/
def execFiltSettleEnd (i : Fin 4) (s : State) : Host.Outcome State Fault Refusal :=
  .next <| s.whenUp fun s =>
    if (s.rfi i).settling then s.updRf i fun r => { r with settling := false } else s

/-- A short found on the antenna supply (R203): the output goes low, with a retry while RETRY_LEFT allows one. -/
def State.antShort (s : State) (i : Nat) : State :=
  let again := decide (0 < s.rd (F.RFIN_ANT_STAT_RETRY_LEFT i))
  let s := s.wr (F.RFIN_ANT_STAT_FAULT i) (if again then 2 else 3)
  let s := s.updRf i fun r => { r with retryDue := again, retrying := false }
  (((s.level .rfin C.RFIN_ANT_OPEN false i).level .rfin C.RFIN_ANT_SHORT true i).raise .rfin C.RFIN_ANT_SHORT i).antEval i

/-- FAULT returns to 0 (R203): ANT_CLEAR is raised and the level causes end. -/
def State.antClear (s : State) (i : Nat) : State :=
  let s := s.wr (F.RFIN_ANT_STAT_FAULT i) 0
  ((s.level .rfin C.RFIN_ANT_OPEN false i).level .rfin C.RFIN_ANT_SHORT false i).raise .rfin C.RFIN_ANT_CLEAR i

/-- A judged reading at or below SHORT_MV (R203). -/
def State.antInRange (s : State) (i mv : Nat) : State :=
  let openMv := s.rd (F.RFIN_ANT_THR_OPEN_MV i)
  let low := decide (0 < openMv) && decide (mv < openMv)
  let s := s.updRf i fun r =>
    { r with shortRun := 0, okRun := if r.retrying then r.okRun + 1 else 0,
             openRun := if low then r.openRun + 1 else 0, inRun := if low then 0 else r.inRun + 1 }
  let r := s.rfi i
  let s := if r.retrying ∧ 2 ≤ r.okRun then
      ((s.updRf i fun r => { r with retrying := false, okRun := 0 }).antClear i).wr (F.RFIN_ANT_STAT_RETRY_LEFT i)
        (s.rd (F.RFIN_ANT_CTRL_RETRIES i))
    else s
  let f := s.rd (F.RFIN_ANT_STAT_FAULT i)
  if f = 0 ∧ 32 ≤ r.openRun then
    (s.wr (F.RFIN_ANT_STAT_FAULT i) 1).level .rfin C.RFIN_ANT_OPEN true i
  else if f = 1 ∧ 32 ≤ r.inRun then s.antClear i
  else s

/-- ANT_SENSE_SAMPLE (R203): a reading every 100 microseconds while the output is high, shown in SENSE_MV and judged
once the blanking has ended. -/
def execAntSenseSample (i : Fin 4) (mv : Nat) (s : State) : Host.Outcome State Fault Refusal :=
  .next <| s.whenUp fun s =>
    if s.on (F.RFIN_ANT_STAT_PWR i) then
      let v := min mv 1200
      let s := s.wr (F.RFIN_ANT_STAT_SENSE_MV i) v
      if (s.rfi i).blank then s
      else if s.rd (F.RFIN_ANT_THR_SHORT_MV i) < v then
        let s := s.updRf i fun r => { r with shortRun := r.shortRun + 1, okRun := 0, openRun := 0, inRun := 0 }
        if 2 ≤ (s.rfi i).shortRun then s.antShort i else s
      else s.antInRange i v
    else s

/-- ANT_RETRY (R203): the supply is switched on again and RETRY_LEFT is decremented. -/
def execAntRetry (i : Fin 4) (s : State) : Host.Outcome State Fault Refusal :=
  .next <| s.whenUp fun s =>
    if (s.rfi i).retryDue then
      let s := s.updRf i fun r => { r with retryDue := false, retrying := true }
      (s.wr (F.RFIN_ANT_STAT_RETRY_LEFT i) (s.rd (F.RFIN_ANT_STAT_RETRY_LEFT i) - 1)).antEval i
    else s

/-- ANT_BLANK_END (R203): readings begin to be judged. -/
def execAntBlankEnd (i : Fin 4) (s : State) : Host.Outcome State Fault Refusal :=
  .next <| s.whenUp fun s => s.updRf i fun r => { r with blank := false }

/-! ### Writes and resets of the RFIN page -/

/-- After a write of GAIN_CTRL whose old word is `old` (R194). -/
def State.afterGainCtrl (s : State) (i : Nat) (old : Word) : State :=
  let was := getBits old 24 24
  let changed := decide (getBits old 9 8 ≠ s.rd (F.RFIN_GAIN_CTRL_MAN_LNA i)) ||
    decide (getBits old 4 0 ≠ s.rd (F.RFIN_GAIN_CTRL_MAN_ATT i))
  if s.on (F.RFIN_GAIN_CTRL_MODE i) then
    let s := s.wr (F.RFIN_GAIN_STAT_AGC_STATE i) 0
    if was = 0 ∨ changed then s.updRf i fun r => { r with gainDue := some .manual } else s
  else if was = 1 then
    let s := s.updRf i fun r => { r with gainDue := none }
    if s.inputHeld i then s.wr (F.RFIN_GAIN_STAT_AGC_STATE i) 3 else s.startAgc i
  else s

/-- After RECAL was written 1 (R195): a calibration starts, one more follows the one that runs, or RECAL waits for the
next calibration. In Synth On to Receive it waits for the running one (assumption 95). -/
def State.afterRecal (s : State) (i : Nat) : State :=
  if (s.rfi i).cal = .idle ∧ (s.rate i = 0 ∨ s.en .rfin i = false ∨ s.calibrates = false) then s else s.startCal i

/-- After ANT_CTRL was written (R202, R203). A REARM that clears FAULT 1 leaves the supply on and the runs of consecutive readings
going. (assumption 112) -/
def State.afterAntCtrl (s : State) (i : Nat) : State :=
  let s :=
    if s.on (F.RFIN_ANT_CTRL_REARM i) then
      let s := s.wr (F.RFIN_ANT_CTRL_REARM i) 0
      let s := s.wr (F.RFIN_ANT_STAT_RETRY_LEFT i) (s.rd (F.RFIN_ANT_CTRL_RETRIES i))
      if s.rd (F.RFIN_ANT_STAT_FAULT i) = 0 then s
      else (s.updRf i fun r => { r with retryDue := false, retrying := false, okRun := 0 }).antClear i
    else s
  s.antEval i

/-- After PAGE_CTRL.EN of an RFIN page changed (R195, R205). The return of an input that no calibration holds back triggers a pass
(R244, R254). -/
def State.afterRfEnable (s : State) (i : Nat) : State :=
  let s := if s.en .rfin i then
      (if s.calibrates ∧ s.rate i ≠ 0 then s.startCal i else s.trigger)
    else { s.downInput i with place := { s.place with redo := s.place.redo || s.place.running } }
  (s.lanesSync).antEval i

/-- The activity of an input at a page reset (R205), its fields being at reset already: G goes to minus 31 dB as a
compensated step, both supplies low, and a calibration runs if the rate is not Off. `o` is the state before. The step counts in
OVL.STEPS after the fields are at reset, and raises no GAIN_STEP. (assumption 113) -/
def State.rfPageReset (s : State) (i : Nat) (o : State) : State :=
  let s := { s with rf := tput RfSt.init s.rf i { RfSt.init with measured := (o.rfi i).measured } }
  let d := o.measuredGain i 0 31 - o.measuredGain i (o.rd (F.RFIN_GAIN_STAT_LNA i)) (o.rd (F.RFIN_GAIN_STAT_ATT i))
  let s := if d = 0 then s else ((s.bump (F.RFIN_OVL_STEPS i)).compensate i d).markInput i false
  let s := if s.calibrates ∧ s.rate i ≠ 0 then s.startCal i else s
  s.lanesSync

end Sys2Proof.Machine
end

