-- ==== Sys2Proof/Machine/PageOps.lean ====
section
/-! DEFINITION. Page resets, PAGE_CTRL.EN and LEVEL, page by page (R89, R90, R104 to R109 and the reset rule of each
chapter). -/
namespace Sys2Proof.Machine
open Sys2Proof

/-- The page with index `k` of R98. -/
def pageAt (k : Nat) : Option (PageType × Nat) :=
  (PageType.all.find? fun t => decide (t.map.2.2 ≤ k) && decide (k < t.map.2.2 + t.map.2.1)).map fun t => (t, k - t.map.2.2)

/-! ### What a page reset keeps (R90) -/

/-- Bits of the register at offset `o` of a page that a page reset keeps beside RWS fields, LOCK and PERM: what R90 and the
chapter's reset rule name, and fields that report what the reset does not change. -/
def pageKeep (t : PageType) (o : Nat) : Nat :=
  let all := 0xFFFFFFFF
  match t with
  | .time =>
    if o = 0x04C then bitMask 31 25 + bitMask 23 23
    else if o = 0x050 ∨ o = 0x054 ∨ o = 0x058 ∨ (0x070 ≤ o ∧ o ≤ 0x078) ∨ (0x0A0 ≤ o ∧ o < 0x0C0) ∨ 0x800 ≤ o then all else 0
  | .mem => if 0x800 ≤ o then all else 0
  | .twi => if o = 0x0B4 then bitMask 31 24 else 0
  | .sched => if o = 0x044 then bitMask 15 0 else if 0xC00 ≤ o ∧ o % 8 = 0 then bitMask 31 31 else 0
  | .casc =>
    if o = 0x044 ∨ o = 0x050 ∨ (0x090 ≤ o ∧ o < 0x0A0) ∨ (0x0C0 ≤ o ∧ o < 0x0E0) then all
    else if o = 0x048 ∨ o = 0x04C then bitMask 31 16 else 0
  | .clus => if o = 0x040 ∨ o = 0x04C then all else 0
  | .lane => if o = 0x040 ∨ o = 0x044 then all else 0
  | _ => 0

/-- Bits of the register at offset `o` that survive a page reset. -/
def pageMask (t : PageType) (o : Nat) : Nat :=
  if o = 0x020 then 3
  else pageKeep t o ||| (match findReg (regsOf t) o with | some (r, _) => r.rwsMask | none => 0)

/-- The registers of a page return to their reset words (R90). -/
def State.wipePage (s : State) (t : PageType) (i : Nat) : State :=
  let b := t.base i
  { s with regs := maskRegs (fun a => if b ≤ a ∧ a < b + 0x1000 then pageMask t (a - b) else 0xFFFFFFFF) s.regs }

/-! ### Activity of a page at its reset -/

/-- What stops before the registers of a page are reset. -/
def State.beforeReset (s : State) (t : PageType) (i : Nat) : State :=
  match t with
  | .time => s.itinStop.cancelStep
  | .aud => s.audHalt i
  | .rfin => if s.rd F.PROBE_CFG_MODE ≠ 1 ∧ s.rd F.PROBE_CFG_INPUT = i ∧ s.en .rfin i = false then s.probeAbort 7 else s
  | .probe => s.probeAbort 7
  | .ofdm => s.engIdle (1 + i)
  | .ana => s.engIdle (17 + i)
  | .fec => s.fecStop
  | .data => s.dataHalt
  | .strm => s.strmStop
  | _ => s

/-- What follows the reset of a page's registers. `o` is the state before the reset. HOST.CFG that changes with it raises
MODE_CHANGED when it takes effect (assumption 92). -/
def State.afterReset (s : State) (o : State) (t : PageType) (i : Nat) : State :=
  match t with
  | .time => { s with time := { s.time with set2 := none, latch := [] } }.timeEval
  | .mem => s.memPageReset
  | .twi =>
    { s with twi := State.reset.twi }
  | .host =>
    let s := if o.boot = .verify true ∨ o.boot = .verify false then s.setReg F.HOST_IMG_STAT_STATE.addr (o.reg F.HOST_IMG_STAT_STATE.addr) else s
    { s with host := { s.host with bufs := [], img := [], cfgDue := decide (s.host.cfg ≠ (s.reg F.HOST_CFG_DUMMY.addr).toNat) } }
  | .sched =>
    let s := { s with sched := { s.sched with trim := none } }
    (s.each (s.sched.queues.map (·.1)) State.clearHwm).publishAll
  | .strm => { s with sched := { s.sched with cfg := (s.reg F.STRM_CFG_DIV.addr).toNat, cfgDue := false } }.strmEval
  | .store => s.storePageReset (o.rd F.STORE_STAT_STATE) (o.rd F.STORE_CAP_TOTAL_MIB)
  | .aud => ((s.updAud i fun a => { AudSt.init with feeds := a.feeds }).goEval).audEval i
  | .rfin => (s.rfPageReset i o).filtEval i
  | .probe => s.advance
  | .casc =>
    let stat := s.reg F.CASC_STAT_INDEX.addr
    let s := s.cascRole.setReg F.CASC_STAT_INDEX.addr stat
    { s with probe := { s.probe with cal := false } }.linksEval
  | .lane => s.loseLane i
  | .ofdm => s.showEngines.lostEng (1 + i)
  | .ana => s.showEngines.lostEng (17 + i)
  | .fec => { s with fec := { s.fec with combRun := [] } }.fecEval.trigger
  | .adec =>
    let s := { s with adec := { s.adec with hams := [] } }
    s.each ((s.place.live.hams.filter fun x => decide (x.1 < 128) && x.2.adec.isSome).map (·.1)) fun s h =>
      s.wr (F.ADEC_HSTAT0_ENGINE h) ((s.ham h).adec.getD 0)
  | .place =>
    (s.each (List.range 128) fun s n =>
      (if (s.fol n).sw.isSome then s.wr (F.PLACE_FOLLOW_W0_STATE n) (o.rd (F.PLACE_FOLLOW_W0_STATE n)) else s).showFollow n).trigger
  | .data => s.dataPageReset
  | _ => s

/-- A change of LEVEL is reported (R109, R128). -/
def State.levelEvent (s : State) (t : PageType) (i : Nat) : State :=
  (s.wr F.SYS_EVENT_PAGE_LEVEL_PAGE (t.map.2.2 + i)).raise .sys C.SYS_LEVEL_CHANGED

/-- A page reset is requested (R105): the block's activity stops as its chapter says and its registers take their reset
values; SOFT_RST and RST_BUSY read 1 until it completes. -/
def State.pageReset (s : State) (t : PageType) (i : Nat) : State :=
  let o := s
  let s := (s.beforeReset t i).wipePage t i
  let s := s.afterReset o t i
  let s := if o.isExpert t i then s.levelEvent t i else s
  (s.wr (F.PAGE_SOFT_RST t i) 1).wr (F.PAGE_RST_BUSY t i) 1

/-! ### PAGE_CTRL.EN (R106 and the enable rule of each chapter) -/

/-- What comes before EN of a page changes to 1. -/
def State.beforeEnable (s : State) (t : PageType) (i : Nat) : State :=
  if t = .rfin ∧ s.rd F.PROBE_CFG_MODE ≠ 1 ∧ s.rd F.PROBE_CFG_INPUT = i then s.probeAbort 7 else s

/-- What a change of EN does. -/
def State.afterEnable (s : State) (t : PageType) (i : Nat) (on : Bool) : State :=
  match t with
  | .time => if on then s.timeEval else s.loseSource
  | .mem => if on then { s with memT := { s.memT with stop := false } }.showTest else s.testHalt
  | .sched => s.publishAll
  | .strm => s.strmEval
  | .store =>
    if on ∧ s.rd F.STORE_STAT_STATE = 0 ∧ s.ready = true then s.wr F.STORE_STAT_STATE 1 else s
  | .aud => if on then s.audEval i else s.audHalt i
  | .rfin => s.afterRfEnable i
  | .probe => if on then s else (s.probeAbort 7).advance
  | .lane => if on then s.trigger else s.loseLane i
  | .ofdm => if on then s.trigger else (s.engIdle (1 + i)).lostEng (1 + i)
  | .ana => if on then s.trigger else (s.engIdle (17 + i)).lostEng (17 + i)
  | .fec => if on then s.trigger else s.fecStop.trigger true
  | .adec => s.trigger (!on)
  | .place => if on then s.trigger else s.abandonBlends
  | .data => if on then s else s.dataHalt
  | _ => s

/-- EN of a page takes a value. -/
def State.setEnable (s : State) (t : PageType) (i : Nat) (on : Bool) : State :=
  if s.en t i = on then s
  else (((if on then s.beforeEnable t i else s).wr (F.PAGE_EN t i) (b2n on))).afterEnable t i on

/-! ### PAGE_CTRL.LEVEL (R108, R109) -/

/-- The SCL counts of a speed (R172). -/
def sclCounts (speed : Nat) : Nat × Nat := [(260, 232), (70, 53), (27, 23)].getD speed (260, 232)

/-- SCL_TIMING follows SPEED at Basic level (R172). -/
def State.deriveScl (s : State) : State :=
  let c := sclCounts (s.rd F.TWI_CTL_CFG_SPEED)
  (s.wr F.TWI_SCL_TIMING_SCL_LOW c.1).wr F.TWI_SCL_TIMING_SCL_HIGH c.2

/-- X_EQ follows EQ_CFG at Basic level (R305, R307). -/
def State.deriveEq (s : State) (e : Nat) : State :=
  (s.wr (F.OFDM_X_EQ_ASSIST e) (if s.on (F.OFDM_EQ_CFG_DQPSK_MODE e) then 8 else 0)).wr (F.OFDM_X_EQ_TIME_INT e)
    (s.rd (F.OFDM_EQ_CFG_TIME_INT e))

/-- The staged rates follow PLACE at Basic level (R58): what differs from the rates in use is committed. -/
def State.deriveRates (s : State) : State :=
  let rates := s.place.live.rates
  let s := s.each (List.range 4) fun s i => s.wr ⟨F.CLK_SAMP_STAGE_RATE0.addr, 2 * i + 1, 2 * i⟩ (rates.getD i 0)
  if 2 ≤ s.radio ∧ (List.range 4).map s.rate ≠ rates then s.wr F.CLK_DIV_COMMIT_COMMIT 1 else s

/-- The Expert fields of a lane follow its Basic fields (R108, R210, R220): the derived chain waits for the next common
boundary, and a bank that holds coefficients of the host gives way to the preset table. At rate Off the chain is idle (assumption 91). -/
def State.deriveLane (s : State) (n : Nat) : State :=
  let preset := s.rd (F.LANE_ASSIGN_PRESET n)
  let input := s.rd (F.LANE_ASSIGN_INPUT n)
  let rate := s.rate input
  let c := if rate = 0 then { Chain.idle with input := input }
    else if preset = 0 then s.idleChain n
    else deriveChain preset input (s.rd (F.LANE_FREQ_FREQ_HZ n)) rate
  let s := ((s.showChain n c).wr (F.LANE_X_TRIM_HOLD n) 0).updLane n fun l => { l with due := true }
  let active := s.rd (F.LANE_STAT_ACTIVE_BANK n)
  let code := s.startCode n preset
  let l := s.lane n
  let same := l.run && decide (l.preset = preset) && decide (l.chain.k = c.k) && decide (l.chain.h = c.h) &&
    decide (l.chain.ratio = c.ratio)
  if preset = 0 then s
  else if same && decide ((if active = 0 then l.bank0 else l.bank1).taps ≠ []) then s.askSwap n preset code
  else s.loadBank n (1 - active) preset code

/-- Mask of the RWX bits of a register row. -/
def RegSpec.rwxMask (r : RegSpec) : Nat := r.fields.foldl (fun m f => if f.acc = .rwx then m + bitMask f.hi f.lo else m) 0

/-- Expert → Basic (R109): every Expert field is derived again; those that no Basic field feeds take their reset values. -/
def State.rederive (s : State) (t : PageType) (i : Nat) : State :=
  match t with
  | .clk => (s.setReg F.CLK_LOCK_DET_QUAL_CYCLES.addr (resetWord F.CLK_LOCK_DET_QUAL_CYCLES.addr)).deriveRates
  | .twi => s.deriveScl
  | .lane => s.deriveLane i
  | t =>
    let b := t.base i
    let keep (a : Nat) : Nat :=
      if b ≤ a ∧ a < b + 0x1000 then
        maskSub 0xFFFFFFFF (match findReg (regsOf t) (a - b) with | some (r, _) => r.rwxMask | none => 0)
      else 0xFFFFFFFF
    let s := { s with regs := maskRegs keep s.regs }
    if t = .ofdm then s.deriveEq i else s

/-- Lane `n` serves a chain none of whose users pins it with effect (R210, R257). -/
def State.laneUnpinned (s : State) (n : Nat) : Bool :=
  s.place.live.chains.any fun c => c.lanes.contains n &&
    !(s.place.live.users c.id).any fun h => ((pinLanes (s.pinsOf (s.ham h))).getD []).contains n

/-- A LEVEL write of initiator level `lvl` that changes LEVEL. A lane at Expert level is lost to a chain that does not pin it
(R210). -/
def State.setLevel (s : State) (lvl : Nat) (t : PageType) (i : Nat) (expert : Bool) : State :=
  if s.isExpert t i = expert then s
  else
    let s := ((s.wr (F.PAGE_LEVEL t i) (b2n expert)).wr F.SYS_EVENT_PAGE_LEVEL_INIT lvl).levelEvent t i
    let s := if expert then s else s.rederive t i
    if t = .lane ∧ expert = true ∧ s.laneUnpinned i = true then s.lostLane i
    else if t = .lane ∨ t = .place then s.trigger else s

/-! ### Writes of the header (R103, R106, R107) -/

/-- PAGE_CTRL is written: a page reset makes the other bits of the word moot. -/
def State.writeCtrl (s : State) (lvl : Nat) (t : PageType) (i : Nat) (w : Word) : State :=
  if getBits w 1 1 = 1 then s.pageReset t i
  else (s.setLevel lvl t i (decide (getBits w 8 8 = 1))).setEnable t i (decide (getBits w 0 0 = 1))

/-- CAUSE is written (W1C): FORCED clears when no bit is left. -/
def State.writeCause (s : State) (t : PageType) (i : Nat) (w : Word) : State :=
  let c := maskSub (s.rd (F.CAUSE t i)) (getBits w 7 0)
  let s := s.wr (F.CAUSE t i) c
  if c = 0 then s.wr (F.PAGE_FORCED t i) 0 else s

/-- CAUSE_FORCE is written: each bit 1 sets its cause as if the event had occurred. -/
def State.writeForce (s : State) (t : PageType) (i : Nat) (w : Word) : State :=
  let m := getBits w 7 0 &&& t.causeMask
  if m = 0 ∨ s.en t i = false then s
  else (s.each ((List.range 8).filter fun b => bit m b) fun s b => s.raise t b i).wr (F.PAGE_FORCED t i) 1

/-- PAGE_LOCK is written and passes R107. -/
def State.writeLock (s : State) (t : PageType) (i : Nat) (w : Word) : State :=
  (s.wr (F.LOCK t i) (getBits w 0 0)).wr (F.PERM t i) (s.rd (F.PERM t i) ||| getBits w 1 1)

/-- A header register is written. -/
def State.writeHead (s : State) (lvl : Nat) (t : PageType) (i o : Nat) (w : Word) : State :=
  if o = 0x004 then s.writeCtrl lvl t i w
  else if o = 0x010 then s.writeCause t i w
  else if o = 0x014 then s.wr (F.CAUSE_EN t i) (getBits w 7 0)
  else if o = 0x018 then s.writeForce t i w
  else if o = 0x020 then s.writeLock t i w
  else s

end Sys2Proof.Machine
end

