-- ==== Sys2Proof/Machine/BusWrite.lean ====
section
/-! DEFINITION. The register bus: what a checked write does, register by register, and the read and write accesses of an
initiator (R99 to R118). -/
namespace Sys2Proof.Machine
open Sys2Proof

/-! ### What a write does beside storing its word -/

/-- SYS registers (R42, R89, R94): the setting of PPS_FLT before the write, `old`, stays in force for an edge that is in the
filter. -/
def State.sysWrite (s : State) (o : Nat) (old w : Word) : State :=
  if o = 0x050 then { s with pins := { s.pins with ppsOld := (getBits old 23 20 :: s.pins.ppsOld).take 15 } }
  else if o = 0x060 then
    if getBits w 7 0 = 0x5A then s.warmReset F.SYS_RESET_CAUSE_HOST_CMD
    else { s with pwr := { s.pwr with wdogWarned := false } }
  else if o = 0x068 then { s with pwr := { s.pwr with wdogWarned := false } }
  else s

/-- CLK registers (R53, R68). -/
def State.clkWrite (s : State) (o : Nat) (w : Word) : State :=
  if o = 0x048 then s.wr F.CLK_ROOT_STAT_SEED_LOADED 0
  else if o = 0x064 ∧ getBits w 1 1 = 1 then s.wr F.CLK_XO_STAT_XO_FAIL 0
  else s

/-- An unfence request of cluster `c` is judged reason by reason (R86). -/
def State.unfenceReq (s : State) (c : Nat) : State :=
  let s := if bit (s.rd F.PWR_FENCE_FAULT) c then s.liftFence c true else s
  if bit (s.rd F.PWR_FENCE_THERM) c && !s.on F.PWR_THERM_CFG_AUTO_UNFENCE &&
      decide (getBits (s.reg F.PWR_TEMP_CLUS0.addr) (8 * c + 7) (8 * c) ≤ s.rd F.PWR_THERM_CFG_UNFENCE) then s.liftFence c false
  else s

/-- PWR registers (R74, R83, R86): UNFENCE clears once the requests have been judged. -/
def State.pwrWrite (s : State) (o : Nat) (w : Word) : State :=
  if o = 0x040 then s.retarget
  else if o = 0x064 then
    let s := (s.wr F.PWR_CLUS_CTRL_UNFENCE 0).each ((List.range 4).filter fun c => bit (getBits w 7 4) c) State.unfenceReq
    s.clusEvalAll
  else s

/-- TIME registers (R432, R438, R449, R453, R508): `old` is the word before. -/
def State.timeWrite (s : State) (o : Nat) (old w : Word) : State :=
  if o = 0x06C then
    let sec : Nat := s.rd F.TIME_SET_SEC_LO_SEC_LO + s.rd F.TIME_SET_SEC_HI_SEC_HI * 2 ^ 32
    if getBits w 1 0 = 1 then s.loadTime sec (s.rd F.TIME_SET_NS_NS) 3 (getBits w 23 8 * 1000) false
    else { s with time := { s.time with set2 := some (sec, getBits w 23 8) } }
  else if o = 0x070 then
    if getBits old 7 0 = getBits w 7 0 then s else s.raise .time C.TIME_UTC_CHANGE
  else if o = 0x07C then
    let s := if (s.time.casc && !s.on F.TIME_CFG_CASC_EN) || (!s.time.casc && !s.on F.TIME_CFG_PPS_EN) then s.loseSource else s
    s.timeEval
  else if o = 0x084 ∨ o = 0x088 then s.alarmEval
  else if o = 0x090 then s.afterItinCtrl w
  else if 0x800 ≤ o ∧ o < 0xC00 then
    let k := 64 * ((o - 0x800) / 0x200) + (o - 0x800) % 0x200 / 8
    { s with memT := { s.memT with badItin := s.memT.badItin.filter fun e => decide (e ≠ k) } }
  else s

/-- MEM registers (R506). -/
def State.memWrite (s : State) (o : Nat) (old w : Word) : State :=
  if o = 0x040 then
    if getBits w 30 30 = 1 then { s with memT := { s.memT with stop := false } }.showTest
    else if getBits old 30 30 = 1 then s.testHalt else s
  else s

/-- A controller transfer ends with a result (R174). -/
def State.ctlEnd (s : State) (result : Nat) : State :=
  let s := ((s.wr F.TWI_CTL_CMD_START 0).wr F.TWI_CTL_STAT_BUSY 0).wr F.TWI_CTL_STAT_RESULT result
  ({ s with twi := { s.twi with ctl := .idle } }).raise .twi C.TWI_CTL_DONE

/-- Byte `k` of CTL_TXBUF: the first in bits [31:24] of word 0 (R170). -/
def State.txByte (s : State) (k : Nat) : Nat := s.rd ⟨(F.TWI_CTL_TXBUF_BYTES (k / 4)).addr, 31 - 8 * (k % 4), 24 - 8 * (k % 4)⟩

/-- START of a controller transfer is written (R170, R171). ADDR, the lengths and the write bytes are taken from this instant on
(assumption 50). -/
def State.ctlStart (s : State) (w : Word) : State :=
  let s := s.setReg F.TWI_CTL_STAT_BUSY.addr 0
  if s.on F.TWI_RECOV_STAT_STUCK then s.ctlEnd 7
  else { s.wr F.TWI_CTL_STAT_BUSY 1 with twi := { s.twi with ctl := .waiting, ctlWr := getBits w 5 0, ctlRd := getBits w 13 8, ctlAddr := getBits w 22 16, ctlTx := (List.range (getBits w 5 0)).map s.txByte } }

/-- The port watches the bus for 10 microseconds (R175). -/
def State.watchBus (s : State) : State :=
  if s.twi.recov = .idle then { s with twi := { s.twi with recov := .watch } } else s

/-- TWI registers (R108, R170, R172, R175). -/
def State.twiWrite (s : State) (o : Nat) (w : Word) : State :=
  if o = 0x060 then (if getBits w 31 31 = 1 then s.ctlStart w else s)
  else if o = 0x064 then (if s.isExpert .twi then s else s.deriveScl)
  else if o = 0x0B0 then (if getBits w 0 0 = 1 then s.watchBus else s)
  else s

/-- The last byte of the image has been received (R154). -/
def State.imgEval (s : State) : State :=
  if s.rd F.HOST_IMG_STAT_STATE = 1 ∧ 0 < s.rd F.HOST_IMG_LEN_BYTES ∧ s.rd F.HOST_IMG_LEN_BYTES = s.rd F.HOST_IMG_STAT_RX_BYTES then
    { (s.wr F.HOST_IMG_STAT_STATE 2).raise .host C.HOST_IMG_RX with boot := .verify false }
  else s

/-- HOST.CFG as it stands in the register takes effect: MODE_CHANGED (R145). -/
def State.applyHostCfg (s : State) : State :=
  { s with host := { s.host with cfg := (s.reg F.HOST_CFG_DUMMY.addr).toNat, cfgDue := false } }.raise .host C.HOST_MODE_CHANGED

/-- HOST registers (R145, R153, R154, R157). A write that changes HOST.CFG waits for the end of the QSPI frame in progress,
if there is one (`frame`). What an ABORT leaves in RX_BYTES the spec does not say: it stands until START (assumption 90). -/
def State.hostWrite (s : State) (o : Nat) (w : Word) (frame : Bool) : State :=
  if o = 0x040 then
    if (s.reg F.HOST_CFG_DUMMY.addr).toNat = s.host.cfg then { s with host := { s.host with cfgDue := false } }
    else if frame then { s with host := { s.host with cfgDue := true } }
    else s.applyHostCfg
  else if o = 0x054 then (if getBits w 0 0 = 1 then s.setReg F.HOST_COUNT_FRAMES.addr 0 else s)
  else if o = 0x060 then s.imgEval
  else if o = 0x064 then
    let s := (s.wr F.HOST_IMG_CTRL_ABORT 0).wr F.HOST_IMG_CTRL_START 0
    let s := if getBits w 1 1 = 1 ∧ s.rd F.HOST_IMG_STAT_STATE = 1 then
        { s.wr F.HOST_IMG_STAT_STATE 0 with host := { s.host with img := [] } }
      else s
    if getBits w 0 0 = 1 then
      { (s.wr F.HOST_IMG_STAT_STATE 1).wr F.HOST_IMG_STAT_RX_BYTES 0 with host := { s.host with img := [] } }
    else s
  else if 0x800 ≤ o then
    ({ s.wr F.HOST_IMG_STAT_RX_BYTES (s.rd F.HOST_IMG_STAT_RX_BYTES + 4) with
      host := { s.host with img := s.host.img ++ [w.toNat] } }).imgEval
  else s

/-- SCHED registers (R463, R464, R476). -/
def State.schedWrite (s : State) (o : Nat) (w : Word) : State :=
  if o = 0x04C then
    if getBits w 31 28 = 1 then s.startTrim (getBits w 22 16)
    else if getBits w 31 28 = 2 then s.clearHwm (getBits w 22 16)
    else s.each (List.range 128) State.clearHwm
  else if 0x800 ≤ o ∧ o < 0xA00 then s.publishQueue ((o - 0x800) / 4)
  else s

/-- AUD registers (R380 to R394). -/
def State.audWrite (s : State) (i o : Nat) (old w : Word) : State :=
  if o = 0x040 then s.afterAudCfg i
  else if o = 0x044 then s.afterAudMask i
  else if o = 0x048 then s.afterAudMute i (getBits old 7 0)
  else if o = 0x04C then s.afterAudCtrl i
  else if o = 0x084 ∧ getBits w 0 0 = 1 then s.afterAudGo
  else s

/-- RFIN registers (R194, R195, R197, R203). -/
def State.rfinWrite (s : State) (i o : Nat) (old w : Word) : State :=
  if o = 0x040 then s.afterGainCtrl i old
  else if o = 0x050 then (if getBits w 0 0 = 1 then s.afterRecal i else s)
  else if o = 0x060 then (if s.on (F.RFIN_FILT_CTRL_MODE i) || decide (getBits old 0 0 = 1) then s.filtChoose i else s)
  else if o = 0x0A0 then s.afterAntCtrl i
  else s

/-- PROBE registers (R484, R488, R489). -/
def State.probeWrite (s : State) (o : Nat) (w : Word) (pow : Powers) : State :=
  if o = 0x054 then
    let running := decide (s.rd F.PROBE_STAT_STATE ≠ 0)
    if getBits w 1 1 = 1 then
      (if running then (s.probeAbort 6).advance else (s.wr F.PROBE_CMD_GO 0).wr F.PROBE_CMD_ABORT 0)
    else if getBits w 0 0 = 1 then s.probeStart pow else s
  else s

/-- GO of a calibration is written on the master (R532): a probe command that cannot run counts as aborted. -/
def State.calGo (s : State) (pow : Powers) : State :=
  let s := { s with probe := { s.probe with cal := true } }
  match s.probeGoReason with
  | none => s.probeStart pow
  | some _ => s.endCal 3

/-- CASC registers (R522, R524, R529, R532). -/
def State.cascWrite (s : State) (o : Nat) (old w : Word) (pow : Powers) : State :=
  if o = 0x040 then s.linksEval
  else if o = 0x060 then
    (if getBits w 31 31 = 1 ∧ getBits old 31 31 = 0 then s.tunnelStart else s)
  else if o = 0x070 then (if getBits w 31 31 = 1 ∧ getBits old 31 31 = 0 then s.calGo pow else s)
  else if 0x0A0 ≤ o ∧ o < 0x0C0 then (s.wr (F.CASC_XREQ_STATE ((o - 0x0A0) / 4)) 0).xreqEval []
  else s

/-- LANE registers (R211, R221, R225). -/
def State.laneWrite (s : State) (i o : Nat) (w : Word) : State :=
  if o = 0x41C then s.setDelay i (decide (getBits w 15 15 = 1)) (getBits w 13 0)
  else if 0x800 ≤ o then
    let k := (o - 0x800) % 0x200 / 4
    let put (b : BankSt) : BankSt := { b with taps := tput 0x40000 b.taps k (getBits w 17 0) }
    s.updLane i fun l => if o < 0xA00 then { l with bank0 := put l.bank0 } else { l with bank1 := put l.bank1 }
  else s

/-- PLACE registers (R245, R348). -/
def State.placeWrite (s : State) (o : Nat) (w : Word) : State :=
  if 0x050 ≤ o ∧ o < 0x060 then (if w = 0 then s else s.trigger)
  else if o = 0x080 then s.each (List.range 128) State.showFollow
  else s

/-- DATA registers (R419, R422, R423). -/
def State.dataWrite (s : State) (o : Nat) (old w : Word) : State :=
  if o = 0x088 then (if getBits old 15 0 = getBits w 15 0 then s else s.wr F.DATA_NTC_STAT_READY 0)
  else if o = 0x08C then s.afterNtcAck w
  else if o = 0x100 then s.afterKeyProg w
  else s

/-- What follows a performed write to a page register or to the words of a window. -/
def State.afterWrite (s : State) (t : PageType) (i o : Nat) (old w : Word) (x : Facts) : State :=
  match t with
  | .sys => s.sysWrite o old w
  | .clk => s.clkWrite o w
  | .pwr => s.pwrWrite o w
  | .time => s.timeWrite o old w
  | .prot =>
    if o = 0x050 then (if getBits w 0 0 = 1 then s.setReg F.PROT_COUNT_ACCESS.addr 0 else s)
    else if 0x800 ≤ o ∧ s.reg (t.base i + o) ≠ old then s.raise .prot C.PROT_ART_CHANGED else s
  | .mem => s.memWrite o old w
  | .twi => s.twiWrite o w
  | .host => s.hostWrite o w x.frame
  | .sched => s.schedWrite o w
  | .strm => if o = 0x040 then { s with sched := { s.sched with cfgDue := true } } else s
  | .store =>
    if o = 0x048 then s.afterStoreCmd w
    else if 0x080 ≤ o ∧ o < 0x100 ∧ o % 8 = 0 then s.afterBasket ((o - 0x080) / 8) else s
  | .aud => s.audWrite i o old w
  | .rfin => s.rfinWrite i o old w
  | .probe => s.probeWrite o w x.pow
  | .casc => s.cascWrite o old w x.pow
  | .lane => s.laneWrite i o w
  | .ofdm => if o = 0x050 ∧ s.isExpert .ofdm i = false then s.deriveEq i else s
  | .place => s.placeWrite o w
  | .data => s.dataWrite o old w
  | .fec => if o = 0x04C then s.berEval else s
  | .qw => if o = 0x044 then s.releaseQueue i (getBits w 15 0) else s
  | _ => s

/-! ### The word a write stores (R9) -/

/-- Each field of a register by its access code: RW, RWS and RWX take the written bits, W1S sets, W1C clears, RO and WO keep. -/
def mergeWord (fs : List FieldSpec) (old w : Word) : Word :=
  fs.foldl (fun v f =>
    let a := getBits old f.hi f.lo
    let b := getBits w f.hi f.lo
    match f.acc with
    | .rw | .rws | .rwx => putBits v f.hi f.lo b
    | .w1s => putBits v f.hi f.lo (a ||| b)
    | .w1c => putBits v f.hi f.lo (maskSub a b)
    | _ => v) old

/-- The word stored at a page register: entry 5 of the Access Rights Table keeps bits 1:0 at 1, only entry 80 of its last
word exists (R114, R116), and REFCLK_EN is RO on a slave (R536). -/
def State.writtenWord (s : State) (t : PageType) (o : Nat) (old w : Word) : Word :=
  let v := mergeWord (fieldsAt t o) old w
  match t with
  | .prot => if o = 0x804 then v ||| 0x300 else if o = 0x850 then v &&& 0xFF else v
  | .casc => if o = 0x040 ∧ s.role ≠ 0 then putBits v 4 4 (getBits old 4 4) else v
  | _ => v

/-- A write to a page or window register that has passed every check is performed. -/
def State.perform (s : State) (lvl : Nat) (t : PageType) (i o : Nat) (w : Word) (x : Facts) : State :=
  if t ≠ .hamper ∧ t ≠ .qw ∧ o < 0x40 then
    let ends := decide (t = .fec) && decide (o = 0x004) && (decide (getBits w 1 1 = 1) || decide (getBits w 0 0 = 0))
    (if ends then s.vrsCut x.vrs else s).writeHead lvl t i o w
  else
    let a := t.base i + o
    let old := s.reg a
    let s := if (findReg (regsOf t) o).isSome ∧ ¬(t = .lane ∧ 0x800 ≤ o) ∧ ¬(t = .host ∧ 0x800 ≤ o) then
        s.setReg a (s.writtenWord t o old w) else s
    s.afterWrite t i o old w x

/-! ### Accesses of an initiator -/

/-- How a word of a transaction ended for its initiator: performed, refused or rejected, or not performed for an
uncorrectable word (R497). -/
inductive Wrote where
  | done | refused | spoilt
deriving DecidableEq, Repr

/-- A window access meets an uncorrectable word (R497, R498). -/
def State.windowErr (s : State) : State := s.raise .mem C.MEM_WINDOW_ERR

/-- A performed write through the SRAM window: a read-modify-write on port B (R497, R500, R503). -/
def State.sramWrite (s : State) (hits : List MemHit) (a : Nat) (w : Word) : State × Wrote :=
  let (s, bad) := (s.testTouch (wordOf a)).readWord hits 1 (wordOf a)
  if bad then (s.windowErr, .spoilt) else (s.writeHalf hits a w, .done)

/-- A performed write through the Hamper table window: a poisoned half is replaced (R508). -/
def State.hamperWrite (s : State) (hits : List MemHit) (a : Nat) (w : Word) : State :=
  let m := hamperMem a
  let half := 2 * wordOf m + m % 8 / 4
  let (s, _) := (s.testTouch (wordOf m)).readWord hits 1 (wordOf m)
  let v := match pageOf a with | some (t, _, o) => s.writtenWord t o (s.reg a) w | none => w
  let s := s.writeHalf hits m v
  { s with memT := { s.memT with poison := s.memT.poison.filter fun p => decide (p ≠ half) } }

/-- A page counts a write rejected under range checking or its lock (R103). -/
def State.countReject (s : State) (t : PageType) (i : Nat) : State :=
  if t = .hamper ∨ t = .qw ∨ s.rstBusy t i = true then s else s.sat (F.PAGE_REJECTS t i)

/-- One word written by initiator level `lvl` (R111). `r` is the state in which its transaction's first word reached the
bus, whose rights are in force (R113, R115); `x` holds what the world contributes. -/
def State.busWrite (s r : State) (lvl a : Nat) (w : Word) (x : Facts) : State × Wrote :=
  if a % 4 ≠ 0 then (s.refuse lvl a true 2, .refused)
  else if s.reserved lvl a then (s.refuse lvl a true 1, .refused)
  else if r.mayAccess lvl (artIndex a) true = false then (s.refuse lvl a true 0, .refused)
  else match (match pageOf a with | some (t, i, o) => s.lockKind lvl t i o w | none => none) with
    | some kind =>
      let s := match pageOf a with | some (t, i, _) => s.countReject t i | none => s
      (s.refuse lvl a true kind, .refused)
    | none =>
      let why := s.rangeReasons lvl a w x.rfin
      if why ≠ [] then
        let (reason, s) := s.pickReason why
        let s := match pageOf a with | some (t, i, _) => s.countReject t i | none => s
        (s.rangeReject lvl a w reason, .refused)
      else if isSram a then s.sramWrite x.hits a w
      else match pageOf a with
        | some (.hamper, _, _) => (s.hamperWrite x.hits a w, .done)
        | some (t, i, o) => (s.perform lvl t i o w x, .done)
        | none => (s, .done)

/-- What a read finds: the word, whether it was refused, and whether the word is uncorrectable. -/
structure ReadBack where
  word : Word
  refused : Bool
  bad : Bool
deriving DecidableEq, Repr

/-- The word at an address of the SRAM window as it reads: a Hamper whose commit is pending shows it (R261), and the part of bank 49 above the Hamper table has an internal
layout (R100; assumption 2). -/
def State.sramWord (s : State) (a : Nat) : Word :=
  if bankAddr 49 + 0x10000 ≤ a then Config.internalWord (a - bankAddr 49)
  else if bankAddr 49 ≤ a then s.pageWord 0 .hamper ((a - bankAddr 49) / 0x200) ((a - bankAddr 49) % 0x200)
  else s.half a

/-- One word read by initiator level `lvl` (R99, R101, R111, R117, R433, R498). In the cycle of a write by port A it returns the
new data (R499). -/
def State.busRead (s r : State) (lvl a : Nat) (hits : List MemHit) : State × ReadBack :=
  let no (s : State) : State × ReadBack := (s, { word := 0, refused := true, bad := false })
  if a % 4 ≠ 0 then no (s.refuse lvl a false 2)
  else if s.reserved lvl a then no (s.refuse lvl a false 1)
  else if r.mayAccess lvl (artIndex a) false = false then no (s.refuse lvl a false 0)
  else
    match (if isSram a then some a else if 0x60000 ≤ a ∧ a < 0x70000 then some (hamperMem a) else none) with
    | some m =>
      let (s, bad) := (s.testTouch (wordOf m)).readWord hits 1 (wordOf m)
      let s := if bad then s.windowErr else s
      (s, { word := match portAWrite hits (wordOf m) with | some d => half64 d m | none => s.sramWord m, refused := false, bad := bad })
    | none =>
      match pageOf a with
      | some (t, i, o) =>
        let v := s.wordAt lvl t i o
        let s := if t = .time ∧ o = 0x040 ∧ s.rstBusy t i = false then
            { s with time := { s.time with latch := tput 0 s.time.latch lvl s.nowSec } } else s
        (s, { word := v, refused := false, bad := false })
      | none => no s

/-- The facts of a write whose effect needs none of them: no lane reports power, every RFIN page is enabled, no memory word
has an error, no Viterbi/RS block is cut. -/
def Facts.plain : Facts := { pow := [], rfin := 0xF, hits := [], frame := false, vrs := [] }

end Sys2Proof.Machine
end

