-- ==== Sys2Proof/Machine/HostPort.lean ====
section
/-! DEFINITION. The QSPI host port: frames, write buffers and the errors of frames (R132 to R157). -/
namespace Sys2Proof.Machine
open Sys2Proof

/-- The register bus answers an initiator outside the device (R72, R92, R93, R139, R160). -/
def State.answers (s : State) : Bool := s.busUp && decide (s.boot ≠ Boot.warm)

/-! ### Headers (R135 to R138) -/

/-- The bytes that HCRC covers, in wire order. -/
def headBytes (h : FrameHead) : List Nat :=
  [h.cmd.toNat, h.addr.toNat / 0x10000, h.addr.toNat / 0x100 % 0x100, h.addr.toNat % 0x100, h.len.toNat / 0x100, h.len.toNat % 0x100]

/-- OP of CMD: 1 read, 2 write. -/
def headOp (h : FrameHead) : Nat := h.cmd.toNat / 16

/-- Words of the frame. -/
def headWords (h : FrameHead) : Nat := h.len.toNat + 1

/-- The code of R147 with which a header is rejected; none for a valid one (R138). -/
def headError (h : FrameHead) : Option Nat :=
  if crc16 (headBytes h) ≠ h.hcrc.toNat then some 1
  else if ((headOp h) ≠ 1 ∧ (headOp h) ≠ 2) ∨ h.cmd.toNat / 4 % 4 = 3 ∨ h.cmd.toNat % 4 ≠ 0 then some 3
  else if h.addr.toNat % 4 ≠ 0 ∨ (if (headOp h) = 1 then 0xFFF else 0xFF) < h.len.toNat then some 4
  else none

/-! ### Records of a frame (R140, R147) -/

/-- The cause raised with an error of R147. -/
def frameCause (code : Nat) : Nat :=
  if code < 3 then C.HOST_CRC_ERR else if code < 6 then C.HOST_CMD_ERR else if code = 6 then C.HOST_TIMEOUT else C.HOST_OVERRUN

/-- A frame ends with an error of R147, `got` bytes of its header received: counted, the first captured, its cause raised.
Fields that were not received read 0, CMD among them (assumption 93). -/
def State.frameError (s : State) (h : FrameHead) (got code : Nat) : State :=
  let s := s.sat F.HOST_COUNT_ERRORS
  let s :=
    if s.on F.HOST_ERR_CAPT_VALID then s
    else
      let s := s.setReg F.HOST_ERR_CAPT_VALID.addr (BitVec.ofNat 32 (2 ^ 31 + code * 2 ^ 28 + (if 4 ≤ got then h.addr.toNat else 0)))
      s.setReg F.HOST_ERR_HDR_CMD.addr
        (BitVec.ofNat 32 ((if 1 ≤ got then h.cmd.toNat else 0) * 2 ^ 24 + (if 6 ≤ got then h.len.toNat else 0) * 2 ^ 8))
  s.raise .host (frameCause code)

/-- A frame is accepted with a STATUS byte (R135, R157). -/
def State.frameAccepted (s : State) (status : Nat) : State :=
  (s.wr F.HOST_STAT_LAST_STATUS status).bump F.HOST_COUNT_FRAMES

/-- What the port drives in a frame: DATA words, then STATUS and SCRC over both, as far as the host clocks them out (R135). -/
def State.answer (s : State) (words : List Nat) (status : Nat) : State :=
  { s with host := { s.host with resp := words, status := some status, scrc := crc16 (words.flatMap wordBytes ++ [status]) } }

/-- A new frame: the port has driven nothing yet. -/
def State.newFrame (s : State) : State := { s with host := { s.host with resp := [], status := none, scrc := 0 } }

/-! ### Read frames (R142, R149, R151) -/

/-- What a frame has met so far: the words sent, and bits 5 to 2 of STATUS. -/
structure FrameAcc where
  words : List Nat
  late : Bool
  empty : Bool
  bad : Bool
  refused : Bool
deriving DecidableEq, Repr

/-- A queue data word at or beyond the words available (R151). -/
def State.beyond (s : State) (a : Nat) : Bool :=
  match pageOf a with
  | some (.qw, n, o) => decide (0x100 ≤ o) && (s.queueWord n ((o - 0x100) / 4)).isNone
  | _ => false

/-- One word of a read frame; a late word is sent as 0. -/
def State.readFrameWord (r : State) (hits : List MemHit) (late : List Nat) (a k : Nat) (x : State × FrameAcc) : State × FrameAcc :=
  let (s, b) := x.1.busRead r 0 (a + 4 * k) hits
  let isLate := late.contains k
  (s, { words := x.2.words ++ [if isLate then 0 else b.word.toNat], late := x.2.late || isLate,
        empty := x.2.empty || (!b.refused && x.1.beyond (a + 4 * k)), bad := x.2.bad || b.bad, refused := x.2.refused || b.refused })

/-- The first `n` words of a read frame are fetched, in order. -/
def State.readFrame (s : State) (h : FrameHead) (hits : List MemHit) (late : List Nat) (n : Nat) : State × FrameAcc :=
  let r := s
  (List.range n).foldl (fun x k => r.readFrameWord hits late h.addr.toNat k x)
    (s, { words := [], late := false, empty := false, bad := false, refused := false })

/-- The causes that a read frame raises once (R147, R156). -/
def State.frameCauses (s : State) (f : FrameAcc) : State :=
  let s := if f.late then s.raise .host C.HOST_UNDERRUN else s
  if f.empty then s.raise .host C.HOST_WINDOW_EMPTY else s

/-- STATUS of a read frame that was attempted whole (R140). -/
def FrameAcc.status (f : FrameAcc) : Nat :=
  b2n f.late * 32 + b2n f.empty * 16 + b2n f.bad * 8 + b2n f.refused * 4 + 1

/-! ### Write frames (R143, R144) -/

/-- One word of a buffered frame; after a warm reset the rest of the frame is lost. -/
def State.performWord (r : State) (x : Facts) (a : Nat) (y : State × Nat × Nat) (k : Nat × Nat) : State × Nat × Nat :=
  if y.1.boot = Boot.warm then y
  else
    let (s, o) := y.1.busWrite r 0 (a + 4 * k.1) (BitVec.ofNat 32 k.2) x
    (s, y.2.1 + b2n (decide (o = .done)), y.2.2 + b2n (decide (o = .refused)))

/-- The oldest buffered frame is performed, word by word, under the rights in force at its first word (R113, R144). -/
def State.performFrame (s : State) (x : Facts) : State :=
  match s.host.bufs with
  | [] => s
  | (a, l) :: rest =>
    let s := { s with host := { s.host with bufs := rest } }
    let (t, done, refused) := ((List.range l.length).zip l).foldl (State.performWord s x a) (s, 0, 0)
    if t.boot = Boot.warm then t else (t.wr F.HOST_LAST_WR_DONE done).wr F.HOST_LAST_WR_REFUSED refused

/-- Every buffered frame is performed: a read frame waits for the write frames before it (R142). At most two are held. -/
def State.performAll (s : State) (x : Facts) : State := (s.performFrame x).performFrame x

/-! ### Frames -/

/-- A read frame with a valid header runs to its end. -/
def State.readWhole (s : State) (h : FrameHead) (late : List Nat) (x : Facts) : State :=
  let s := s.performAll x
  if s.boot = Boot.warm then s
  else
    let (s, f) := s.readFrame h x.hits late (headWords h)
    ((s.frameCauses f).frameAccepted f.status).answer f.words f.status

/-- A write frame with a valid header and its data (R140, R143): with both buffers full OVERRUN, and STATUS has BUSY; a DCRC
that fails, and STATUS has DCRC_ERR; else it is buffered. -/
def State.takeFrame (s : State) (h : FrameHead) (data : List Word) (dcrc : Nat) : State :=
  if 2 ≤ s.host.bufs.length then (s.frameError h 8 7).answer [] 0x40
  else
    let l := (data.take (headWords h)).map BitVec.toNat
    if crc16 (l.flatMap wordBytes) ≠ dcrc then (s.frameError h 8 2).answer [] 2
    else ({ s with host := { s.host with bufs := s.host.bufs ++ [(h.addr.toNat, l)] } }.frameAccepted 1).answer [] 1

/-- A frame of which only a part arrives: `code` 5 for a truncated one, 6 for a timeout (R146); of a frame that has another
error too, that one is captured and both causes are raised. `words` words of a read frame have been clocked whole, `ahead`
more were fetched ahead (R142), and the words keep what their fetching did; a frame clocked to its last word was complete. -/
def State.cutFrame (s : State) (h : FrameHead) (got words ahead code : Nat) (late : List Nat) (x : Facts) : State :=
  let s := s.newFrame
  if got < 8 then s.frameError h got code
  else match headError h with
    | some e => (s.frameError h 8 e).raise .host (frameCause code)
    | none =>
      if (headOp h) = 2 then
        (if 2 ≤ s.host.bufs.length then (s.frameError h 8 7).raise .host (frameCause code) else s.frameError h 8 code)
      else if (headWords h) ≤ words then s.readWhole h late x
      else
        let s := s.performAll x
        if s.boot = Boot.warm then s
        else
          let (s, f) := s.readFrame h x.hits (late.filter fun k => decide (k ≤ words)) (min (headWords h) (words + ahead))
          let s := (s.frameCauses f).frameError h 8 code
          { s with host := { s.host with resp := f.words.take words } }

/-- A whole frame whose header arrived, answered if the bus is reachable (R139). -/
def State.frame (s : State) (h : FrameHead) (data : List Word) (dcrc : Nat) (late : List Nat) (x : Facts) : State :=
  if s.answers then
    let s := s.newFrame
    match headError h with
    | some e => s.frameError h 8 e
    | none =>
      if (headOp h) = 1 then s.readWhole h late x
      else if data.length < (headWords h) then s.cutFrame h 8 0 0 5 [] x
      else s.takeFrame h data (match data[headWords h]? with | some w => w.toNat / 0x10000 | none => dcrc)
  else s

/-! ### Commands -/

/-- QSPI_READ (R135 to R142, R149 to R151). -/
def execQspiRead (h : FrameHead) (late : List (Fin 4096)) (x : Facts) (s : State) : Host.Outcome State Fault Refusal :=
  .next (s.frame h [] 0 (late.map Fin.val) x)

/-- QSPI_WRITE (R135 to R138, R143). -/
def execQspiWrite (h : FrameHead) (data : List Word) (dcrc : BitVec 16) (s : State) : Host.Outcome State Fault Refusal :=
  .next (s.frame h data dcrc.toNat [] Facts.plain)

/-- WRITE_FRAME_PERFORM (R144). -/
def execWriteFramePerform (x : Facts) (s : State) : Host.Outcome State Fault Refusal :=
  .next (if s.answers then s.performFrame x else s)

/-- QSPI_TRUNCATED (R146, R147). -/
def execQspiTruncated (h : FrameHead) (got : Fin 9) (words : Fin 4097) (ahead : Fin 9) (late : List (Fin 4096)) (x : Facts) (s : State) :
    Host.Outcome State Fault Refusal :=
  .next (if s.answers then s.cutFrame h got words ahead 5 (late.map Fin.val) x else s)

/-- QSPI_SCK_TIMEOUT (R146, R147). -/
def execQspiSckTimeout (h : FrameHead) (got : Fin 9) (words : Fin 4097) (ahead : Fin 9) (late : List (Fin 4096)) (x : Facts) (s : State) :
    Host.Outcome State Fault Refusal :=
  .next (if s.answers then s.cutFrame h got words ahead 6 (late.map Fin.val) x else s)

/-- HOST_CFG_APPLY (R145). -/
def execHostCfgApply (s : State) : Host.Outcome State Fault Refusal :=
  .next <| s.whenUp fun s =>
    if s.host.cfgDue then s.applyHostCfg else s

end Sys2Proof.Machine
end

