-- ==== Sys2Proof/Machine/Time.lean ====
section
/-! DEFINITION. Events of the time base (R431 to R446, R453). -/
namespace Sys2Proof.Machine
open Sys2Proof

/-- Phase error of an edge at time `t`, in ns: the nearest whole second minus the time base (R435). -/
def phaseError (t : Nat) : Int :=
  let r := t % secUnit
  if 2 * r < secUnit then -((r / nsUnit : Nat) : Int) else (((secUnit - r) / nsUnit : Nat) : Int)

/-- A valid edge of PPS_IN at time `t`, `late` units ago (R43, R435, R438): a MODE 2 load that waits sets the time base to
SET_SEC at the edge, so that the filter latency has run since; otherwise the edge gives a phase error. -/
def State.ppsValid (s : State) (t late : Nat) : State :=
  match s.time.set2 with
  | some (sec, unc) =>
    let s := { s with time := { s.time with set2 := none } }.loadUnits (sec * secUnit + late) 3 (unc * 1000) false
    s.sourceEdge false (sec * secUnit) 0
  | none => s.sourceEdge false t (phaseError t)

/-- PPS_EDGE (R39, R42, R43, R434, R435, R438): the edge's instant is the time base less the filter latency. In Sleep, and
without the XO, the ball is ignored. -/
def execPpsEdge (rising : Bool) (writes : Fin 16) (s : State) : Host.Outcome State Fault Refusal :=
  .next <|
    if !s.busUp || !s.en .time || !s.on F.TIME_CFG_PPS_EN || s.usesCascade || decide (rising = s.on F.TIME_CFG_PPS_POL) then s
    else
      let t := s.time.now - s.ppsLatency writes
      let us100 := 100000 * nsUnit
      match s.time.prev with
      | some p =>
        if t < p + secUnit - us100 ∨ p + secUnit + us100 < t then s.sat F.TIME_COUNT_PPS_BAD
        else s.ppsValid t (s.ppsLatency writes)
      | none => s.ppsValid t (s.ppsLatency writes)

/-- PPS_LOSS (R435): no valid edge for LOSS_S. -/
def execPpsLoss (s : State) : Host.Outcome State Fault Refusal := .next <| s.whenUp fun s => if s.usesCascade || !s.en .time then s else s.loseSource

/-- CASCADE_MARKER (R434, R527): a slave takes the master's second, less half the round trip, as source 2; `delayNs` is
that half. -/
def execCascadeMarker (sec : BitVec 48) (uncert : Word) (delayNs : Nat) (s : State) : Host.Outcome State Fault Refusal :=
  .next <| s.whenUp fun s =>
    if !s.en .time || !s.on F.TIME_CFG_CASC_EN || !s.usesCascade then s
    else
      let t := s.time.now - delayNs * nsUnit
      let s := { s with time := { s.time with uncM := uncert.toNat } }
      s.sourceEdge true t ((((sec.toNat * secUnit : Nat) : Int) - t) / nsUnit)

/-- MARKER_LOSS (R527): no marker for LOSS_S. -/
def execMarkerLoss (s : State) : Host.Outcome State Fault Refusal :=
  .next <| s.whenUp fun s => if s.en .time && decide (s.rd F.SYS_STRAP_CASC_ROLE ≠ 0) && (s.time.casc || s.usesCascade) then s.loseSource else s

/-- SLEW_END (R444): the phase error is removed and the rate offset ends. -/
def execSlewEnd (s : State) : Host.Outcome State Fault Refusal :=
  .next <| s.whenUp fun s =>
    if s.on F.TIME_STAT_SLEWING then
      let d := s.time.slew
      ({ s with time := { s.time with slew := 0 } }.moveTime d).wr F.TIME_STAT_SLEWING 0
    else s

/-- TIME_SET_DISCARD (R438): a MODE 2 load pending for 2 s is discarded and counted in PAGE_STAT.REJECTS. -/
def execTimeSetDiscard (s : State) : Host.Outcome State Fault Refusal :=
  .next <| s.whenUp fun s =>
    match s.time.set2 with
    | some _ => { s with time := { s.time with set2 := none } }.sat (F.PAGE_REJECTS .time 0)
    | none => s

/-- UTC_CHANGE (R432): at the first second at or after UTC_AT. -/
def execUtcChange (s : State) : Host.Outcome State Fault Refusal :=
  .next <| s.whenUp fun s =>
    if s.on F.TIME_UTC_NEXT_EN ∧ s.rd F.TIME_UTC_AT_LO_SEC + s.rd F.TIME_UTC_AT_HI_SEC * 2 ^ 32 ≤ s.nowSec then
      ((s.wr F.TIME_UTC_OFS (s.rd F.TIME_UTC_NEXT_OFS)).wr F.TIME_UTC_NEXT_EN 0).raise .time C.TIME_UTC_CHANGE
    else s

/-- THERMOS_LEARN (R441): the entry of the present range moves by one eighth of its difference from the average `avg` of
the correction, in ppb. Fractions are dropped downward, and the entry keeps within its 16 bits. (assumption 7) -/
def execThermosLearn (avg : BitVec 24) (s : State) : Host.Outcome State Fault Refusal :=
  .next <| s.whenUp fun s =>
    if s.rd F.TIME_STAT_STATE = 3 then
      let c := s.rd F.PWR_TEMP_SYS_CENTRE
      let k := if c < 24 then 0 else min 15 ((c - 24) / 10)
      let v := ofField 16 (s.rd (F.TIME_THERMOS_PPB k))
      let v := max (-32768) (min 32767 (v + (ofField 24 avg.toNat - v) / 8))
      (s.wr (F.TIME_THERMOS_PPB k) (toField 16 v)).wr (F.TIME_THERMOS_LEARNED k) 1
    else s

/-- TIME_STEP_APPLY (R445). -/
def execTimeStepApply (s : State) : Host.Outcome State Fault Refusal := .next <| s.whenUp State.applyStep

/-- TIME_ALARM (R453). -/
def execTimeAlarm (s : State) : Host.Outcome State Fault Refusal := .next <| s.whenUp fun s => s.alarmEval

end Sys2Proof.Machine
end

