-- ==== Sys2Proof/Machine/Twi.lean ====
section
/-! DEFINITION. The two-wire port: target, controller, bus recovery, In-Band Requests and ALERT_N (R158 to R185). -/
namespace Sys2Proof.Machine
open Sys2Proof

/-! ### Target (R160 to R169) -/

/-- A target error: counted, the first captured with the pointer (R163, R185). -/
def State.twiError (s : State) (code : Nat) : State :=
  let s := s.sat F.TWI_TGT_COUNT_ERRORS
  if s.on F.TWI_TGT_ERR_VALID then s
  else s.setReg F.TWI_TGT_ERR_VALID.addr (BitVec.ofNat 32 (2 ^ 31 + code * 2 ^ 24 + s.rd F.TWI_TGT_PTR_PTR))

/-- The port cannot serve a transfer: PAGE_CTRL.EN at 0, a page reset or the boot after a warm reset runs (R160). -/
def State.twiBusy (s : State) : Bool := !s.en .twi || s.rstBusy .twi 0 || s.warmBoot

/-- A START has been seen and no STOP since, or a STOP (R185). -/
def State.putStarted (s : State) (on : Bool) : State := { s with twi := { s.twi with started := on } }

/-- The address byte of a transaction, for the PEC (R159, R167). -/
def State.twiAddr (s : State) (read : Bool) : Nat := 2 * s.rd F.SYS_STRAP_TWI_TADDR + b2n read

/-- The byte pointer moves on (R163). -/
def State.movePtr (s : State) (n : Nat) : State := s.wr F.TWI_TGT_PTR_PTR (s.rd F.TWI_TGT_PTR_PTR + n)

/-- Data bytes of a write as they arrive: `pec` holds the bytes that a PEC covers so far, `word` the bytes of the word that is
not complete. Answers whether a word was performed, an error recorded, and whether bytes are left over (R164, R167). -/
def State.writeBytes (r : State) (x : Facts) : List Nat → List Nat → List Nat → State → Bool → State × Bool × Bool × Bool
  | [], _, word, s, did => (s, did, false, !word.isEmpty)
  | b :: l, pec, word, s, did =>
    let present (s : State) (w : List Nat) : State × Bool :=
      let a := s.rd F.TWI_TGT_PTR_PTR - 4
      let (s, o) := s.busWrite r 2 (if 4 ≤ s.rd F.TWI_TGT_PTR_PTR then a else 2 ^ 24 + s.rd F.TWI_TGT_PTR_PTR - 4)
        (BitVec.ofNat 32 (beNat w)) x
      (s, decide (o = .done))
    if s.boot = Boot.warm then (s, did, false, false)
    else if word.length = 4 then
      if crc8 pec = b then
        let (s, d) := present s word
        r.writeBytes x l (pec ++ [b]) [] s (did || d)
      else (s.twiError 1, did, true, false)
    else
      let s := s.movePtr 1
      let word := word ++ [b]
      if word.length = 4 ∧ s.on F.TWI_CFG_PEC_EN = false then
        let (s, d) := present s word
        r.writeBytes x l (pec ++ [b]) [] s (did || d)
      else r.writeBytes x l (pec ++ [b]) word s did

/-- The word containing TGT_PTR is fetched and kept for the read that follows (R165). -/
def State.fetchAhead (s : State) (x : Facts) : State :=
  let p := s.rd F.TWI_TGT_PTR_PTR
  let (t, w) := s.busRead s 2 (p - p % 4) x.hits
  { t with twi := { t.twi with ahead := some w.word.toNat } }

/-- A write transaction up to its last byte: the pointer, then the words. The last component tells of bytes left over. A
pointer write fetches the word at the pointer at once (R165); that one with data bytes after it fetches none is assumption 49. -/
def State.targetWrite (s : State) (bytes : List Nat) (x : Facts) : State × Bool × Bool × Bool :=
  let s := s.bump F.TWI_TGT_COUNT_TRANSFERS
  match bytes with
  | p :: q :: t :: l =>
    let s := s.wr F.TWI_TGT_PTR_PTR (p * 0x10000 + q * 0x100 + t)
    let s := if l.isEmpty then s.fetchAhead x else { s with twi := { s.twi with ahead := none } }
    s.writeBytes x l [s.twiAddr false, p, q, t] [] s false
  | _ => (s, false, false, false)

/-- Data bytes of a read as they go out (R165, R167): `word` is the current word and `next` the following one, which is
fetched when the first byte of the current word has been delivered; a word that is not ready is sent as 0xFF. `k` counts the
words. With `cut`, one more byte goes out that is not delivered: nothing is fetched for it and the pointer stays. -/
def State.readBytes (r : State) (x : Facts) (late : List Nat) (cut : Bool) :
    Nat → Nat → Nat → Option Nat → List Nat → List Nat → State → State × List Nat
  | 0, k, word, next, _, out, s =>
    if cut then
      let p := s.rd F.TWI_TGT_PTR_PTR
      (if late.contains k ∧ next.isNone then s.twiError 6 else s,
        out ++ [if late.contains k then 0xFF else word / 2 ^ (24 - 8 * (p % 4)) % 256])
    else (s, out)
  | n + 1, k, word, next, pec, out, s =>
    let p := s.rd F.TWI_TGT_PTR_PTR
    let b := if late.contains k then 0xFF else word / 2 ^ (24 - 8 * (p % 4)) % 256
    let s := if late.contains k ∧ next.isNone then s.twiError 6 else s
    let s := s.movePtr 1
    let (s, next) := match next with
      | some v => (s, v)
      | none =>
        let (s, w) := s.busRead r 2 ((p - p % 4 + 4) % 2 ^ 24) x.hits
        (s, w.word.toNat)
    let pec := pec ++ [b]
    let out := out ++ [b]
    if p % 4 = 3 then
      (if s.on F.TWI_CFG_PEC_EN then r.readBytes x late cut n (k + 1) next none (pec ++ [crc8 pec]) (out ++ [crc8 pec]) s
       else r.readBytes x late cut n (k + 1) next none pec out s)
    else r.readBytes x late cut n k word (some next) pec out s

/-- A read transaction that delivers `n` data bytes. Its first word is the one fetched with the pointer, else fetched now. -/
def State.targetRead (s : State) (n : Nat) (late : List Nat) (x : Facts) (cut : Bool := false) : State :=
  let r := s
  let s := s.bump F.TWI_TGT_COUNT_TRANSFERS
  let p := s.rd F.TWI_TGT_PTR_PTR
  let (s, w) := match s.twi.ahead with
    | some w => (s, w)
    | none =>
      let (s, a) := s.busRead r 2 (p - p % 4) x.hits
      (s, a.word.toNat)
  let (s, out) := r.readBytes x late cut n 0 w none [s.twiAddr true] [] s
  { s with twi := { s.twi with sent := out, ahead := none } }

/-- A target transaction arrives: not answered in Sleep and reset, a busy NACK where the port cannot serve it (R160). From its
START on the bus is busy; its end is a STOP (`stop`) or leaves the START standing (R168, R169, R185). -/
def State.asTarget (s : State) (stop : Bool) (f : State → State) : State :=
  if !s.answers then s
  else if s.twiBusy then (s.twiError 4).raise .twi C.TWI_TGT_DONE
  else
    let t := f (s.putStarted true)
    if stop then t.putStarted false else t

/-- A write transaction to its end: bytes left over are discarded (R164). -/
def State.wholeWrite (s : State) (bytes : List (BitVec 8)) (x : Facts) : State :=
  s.asTarget true fun s =>
    let (s, did, err, left) := s.targetWrite (bytes.map BitVec.toNat) x
    let s := if left then s.twiError 2 else s
    if s.boot = Boot.warm then s else if did || err || left then s.raise .twi C.TWI_TGT_DONE else s

/-- TWI_POINTER_WRITE (R162, R163). -/
def execTwiPointerWrite (bytes : List (BitVec 8)) (x : Facts) (s : State) : Host.Outcome State Fault Refusal :=
  .next (s.wholeWrite bytes x)

/-- TWI_REGISTER_WRITE (R162 to R167). -/
def execTwiRegisterWrite (bytes : List (BitVec 8)) (x : Facts) (s : State) : Host.Outcome State Fault Refusal :=
  .next (s.wholeWrite bytes x)

/-- TWI_REGISTER_READ (R165 to R167). TGT_DONE comes with any byte delivered, whether its word ends or not (assumption 84). -/
def execTwiRegisterRead (n : BitVec 16) (late : List Nat) (x : Facts) (s : State) : Host.Outcome State Fault Refusal :=
  .next <| s.asTarget true fun s =>
    let s := s.targetRead n.toNat late x
    if n = 0 then s else s.raise .twi C.TWI_TGT_DONE

/-- SR_AT_ACK (R168): the byte in whose ACK slot the START arrives is not delivered, and the pointer stands where it was before
it. -/
def execSrAtAck (n : BitVec 16) (late : List Nat) (x : Facts) (s : State) : Host.Outcome State Fault Refusal :=
  .next <| s.asTarget false fun s =>
    ((((s.targetRead n.toNat late x true).raise .twi C.TWI_SR_AT_ACK).twiError 5)).raise .twi C.TWI_TGT_DONE

/-- TWI_SCL_TIMEOUT (R169): the transaction is abandoned, and a word not yet presented is discarded. -/
def execTwiSclTimeout (t : TwiPart) (x : Facts) (s : State) : Host.Outcome State Fault Refusal :=
  .next <| s.asTarget false fun s =>
    let s := match t with
      | .write bytes => (s.targetWrite (bytes.map BitVec.toNat) x).1
      | .read n late => s.targetRead n.toNat late x
    if s.boot = Boot.warm then s else (s.twiError 3).raise .twi C.TWI_TGT_DONE

/-! ### Controller (R170 to R174) -/

/-- Bytes read by the controller, in the order of CTL_RXBUF. -/
def State.putRx (s : State) (rx : List (BitVec 8)) : State :=
  s.each ((List.range rx.length).zip rx) fun s (x : Nat × BitVec 8) =>
    s.wr ⟨(F.TWI_CTL_RXBUF_BYTES (x.1 / 4)).addr, 31 - 8 * (x.1 % 4), 24 - 8 * (x.1 % 4)⟩ x.2.toNat

/-- The address byte that the port sends as controller. -/
def TwiSt.ctlByte (t : TwiSt) (read : Bool) : Nat := 2 * t.ctlAddr + b2n read

/-- START, the address and the write bytes of a try of which `wrote` were sent (R170). A transfer that only reads has none. -/
def TwiSt.writeItems (t : TwiSt) (wrote : Nat) : List WireItem :=
  if t.ctlWr = 0 ∧ t.ctlRd ≠ 0 then [] else .start :: .put (t.ctlByte false) :: (t.ctlTx.take wrote).map .put

/-- The read of a try: START, or repeated START after write bytes, the address, and the bytes `rx` read, all but the last asked
for acknowledged (R170). A transfer that only writes has none. -/
def TwiSt.readItems (t : TwiSt) (rx : List (BitVec 8)) : List WireItem :=
  if t.ctlRd = 0 then []
  else
    (if t.ctlWr = 0 then .start else .restart) :: .put (t.ctlByte true) ::
      (((List.range rx.length).zip rx).map fun (k, b) => .take b.toNat (decide (k + 1 < t.ctlRd)))

/-- What a try has put on the bus. -/
def State.putWire (s : State) (l : List WireItem) : State := { s with twi := { s.twi with wire := l } }

/-- The byte counts of a try: at most what was asked for. -/
def State.ctlCounts (s : State) (wrote : Nat) (rx : List (BitVec 8)) : State :=
  let l := rx.take s.twi.ctlRd
  ((s.putRx l).wr F.TWI_CTL_STAT_WR_DONE (min wrote s.twi.ctlWr)).wr F.TWI_CTL_STAT_RD_DONE l.length

/-- A try that stops without a STOP of this port: the counts, and the whole bytes it is known to have put on the bus. -/
def State.ctlCut (s : State) (wrote : Nat) (rx : List (BitVec 8)) : State :=
  let t := s.twi
  let l := rx.take t.ctlRd
  (((s.ctlCounts wrote rx).putWire (if l.isEmpty then (if wrote = 0 then [.start] else t.writeItems wrote) else t.writeItems t.ctlWr ++ t.readItems l))).putStarted true

/-- CTL_TRANSFER_BEGIN (R171): the bus is free for a waiting transfer or retry. -/
def execCtlTransferBegin (s : State) : Host.Outcome State Fault Refusal :=
  .next <|
    if s.twi.ctl = .waiting ∧ s.answers ∧ s.twiBusy = false then
      ({ s with twi := { s.twi with ctl := .active, started := false, wire := [.start] } }).sat F.TWI_CTL_STAT_TRIES
    else s

/-- CTL_BUS_NOT_FREE (R171). TRIES stays 0 where no START was made (assumption 85). -/
def execCtlBusNotFree (s : State) : Host.Outcome State Fault Refusal := .next <| s.whenUp fun s => if s.twi.ctl = .waiting then s.ctlEnd 6 else s

/-- A request can be sent: the port and IBR_CFG are enabled, one is queued, no RETRY interval runs, and no controller transfer
waits or runs (R174, R180). -/
def State.ibrReady (s : State) : Bool :=
  s.answers && !s.twiBusy && s.on F.TWI_IBR_CFG_EN && !s.twi.ibr.isEmpty && !s.twi.ibrHold && decide (s.twi.ctl = .idle)

/-- ARB_LOST (R173, R180): a controller transfer is retried up to RETRY times; an In-Band Request stays queued. -/
def execArbLost (ibr : Bool) (wrote : Fin 33) (rx : List (BitVec 8)) (s : State) : Host.Outcome State Fault Refusal :=
  .next <| s.whenUp fun s =>
    if ibr then (if s.ibrReady then (s.putStarted true).raise .twi C.TWI_ARB_LOST else s)
    else if s.twi.ctl = .active then
      let s := (s.ctlCut wrote rx).raise .twi C.TWI_ARB_LOST
      if s.rd F.TWI_CTL_STAT_TRIES ≤ s.rd F.TWI_CTL_CFG_RETRY then { s with twi := { s.twi with ctl := .waiting } }
      else s.ctlEnd 4
    else s

/-- CTL_NACK (R174): on an address byte, the second one if all bytes are written, or on the data byte after the `wrote`
acknowledged ones; STOP follows. -/
def execCtlNack (addr : Bool) (wrote : Fin 33) (s : State) : Host.Outcome State Fault Refusal :=
  .next <| s.whenUp fun s =>
    if s.twi.ctl = .active then
      let t := s.twi
      let l := if addr then (if t.ctlWr ≤ wrote then t.writeItems t.ctlWr ++ t.readItems [] else t.writeItems 0) else t.writeItems (wrote + 1)
      (((s.ctlCounts wrote []).putWire (l ++ [.stop])).raise .twi C.TWI_CTL_NACK).ctlEnd (if addr then 2 else 3)
    else s

/-- CTL_SCL_HELD (R172). -/
def execCtlSclHeld (wrote : Fin 33) (rx : List (BitVec 8)) (s : State) : Host.Outcome State Fault Refusal :=
  .next <| s.whenUp fun s => if s.twi.ctl = .active then (s.ctlCut wrote rx).ctlEnd 5 else s

/-- CTL_DONE (R174): the whole sequence of R170 with its STOP. -/
def execCtlDone (rx : List (BitVec 8)) (s : State) : Host.Outcome State Fault Refusal :=
  .next <| s.whenUp fun s =>
    if s.twi.ctl = .active then
      let t := s.twi
      ((s.ctlCounts t.ctlWr rx).putWire (t.writeItems t.ctlWr ++ t.readItems (rx.take t.ctlRd) ++ [.stop])).ctlEnd 1
    else s

/-! ### Bus recovery (R175) -/

/-- A recovery sequence ends. -/
def State.recovEnd (s : State) : State := { s.wr F.TWI_RECOVER 0 with twi := { s.twi with recov := .idle } }

/-- A recovery attempt begins, with `left` retries after it. -/
def State.recovAttempt (s : State) (left : Nat) : State :=
  { s.sat F.TWI_RECOV_STAT_ATTEMPTS with twi := { s.twi with recov := .attempt left } }

/-- BUS_RECOVER (R175): the host asks, or a reset has ended; the lines are watched, and a stuck SDA starts an attempt. -/
def execBusRecover (lvl : Option (Fin 4)) (stuck : Bool) (s : State) : Host.Outcome State Fault Refusal :=
  .next <|
    if !s.answers then s
    else
      let s := match lvl with
        | some l => (s.busWrite s l (F.TWI_RECOVER).addr 1 Facts.plain).1
        | none => s.watchBus
      if s.twi.recov = .watch then (if stuck then s.recovAttempt 3 else s.recovEnd) else s

/-- RECOVERY_ATTEMPT_DONE (R175). -/
def execRecoveryAttemptDone (pulses : Fin 10) (freed : Bool) (s : State) : Host.Outcome State Fault Refusal :=
  .next <| s.whenUp fun s =>
    match s.twi.recov with
    | .attempt left =>
      let s := s.wr F.TWI_RECOV_STAT_PULSES pulses
      if freed then ((s.putStarted false).wr F.TWI_RECOV_STAT_STUCK 0).recovEnd
      else
        let s := s.raise .twi C.TWI_BUS_STUCK
        (match left with
         | 0 => (s.wr F.TWI_RECOV_STAT_STUCK 1).recovEnd
         | _ => { s with twi := { s.twi with recov := .wait left } })
    | _ => s

/-- RECOVERY_RETRY (R175): 10 ms after a failed attempt. -/
def execRecoveryRetry (s : State) : Host.Outcome State Fault Refusal :=
  .next <| s.whenUp fun s =>
    match s.twi.recov with
    | .wait left => s.recovAttempt (left - 1)
    | _ => s

/-! ### In-Band Requests and ALERT_N (R179 to R183) -/

/-- IBR_SEND (R179, R180): declined, the request stays queued for RETRY; accepted, its byte is sent, and 0xFF for each of the
`extra` bytes the controller clocks further. -/
def execIbrSend (ack : Bool) (extra : BitVec 8) (s : State) : Host.Outcome State Fault Refusal :=
  .next <| s.whenUp fun s =>
    if s.ibrReady then
      match s.twi.ibr with
      | c :: l =>
        let head : List WireItem := [.start, .put (s.twiAddr true)]
        if ack then
          let b := b2n (!l.isEmpty) * 128 + c
          let s := { s with twi := { s.twi with ibr := l, started := false, wire := head ++ WireItem.put b :: List.replicate extra.toNat (WireItem.put 0xFF) } }
          ((s.wr F.TWI_IBR_LAST_BYTE b).bump F.TWI_IBR_STAT_SENT).raise .twi C.TWI_IBR_DONE
        else { s with twi := { s.twi with ibrHold := true, started := false, wire := head } }
      | [] => s
    else s

/-- IBR_SCL_TIMEOUT (R180): the request stays queued and is tried again after RETRY. -/
def execIbrSclTimeout (s : State) : Host.Outcome State Fault Refusal :=
  .next <| s.whenUp fun s => if s.ibrReady then { s with twi := { s.twi with ibrHold := true, started := false } } else s

/-- IBR_RETRY (R180): the RETRY interval has elapsed. -/
def execIbrRetry (s : State) : Host.Outcome State Fault Refusal := .next <| s.whenUp fun s => { s with twi := { s.twi with ibrHold := false } }

/-- ARA_READ (R182, R183): answered while ALERT_N is asserted; the reply byte is the port's own address with bit 0 at 0, and a win
clears the alert owed. -/
def execAraRead (win : Bool) (s : State) : Host.Outcome State Fault Refusal :=
  .next <|
    if s.answers && s.alertPin && win && !s.rstBusy .twi 0 then
      { s with twi := { s.twi with alertOwed := false, sent := [s.twiAddr false] } }.raise .twi C.TWI_ARA_DONE
    else s

end Sys2Proof.Machine
end

