-- ==== Sys2Proof/Machine/WriteCmds.lean ====
section
/-! DEFINITION. Commands that are one register write or read of an initiator at its own address (R111 to R118), and the
tunnel of the cascade on its target (R524). `lvl` is the level of the initiator (R112). -/
namespace Sys2Proof.Machine
open Sys2Proof

/-- A word with one field set to `v`. -/
def fieldWord (f : Fld) (v : Nat) : Word := putBits 0 f.hi f.lo v

/-- One register write of an initiator; without effect while the bus answers no initiator (R72, R92, R93). The management
controller never writes certain words (R120). -/
def State.write (s : State) (lvl a : Nat) (w : Word) (x : Facts) : State :=
  if s.answers && !mgmtNever lvl a then (s.busWrite s lvl a w x).1 else s

/-- Field `f` of its register written with `v`, the register's other bits with 0. -/
def State.writeField (s : State) (lvl : Nat) (f : Fld) (v : Nat) : State := s.write lvl f.addr (fieldWord f v) Facts.plain

/-- REGISTER_WRITE (R110). -/
def execRegisterWrite (lvl : Fin 4) (a : BitVec 24) (w : Word) (x : Facts) (s : State) : Host.Outcome State Fault Refusal :=
  .next (s.write lvl a.toNat w x)

/-! ### SYS, CLK, PWR and IRQ -/

/-- WARM_RESET_CMD (R89, R92). -/
def execWarmResetCmd (lvl : Fin 4) (s : State) : Host.Outcome State Fault Refusal :=
  .next (s.writeField lvl F.SYS_RESET_CMD_CMD 0x5A)

/-- WATCHDOG_RESTART (R94). -/
def execWatchdogRestart (lvl : Fin 4) (s : State) : Host.Outcome State Fault Refusal :=
  .next (s.writeField lvl F.SYS_RESET_CMD_CMD 0xA5)

/-- DIV_COMMIT (R58). -/
def execDivCommit (lvl : Fin 4) (s : State) : Host.Outcome State Fault Refusal := .next (s.writeField lvl F.CLK_DIV_COMMIT_COMMIT 1)

/-- XO_FAIL_CLEAR (R52, R68). -/
def execXoFailClear (lvl : Fin 4) (s : State) : Host.Outcome State Fault Refusal := .next (s.writeField lvl F.CLK_XO_STAT_CLEAR 1)

/-- STATE_REQUEST_WRITE (R74, R79). -/
def execStateRequestWrite (lvl req : Fin 4) (s : State) : Host.Outcome State Fault Refusal :=
  .next (s.writeField lvl F.PWR_STATE_REQ_HOST_REQ req)

/-- UNFENCE_REQUEST (R86): IDLE_OFF keeps its value. -/
def execUnfenceRequest (lvl : Fin 4) (mask : BitVec 4) (s : State) : Host.Outcome State Fault Refusal :=
  .next (s.write lvl F.PWR_CLUS_CTRL_UNFENCE.addr
    (putBits (fieldWord F.PWR_CLUS_CTRL_UNFENCE mask.toNat) 0 0 (s.rd F.PWR_CLUS_CTRL_IDLE_OFF)) Facts.plain)

/-- INT_CFG_WRITE (R124, R130). -/
def execIntCfgWrite (lvl : Fin 4) (w : Word) (s : State) : Host.Outcome State Fault Refusal :=
  .next (s.write lvl F.IRQ_INT_CFG_EN.addr w Facts.plain)

/-- INT_EDGE_GAP_END (R124): INT_N is asserted again. -/
def execIntEdgeGapEnd (s : State) : Host.Outcome State Fault Refusal := .next { s with intGap := false }

/-! ### The page header (R103 to R108, R126) -/

/-- A write to the register of page `page` that holds field `f`. -/
def State.writePage (s : State) (lvl : Nat) (page : Nat) (f : PageType → Nat → Fld) (w : Word)
    (x : Facts := Facts.plain) : State :=
  match pageAt page with
  | some (t, i) => s.write lvl (f t i).addr w x
  | none => s

/-- PAGE_CTRL of page `page` as it reads, with bits changed. -/
def State.pageCtrl (s : State) (page : Nat) (hi lo v : Nat) : Word :=
  match pageAt page with
  | some (t, i) =>
    putBits (putBits (fieldWord (F.PAGE_EN t i) (s.rd (F.PAGE_EN t i))) 8 8 (s.rd (F.PAGE_LEVEL t i))) hi lo v
  | none => 0

/-- PAGE_SOFT_RESET (R105). -/
def execPageSoftReset (lvl : Fin 4) (page : Fin 78) (x : Facts) (s : State) : Host.Outcome State Fault Refusal :=
  .next (s.writePage lvl page F.PAGE_SOFT_RST (s.pageCtrl page 1 1 1) x)

/-- PAGE_RESET_DONE (R105, R175): the page reset is complete. -/
def execPageResetDone (page : Fin 78) (s : State) : Host.Outcome State Fault Refusal :=
  .next <| s.whenUp fun s =>
    match pageAt page with
    | some (t, i) =>
      if s.rstBusy t i then
        let s := (s.wr (F.PAGE_SOFT_RST t i) 0).wr (F.PAGE_RST_BUSY t i) 0
        let s := (s.wr F.SYS_EVENT_PAGE_RESET_PAGE page).raise .sys C.SYS_PAGE_RESET
        if t = .twi then s.watchBus else s
      else s
    | none => s

/-- PAGE_LEVEL_WRITE (R104, R108, R109): EN keeps its value. -/
def execPageLevelWrite (lvl : Fin 4) (page : Fin 78) (expert : Bool) (s : State) : Host.Outcome State Fault Refusal :=
  .next (s.writePage lvl page F.PAGE_LEVEL (s.pageCtrl page 8 8 (b2n expert)))

/-- PAGE_ENABLE_WRITE (R104, R106): LEVEL keeps its value. -/
def execPageEnableWrite (lvl : Fin 4) (page : Fin 78) (on : Bool) (x : Facts) (s : State) : Host.Outcome State Fault Refusal :=
  .next (s.writePage lvl page F.PAGE_EN (s.pageCtrl page 0 0 (b2n on)) x)

/-- PAGE_LOCK_WRITE (R107). -/
def execPageLockWrite (lvl : Fin 4) (page : Fin 78) (w : Word) (s : State) : Host.Outcome State Fault Refusal :=
  .next (s.writePage lvl page F.LOCK w)

/-- CAUSE_CLEAR (R123). -/
def execCauseClear (lvl : Fin 4) (page : Fin 78) (m : BitVec 8) (s : State) : Host.Outcome State Fault Refusal :=
  .next (s.writePage lvl page F.CAUSE (BitVec.ofNat 32 m.toNat))

/-- CAUSE_FORCE (R106, R126). -/
def execCauseForce (lvl : Fin 4) (page : Fin 78) (m : BitVec 8) (s : State) : Host.Outcome State Fault Refusal :=
  .next <|
    match pageAt page with
    | some (t, i) => s.write lvl (t.base i + 0x018) (BitVec.ofNat 32 m.toNat) Facts.plain
    | none => s

/-- CAUSE_ENABLE_WRITE (R106, R122). -/
def execCauseEnableWrite (lvl : Fin 4) (page : Fin 78) (m : BitVec 8) (s : State) : Host.Outcome State Fault Refusal :=
  .next (s.writePage lvl page F.CAUSE_EN (BitVec.ofNat 32 m.toNat))

/-! ### PROT, HOST and TWI -/

/-- ART_WRITE (R115). -/
def execArtWrite (lvl : Fin 4) (k : Fin 21) (w : Word) (s : State) : Host.Outcome State Fault Refusal :=
  .next (s.write lvl (F.PROT_ART_ENTRIES k).addr w Facts.plain)

/-- PROT_COUNT_CLEAR (R131). -/
def execProtCountClear (lvl : Fin 4) (s : State) : Host.Outcome State Fault Refusal := .next (s.write lvl 0x5050 1 Facts.plain)

/-- HOST_COUNT_CLEAR (R157). -/
def execHostCountClear (lvl : Fin 4) (s : State) : Host.Outcome State Fault Refusal := .next (s.write lvl 0x8054 1 Facts.plain)

/-- QUEUE_RELEASE (R152). -/
def execQueueRelease (lvl : Fin 4) (n : Fin 128) (c : BitVec 16) (s : State) : Host.Outcome State Fault Refusal :=
  .next (s.writeField lvl (F.QW_RELEASE_COUNT n) c.toNat)

/-- IMG_START (R153). -/
def execImgStart (lvl : Fin 4) (s : State) : Host.Outcome State Fault Refusal := .next (s.writeField lvl F.HOST_IMG_CTRL_START 1)

/-- IMG_ABORT (R154). -/
def execImgAbort (lvl : Fin 4) (s : State) : Host.Outcome State Fault Refusal := .next (s.writeField lvl F.HOST_IMG_CTRL_ABORT 1)

/-- IMG_FIFO_WRITE (R153, R154). -/
def execImgFifoWrite (lvl : Fin 4) (k : Fin 512) (w : Word) (s : State) : Host.Outcome State Fault Refusal :=
  .next (s.write lvl (F.HOST_IMG_FIFO_WORD k).addr w Facts.plain)

/-- CTL_START (R170, R171). -/
def execCtlStart (lvl : Fin 4) (w : Word) (s : State) : Host.Outcome State Fault Refusal :=
  .next (s.write lvl F.TWI_CTL_CMD_START.addr (putBits w 31 31 1) Facts.plain)

/-! ### Radio inputs, lanes and placement -/

/-- MANUAL_GAIN_WRITE (R193, R194). -/
def execManualGainWrite (lvl i : Fin 4) (w : Word) (s : State) : Host.Outcome State Fault Refusal :=
  .next (s.write lvl (F.RFIN_GAIN_CTRL_MODE i).addr w Facts.plain)

/-- RECAL (R195). -/
def execRecal (lvl i : Fin 4) (s : State) : Host.Outcome State Fault Refusal :=
  .next (s.write lvl (0x10050 + 0x1000 * i) 1 Facts.plain)

/-- ANT_REARM (R203). -/
def execAntRearm (lvl i : Fin 4) (w : Word) (s : State) : Host.Outcome State Fault Refusal :=
  .next (s.write lvl (F.RFIN_ANT_CTRL_REARM i).addr (putBits w 2 2 1) Facts.plain)

/-- LANE_X_APPLY (R211). -/
def execLaneXApply (lvl : Fin 4) (n : Fin 24) (s : State) : Host.Outcome State Fault Refusal :=
  .next (s.write lvl (F.LANE_X_APPLY_SWAP n).addr 1 Facts.plain)

/-- LANE_SWAP (R220). -/
def execLaneSwap (lvl : Fin 4) (n : Fin 24) (s : State) : Host.Outcome State Fault Refusal :=
  .next (s.writeField lvl (F.LANE_X_APPLY_SWAP n) 1)

/-- DELAY_TARGET_WRITE (R225): by an engine, by the cascade, or by an initiator through X_DELAY. -/
def execDelayTargetWrite (n : Fin 24) (who : DelayWriter) (slew : Bool) (target : BitVec 14) (s : State) :
    Host.Outcome State Fault Refusal :=
  .next <|
    match who with
    | .host lvl =>
      s.write lvl (F.LANE_X_DELAY_MODE n).addr (putBits (fieldWord (F.LANE_X_DELAY_MODE n) (b2n slew)) 13 0 target.toNat) Facts.plain
    | _ => s.whenRoot fun s => s.setDelay n slew target.toNat

/-- HAMPER_WRITE (R237 to R242, R508). -/
def execHamperWrite (lvl : Fin 4) (n k : Fin 128) (w : Word) (x : Facts) (s : State) : Host.Outcome State Fault Refusal :=
  .next (s.write lvl (0x60000 + 0x200 * n + 4 * k) w x)

/-- PLACE_COMMIT (R245, R246). -/
def execPlaceCommit (lvl k : Fin 4) (w : Word) (s : State) : Host.Outcome State Fault Refusal :=
  .next (s.write lvl (F.PLACE_COMMIT_HAMPERS k).addr w Facts.plain)

/-! ### Audio ports -/

/-- AUD_MASK_WRITE (R389). -/
def execAudMaskWrite (lvl n : Fin 4) (w : Word) (s : State) : Host.Outcome State Fault Refusal :=
  .next (s.write lvl (F.AUD_SLOT_MASK_MASK n).addr w Facts.plain)

/-- AUD_START (R390). -/
def execAudStart (lvl n : Fin 4) (w : Word) (s : State) : Host.Outcome State Fault Refusal :=
  .next (s.write lvl (F.AUD_CTRL_START n).addr (putBits w 0 0 1) Facts.plain)

/-- AUD_GROUP_GO (R390). -/
def execAudGroupGo (lvl : Fin 4) (s : State) : Host.Outcome State Fault Refusal := .next (s.writeField lvl (F.AUD_GROUP_GO 0) 1)

/-- AUD_STOP (R391). -/
def execAudStop (lvl n : Fin 4) (w : Word) (s : State) : Host.Outcome State Fault Refusal :=
  .next (s.write lvl (F.AUD_CTRL_STOP n).addr (putBits w 2 2 1) Facts.plain)

/-- AUD_MUTE_WRITE (R394). -/
def execAudMuteWrite (lvl n : Fin 4) (w : Word) (s : State) : Host.Outcome State Fault Refusal :=
  .next (s.write lvl (F.AUD_MUTE_PAIRS n).addr w Facts.plain)

/-! ### Data service -/

/-- STORE.CMD written with the operation `op`. -/
def State.writeStoreCmd (s : State) (lvl op : Nat) (w : Word) : State :=
  s.write lvl F.STORE_CMD_OP.addr (putBits w 31 28 op) Facts.plain

/-- STORE_READ (R410). -/
def execStoreRead (lvl : Fin 4) (w : Word) (s : State) : Host.Outcome State Fault Refusal := .next (s.writeStoreCmd lvl 1 w)
/-- STORE_NEXT (R410). -/
def execStoreNext (lvl : Fin 4) (w : Word) (s : State) : Host.Outcome State Fault Refusal := .next (s.writeStoreCmd lvl 2 w)
/-- STORE_DELETE (R410). -/
def execStoreDelete (lvl : Fin 4) (w : Word) (s : State) : Host.Outcome State Fault Refusal := .next (s.writeStoreCmd lvl 3 w)
/-- STORE_TRIM (R410). -/
def execStoreTrim (lvl : Fin 4) (w : Word) (s : State) : Host.Outcome State Fault Refusal := .next (s.writeStoreCmd lvl 4 w)
/-- STORE_FORMAT (R410). -/
def execStoreFormat (lvl : Fin 4) (w : Word) (s : State) : Host.Outcome State Fault Refusal := .next (s.writeStoreCmd lvl 5 w)

/-- BASKET_CFG_WRITE (R409). -/
def execBasketCfgWrite (lvl : Fin 4) (b : Fin 16) (w : Word) (s : State) : Host.Outcome State Fault Refusal :=
  .next (s.write lvl (F.STORE_BASKET_CFG_EN b).addr w Facts.plain)

/-- KEY_PROG written with the operation `op`. -/
def State.writeKeyProg (s : State) (lvl op : Nat) (w : Word) : State :=
  s.write lvl F.DATA_KEY_PROG_OP.addr (putBits w 1 0 op) Facts.plain

/-- KEY_BURN_KEY (R419). -/
def execKeyBurnKey (lvl : Fin 4) (w : Word) (s : State) : Host.Outcome State Fault Refusal := .next (s.writeKeyProg lvl 1 w)
/-- KEY_BURN_LOCK (R419). -/
def execKeyBurnLock (lvl : Fin 4) (w : Word) (s : State) : Host.Outcome State Fault Refusal := .next (s.writeKeyProg lvl 2 w)
/-- KEY_BURN_ADMIN (R419). -/
def execKeyBurnAdmin (lvl : Fin 4) (w : Word) (s : State) : Host.Outcome State Fault Refusal := .next (s.writeKeyProg lvl 3 w)

/-- NOTICE_ACK (R423). -/
def execNoticeAck (lvl : Fin 4) (w : Word) (s : State) : Host.Outcome State Fault Refusal :=
  .next (s.write lvl F.DATA_NTC_ACK.addr w Facts.plain)

/-- NOTICE_OFS_WRITE (R422). -/
def execNoticeOfsWrite (lvl : Fin 4) (w : Word) (s : State) : Host.Outcome State Fault Refusal :=
  .next (s.write lvl F.DATA_NTC_OFS.addr w Facts.plain)

/-! ### Time base and Itinerary -/

/-- TIME_NOW_READ (R433). -/
def execTimeNowRead (lvl : Fin 4) (s : State) : Host.Outcome State Fault Refusal :=
  .next (if s.answers then (s.busRead s lvl F.TIME_NOW_NS_NS.addr []).1 else s)

/-- TIME_SET_NOW (R438). -/
def execTimeSetNow (lvl : Fin 4) (unc : BitVec 16) (s : State) : Host.Outcome State Fault Refusal :=
  .next (s.write lvl F.TIME_SET_CMD_MODE.addr (putBits (fieldWord F.TIME_SET_CMD_UNC_MS unc.toNat) 1 0 1) Facts.plain)

/-- TIME_SET_AT_PPS (R438). -/
def execTimeSetAtPps (lvl : Fin 4) (unc : BitVec 16) (s : State) : Host.Outcome State Fault Refusal :=
  .next (s.write lvl F.TIME_SET_CMD_MODE.addr (putBits (fieldWord F.TIME_SET_CMD_UNC_MS unc.toNat) 1 0 2) Facts.plain)

/-- ITIN_RUN (R449). -/
def execItinRun (lvl : Fin 4) (bank : Fin 2) (s : State) : Host.Outcome State Fault Refusal :=
  .next (s.write lvl F.TIME_ITIN_CTRL_RUN.addr (putBits (fieldWord F.TIME_ITIN_CTRL_START_BANK bank) 31 31 1) Facts.plain)

/-- ITIN_STOP (R449): START_BANK keeps its value. -/
def execItinStop (lvl : Fin 4) (s : State) : Host.Outcome State Fault Refusal :=
  .next (s.writeField lvl F.TIME_ITIN_CTRL_START_BANK (s.rd F.TIME_ITIN_CTRL_START_BANK))

/-- ITIN_SWITCH (R449): RUN at 1, START_BANK keeps its value. -/
def execItinSwitch (lvl : Fin 4) (s : State) : Host.Outcome State Fault Refusal :=
  .next (s.write lvl F.TIME_ITIN_CTRL_RUN.addr
    (putBits (putBits (fieldWord F.TIME_ITIN_CTRL_START_BANK (s.rd F.TIME_ITIN_CTRL_START_BANK)) 31 31 1) 0 0 1) Facts.plain)

/-! ### Queues, probe and cascade -/

/-- SCHED.CMD written with the operation `op` on queue `n`. -/
def State.writeSchedCmd (s : State) (lvl op n : Nat) : State :=
  s.write lvl F.SCHED_CMD_OP.addr (putBits (fieldWord F.SCHED_CMD_QUEUE n) 31 28 op) Facts.plain

/-- SCHED_TRIM (R463). -/
def execSchedTrim (lvl : Fin 4) (n : Fin 128) (s : State) : Host.Outcome State Fault Refusal := .next (s.writeSchedCmd lvl 1 n)
/-- SCHED_HWM_CLEAR (R476). -/
def execSchedHwmClear (lvl : Fin 4) (n : Fin 128) (s : State) : Host.Outcome State Fault Refusal := .next (s.writeSchedCmd lvl 2 n)
/-- SCHED_HWM_CLEAR_ALL (R476). -/
def execSchedHwmClearAll (lvl : Fin 4) (s : State) : Host.Outcome State Fault Refusal := .next (s.writeSchedCmd lvl 3 0)

/-- PROBE_GO (R484): `pow` is what the lanes report. -/
def execProbeGo (lvl : Fin 4) (pow : Powers) (s : State) : Host.Outcome State Fault Refusal :=
  .next (s.write lvl F.PROBE_CMD_GO.addr (fieldWord F.PROBE_CMD_GO 1) { Facts.plain with pow := pow })

/-- PROBE_ABORT (R488). -/
def execProbeAbort (lvl : Fin 4) (s : State) : Host.Outcome State Fault Refusal := .next (s.writeField lvl F.PROBE_CMD_ABORT 1)

/-- TUNNEL_GO (R524, R525). -/
def execTunnelGo (lvl : Fin 4) (w : Word) (s : State) : Host.Outcome State Fault Refusal :=
  .next (s.write lvl F.CASC_TUN_CMD_GO.addr (putBits w 31 31 1) Facts.plain)

/-- XREQ_WRITE (R529). -/
def execXreqWrite (lvl : Fin 4) (k : Fin 8) (w : Word) (s : State) : Host.Outcome State Fault Refusal :=
  .next (s.write lvl (F.CASC_XREQ_EN k).addr w Facts.plain)

/-- CASC_CAL_GO (R532). -/
def execCascCalGo (lvl input : Fin 4) (x : Facts) (s : State) : Host.Outcome State Fault Refusal :=
  .next (s.write lvl F.CASC_CAL_CTRL_GO.addr (putBits (fieldWord F.CASC_CAL_CTRL_CAL_INPUT input) 31 31 1) x)

/-- One word of a tunnel packet: after a warm reset the rest of the packet is lost. -/
def State.tunnelWord (r : State) (write : Bool) (a : Nat) (data : List Word) (x : Facts) (y : State × List Nat × Nat) (k : Nat) :
    State × List Nat × Nat :=
  if y.1.boot = Boot.warm then y
  else if write then
    let (s, o) := y.1.busWrite r 1 (a + 4 * k) (data.getD k 0) x
    (s, y.2.1, y.2.2 + b2n (decide (o = .refused)))
  else
    let (s, b) := y.1.busRead r 1 (a + 4 * k) x.hits
    (s, y.2.1 ++ [b.word.toNat], y.2.2 + b2n b.refused)

/-- TUNNEL_PACKET_RECEIVED (R524): a slave performs the words as one level-1 transaction and acknowledges with the refused
count and, for a read, the data. -/
def execTunnelPacketReceived (write : Bool) (addr : BitVec 24) (len : Fin 16) (data : List Word) (x : Facts) (s : State) :
    Host.Outcome State Fault Refusal :=
  .next <|
    if s.answers && decide (s.role ≠ 0) && bit (s.rd F.CASC_STAT_UP) 0 then
      let r := s
      let (s, l, refused) := (List.range (len + 1)).foldl (r.tunnelWord write addr.toNat data x) (s, [], 0)
      if s.boot = Boot.warm then s else { s with casc := { s.casc with ack := l, ackRefused := refused } }
    else s

end Sys2Proof.Machine
end

