-- ==== Sys2Proof/Machine/Dispatch.lean ====
section
/-! DEFINITION. The dispatch: one arm per command, each a direct call of its meaning. -/
namespace Sys2Proof.Machine
open Sys2Proof

def exec (i : Instr) (s : State) : Host.Outcome State Fault Refusal :=
  match i with
  | .powerOnResetRelease => Sys2Proof.Machine.execPowerOnResetRelease s
  | .strapSample role1 role0 addr1 addr0 bootSrc testen => Sys2Proof.Machine.execStrapSample role1 role0 addr1 addr0 bootSrc testen s
  | .resetNLow => Sys2Proof.Machine.execResetNLow s
  | .brownOut r coreLost => Sys2Proof.Machine.execBrownOut r coreLost s
  | .supplyLow r => Sys2Proof.Machine.execSupplyLow r s
  | .xoStable rc o => Sys2Proof.Machine.execXoStable rc o s
  | .xoFail => Sys2Proof.Machine.execXoFail s
  | .xoStartTimeout => Sys2Proof.Machine.execXoStartTimeout s
  | .patchImageReadDone => Sys2Proof.Machine.execPatchImageReadDone s
  | .emmcReadyTimeout => Sys2Proof.Machine.execEmmcReadyTimeout s
  | .patchVerifyDone ok ver => Sys2Proof.Machine.execPatchVerifyDone ok ver s
  | .warmResetCmd lvl => Sys2Proof.Machine.execWarmResetCmd lvl s
  | .watchdogRestart lvl => Sys2Proof.Machine.execWatchdogRestart lvl s
  | .watchdogExpiry => Sys2Proof.Machine.execWatchdogExpiry s
  | .wdogWarn => Sys2Proof.Machine.execWdogWarn s
  | .mgmtWatchdogExpiry => Sys2Proof.Machine.execMgmtWatchdogExpiry s
  | .warmBootDone ok o => Sys2Proof.Machine.execWarmBootDone ok o s
  | .rootLockLoss cut => Sys2Proof.Machine.execRootLockLoss cut s
  | .relockAttempt => Sys2Proof.Machine.execRelockAttempt s
  | .relockAttemptFail => Sys2Proof.Machine.execRelockAttemptFail s
  | .relockQualified => Sys2Proof.Machine.execRelockQualified s
  | .rootReturn => Sys2Proof.Machine.execRootReturn s
  | .divCommit lvl => Sys2Proof.Machine.execDivCommit lvl s
  | .divApply => Sys2Proof.Machine.execDivApply s
  | .ditherEnApply => Sys2Proof.Machine.execDitherEnApply s
  | .xoDriveStep => Sys2Proof.Machine.execXoDriveStep s
  | .xoFailClear lvl => Sys2Proof.Machine.execXoFailClear lvl s
  | .rcCalibrationDone count => Sys2Proof.Machine.execRcCalibrationDone count s
  | .stateRequestWrite lvl req => Sys2Proof.Machine.execStateRequestWrite lvl req s
  | .stateTransitionDone pow imgOk => Sys2Proof.Machine.execStateTransitionDone pow imgOk s
  | .drainDone => Sys2Proof.Machine.execDrainDone s
  | .drainTimeout => Sys2Proof.Machine.execDrainTimeout s
  | .wakeQspi others => Sys2Proof.Machine.execWakeQspi others s
  | .wakeTwi others => Sys2Proof.Machine.execWakeTwi others s
  | .wakeTimer others => Sys2Proof.Machine.execWakeTimer others s
  | .wakeGpio g level others => Sys2Proof.Machine.execWakeGpio g level others s
  | .synthLockFail => Sys2Proof.Machine.execSynthLockFail s
  | .synthLockRetry => Sys2Proof.Machine.execSynthLockRetry s
  | .clusterPowerUpDone c => Sys2Proof.Machine.execClusterPowerUpDone c s
  | .bankInitDone c => Sys2Proof.Machine.execBankInitDone c s
  | .clusterClockStart c => Sys2Proof.Machine.execClusterClockStart c s
  | .fencePowerOff c => Sys2Proof.Machine.execFencePowerOff c s
  | .clusterClockStopped c => Sys2Proof.Machine.execClusterClockStopped c s
  | .unfenceRequest lvl mask => Sys2Proof.Machine.execUnfenceRequest lvl mask s
  | .selftestDone c pass => Sys2Proof.Machine.execSelftestDone c pass s
  | .tempSample t0 t1 t2 t3 centre => Sys2Proof.Machine.execTempSample t0 t1 t2 t3 centre s
  | .registerWrite lvl a w x => Sys2Proof.Machine.execRegisterWrite lvl a w x s
  | .pageSoftReset lvl page x => Sys2Proof.Machine.execPageSoftReset lvl page x s
  | .pageResetDone page => Sys2Proof.Machine.execPageResetDone page s
  | .pageLevelWrite lvl page expert => Sys2Proof.Machine.execPageLevelWrite lvl page expert s
  | .pageEnableWrite lvl page on x => Sys2Proof.Machine.execPageEnableWrite lvl page on x s
  | .pageLockWrite lvl page w => Sys2Proof.Machine.execPageLockWrite lvl page w s
  | .causeClear lvl page m => Sys2Proof.Machine.execCauseClear lvl page m s
  | .causeForce lvl page m => Sys2Proof.Machine.execCauseForce lvl page m s
  | .causeEnableWrite lvl page m => Sys2Proof.Machine.execCauseEnableWrite lvl page m s
  | .artWrite lvl k w => Sys2Proof.Machine.execArtWrite lvl k w s
  | .protCountClear lvl => Sys2Proof.Machine.execProtCountClear lvl s
  | .intCfgWrite lvl w => Sys2Proof.Machine.execIntCfgWrite lvl w s
  | .intEdgeGapEnd => Sys2Proof.Machine.execIntEdgeGapEnd s
  | .qspiRead h late x => Sys2Proof.Machine.execQspiRead h late x s
  | .qspiWrite h data dcrc => Sys2Proof.Machine.execQspiWrite h data dcrc s
  | .writeFramePerform x => Sys2Proof.Machine.execWriteFramePerform x s
  | .qspiTruncated h got words ahead late x => Sys2Proof.Machine.execQspiTruncated h got words ahead late x s
  | .qspiSckTimeout h got words ahead late x => Sys2Proof.Machine.execQspiSckTimeout h got words ahead late x s
  | .hostCfgApply => Sys2Proof.Machine.execHostCfgApply s
  | .hostCountClear lvl => Sys2Proof.Machine.execHostCountClear lvl s
  | .queueRelease lvl n c => Sys2Proof.Machine.execQueueRelease lvl n c s
  | .imgStart lvl => Sys2Proof.Machine.execImgStart lvl s
  | .imgAbort lvl => Sys2Proof.Machine.execImgAbort lvl s
  | .imgFifoWrite lvl k w => Sys2Proof.Machine.execImgFifoWrite lvl k w s
  | .twiPointerWrite bytes x => Sys2Proof.Machine.execTwiPointerWrite bytes x s
  | .twiRegisterWrite bytes x => Sys2Proof.Machine.execTwiRegisterWrite bytes x s
  | .twiRegisterRead n late x => Sys2Proof.Machine.execTwiRegisterRead n late x s
  | .srAtAck n late x => Sys2Proof.Machine.execSrAtAck n late x s
  | .twiSclTimeout t x => Sys2Proof.Machine.execTwiSclTimeout t x s
  | .ctlStart lvl w => Sys2Proof.Machine.execCtlStart lvl w s
  | .ctlTransferBegin => Sys2Proof.Machine.execCtlTransferBegin s
  | .ctlBusNotFree => Sys2Proof.Machine.execCtlBusNotFree s
  | .arbLost ibr wrote rx => Sys2Proof.Machine.execArbLost ibr wrote rx s
  | .ctlNack addr wrote => Sys2Proof.Machine.execCtlNack addr wrote s
  | .ctlSclHeld wrote rx => Sys2Proof.Machine.execCtlSclHeld wrote rx s
  | .ctlDone rx => Sys2Proof.Machine.execCtlDone rx s
  | .busRecover lvl stuck => Sys2Proof.Machine.execBusRecover lvl stuck s
  | .recoveryAttemptDone pulses freed => Sys2Proof.Machine.execRecoveryAttemptDone pulses freed s
  | .recoveryRetry => Sys2Proof.Machine.execRecoveryRetry s
  | .ibrSend ack extra => Sys2Proof.Machine.execIbrSend ack extra s
  | .ibrSclTimeout => Sys2Proof.Machine.execIbrSclTimeout s
  | .ibrRetry => Sys2Proof.Machine.execIbrRetry s
  | .araRead win => Sys2Proof.Machine.execAraRead win s
  | .agcWindowEnd idx rms4 => Sys2Proof.Machine.execAgcWindowEnd idx rms4 s
  | .agcStepSlot idx rms4 => Sys2Proof.Machine.execAgcStepSlot idx rms4 s
  | .overload idx full recent => Sys2Proof.Machine.execOverload idx full recent s
  | .gainStepApply idx => Sys2Proof.Machine.execGainStepApply idx s
  | .manualGainWrite lvl idx w => Sys2Proof.Machine.execManualGainWrite lvl idx w s
  | .recal lvl idx => Sys2Proof.Machine.execRecal lvl idx s
  | .calibrationDone idx res => Sys2Proof.Machine.execCalibrationDone idx res s
  | .filtSelChange idx => Sys2Proof.Machine.execFiltSelChange idx s
  | .filtSettleEnd idx => Sys2Proof.Machine.execFiltSettleEnd idx s
  | .antSenseSample idx mv => Sys2Proof.Machine.execAntSenseSample idx mv s
  | .antRetry idx => Sys2Proof.Machine.execAntRetry idx s
  | .antBlankEnd idx => Sys2Proof.Machine.execAntBlankEnd idx s
  | .antRearm lvl idx w => Sys2Proof.Machine.execAntRearm lvl idx w s
  | .laneApply n => Sys2Proof.Machine.execLaneApply n s
  | .laneXApply lvl n => Sys2Proof.Machine.execLaneXApply lvl n s
  | .laneSwap lvl n => Sys2Proof.Machine.execLaneSwap lvl n s
  | .bankSwap n => Sys2Proof.Machine.execBankSwap n s
  | .delayTargetWrite n who slew target => Sys2Proof.Machine.execDelayTargetWrite n who slew target s
  | .delayJump n => Sys2Proof.Machine.execDelayJump n s
  | .delaySlewStep n => Sys2Proof.Machine.execDelaySlewStep n s
  | .trimRequest n trim => Sys2Proof.Machine.execTrimRequest n trim s
  | .settled n => Sys2Proof.Machine.execSettled n s
  | .satWindow n sat => Sys2Proof.Machine.execSatWindow n sat s
  | .hamperWrite lvl n k w x => Sys2Proof.Machine.execHamperWrite lvl n k w x s
  | .placeCommit lvl k w => Sys2Proof.Machine.execPlaceCommit lvl k w s
  | .passStart => Sys2Proof.Machine.execPassStart s
  | .passPublish => Sys2Proof.Machine.execPassPublish s
  | .qualityTrigger n => Sys2Proof.Machine.execQualityTrigger n s
  | .hotShed => Sys2Proof.Machine.execHotShed s
  | .anaWindow e w => Sys2Proof.Machine.execAnaWindow e w s
  | .anaAcqTimeout e => Sys2Proof.Machine.execAnaAcqTimeout e s
  | .anaBwDecision e adj4 => Sys2Proof.Machine.execAnaBwDecision e adj4 s
  | .rdsBlock e b => Sys2Proof.Machine.execRdsBlock e b s
  | .ofdmSymbol e y => Sys2Proof.Machine.execOfdmSymbol e y s
  | .ofdmFrame e f => Sys2Proof.Machine.execOfdmFrame e f s
  | .ofdmAcqTimeout e => Sys2Proof.Machine.execOfdmAcqTimeout e s
  | .fibDecoded e f => Sys2Proof.Machine.execFibDecoded e f s
  | .logicalFrameDecoded e f => Sys2Proof.Machine.execLogicalFrameDecoded e f s
  | .superframeDecoded e f => Sys2Proof.Machine.execSuperframeDecoded e f s
  | .reconfigApply e subs gone => Sys2Proof.Machine.execReconfigApply e subs gone s
  | .drmFrameDecoded e f => Sys2Proof.Machine.execDrmFrameDecoded e f s
  | .t2L1Decoded e f => Sys2Proof.Machine.execT2L1Decoded e f s
  | .ldpcBlockArrive e who plp common => Sys2Proof.Machine.execLdpcBlockArrive e who plp common s
  | .ldpcBlockStart u => Sys2Proof.Machine.execLdpcBlockStart u s
  | .ldpcBlockDone u r => Sys2Proof.Machine.execLdpcBlockDone u r s
  | .poolWait u who => Sys2Proof.Machine.execPoolWait u who s
  | .cifCombine u c => Sys2Proof.Machine.execCifCombine u c s
  | .berWindow => Sys2Proof.Machine.execBerWindow s
  | .measureStart w => Sys2Proof.Machine.execMeasureStart w s
  | .measureEngineRetry w => Sys2Proof.Machine.execMeasureEngineRetry w s
  | .measureDone w r => Sys2Proof.Machine.execMeasureDone w r s
  | .verifyDone w r => Sys2Proof.Machine.execVerifyDone w r s
  | .foundTimeout n => Sys2Proof.Machine.execFoundTimeout n s
  | .badHoldExpiry w bearer freq => Sys2Proof.Machine.execBadHoldExpiry w bearer freq s
  | .alignWindow n win => Sys2Proof.Machine.execAlignWindow n win s
  | .blendDone n => Sys2Proof.Machine.execBlendDone n s
  | .standingDelayRemoved n => Sys2Proof.Machine.execStandingDelayRemoved n s
  | .audioFrameDecode e f => Sys2Proof.Machine.execAudioFrameDecode e f s
  | .beaconPeriod w r entries => Sys2Proof.Machine.execBeaconPeriod w r entries s
  | .audFrameSync n pcm => Sys2Proof.Machine.execAudFrameSync n pcm s
  | .audMaskWrite lvl n w => Sys2Proof.Machine.execAudMaskWrite lvl n w s
  | .audStart lvl n w => Sys2Proof.Machine.execAudStart lvl n w s
  | .audGroupGo lvl => Sys2Proof.Machine.execAudGroupGo lvl s
  | .audStop lvl n w => Sys2Proof.Machine.execAudStop lvl n w s
  | .audFsyncError n pcm => Sys2Proof.Machine.execAudFsyncError n pcm s
  | .audBclkLoss n => Sys2Proof.Machine.execAudBclkLoss n s
  | .audSlip n drop => Sys2Proof.Machine.execAudSlip n drop s
  | .zcChange n p right => Sys2Proof.Machine.execZcChange n p right s
  | .zcTimeout n p => Sys2Proof.Machine.execZcTimeout n p s
  | .audMuteWrite lvl n w => Sys2Proof.Machine.execAudMuteWrite lvl n w s
  | .assyBlock h b => Sys2Proof.Machine.execAssyBlock h b s
  | .assyTimeout h src id => Sys2Proof.Machine.execAssyTimeout h src id s
  | .emmcCommandFail final use => Sys2Proof.Machine.execEmmcCommandFail final use s
  | .storeMountDone r => Sys2Proof.Machine.execStoreMountDone r s
  | .objectCommit => Sys2Proof.Machine.execObjectCommit s
  | .storeRead lvl w => Sys2Proof.Machine.execStoreRead lvl w s
  | .storeNext lvl w => Sys2Proof.Machine.execStoreNext lvl w s
  | .storeDelete lvl w => Sys2Proof.Machine.execStoreDelete lvl w s
  | .storeTrim lvl w => Sys2Proof.Machine.execStoreTrim lvl w s
  | .storeFormat lvl w => Sys2Proof.Machine.execStoreFormat lvl w s
  | .storeCmdDone intact => Sys2Proof.Machine.execStoreCmdDone intact s
  | .basketCfgWrite lvl b w => Sys2Proof.Machine.execBasketCfgWrite lvl b w s
  | .envelopeVerifyDone intact => Sys2Proof.Machine.execEnvelopeVerifyDone intact s
  | .envelopeCommit => Sys2Proof.Machine.execEnvelopeCommit s
  | .keyBurnKey lvl w => Sys2Proof.Machine.execKeyBurnKey lvl w s
  | .keyBurnLock lvl w => Sys2Proof.Machine.execKeyBurnLock lvl w s
  | .keyBurnAdmin lvl w => Sys2Proof.Machine.execKeyBurnAdmin lvl w s
  | .otpBurnDone => Sys2Proof.Machine.execOtpBurnDone s
  | .noticeAck lvl w => Sys2Proof.Machine.execNoticeAck lvl w s
  | .noticeOfsWrite lvl w => Sys2Proof.Machine.execNoticeOfsWrite lvl w s
  | .noticeWindowFilled => Sys2Proof.Machine.execNoticeWindowFilled s
  | .timeNowRead lvl => Sys2Proof.Machine.execTimeNowRead lvl s
  | .ppsEdge rising writes => Sys2Proof.Machine.execPpsEdge rising writes s
  | .ppsLoss => Sys2Proof.Machine.execPpsLoss s
  | .timeSetNow lvl unc => Sys2Proof.Machine.execTimeSetNow lvl unc s
  | .timeSetAtPps lvl unc => Sys2Proof.Machine.execTimeSetAtPps lvl unc s
  | .timeSetDiscard => Sys2Proof.Machine.execTimeSetDiscard s
  | .utcChange => Sys2Proof.Machine.execUtcChange s
  | .thermosLearn avg => Sys2Proof.Machine.execThermosLearn avg s
  | .timeStepApply => Sys2Proof.Machine.execTimeStepApply s
  | .itinWindowStart => Sys2Proof.Machine.execItinWindowStart s
  | .itinRun lvl bank => Sys2Proof.Machine.execItinRun lvl bank s
  | .itinStop lvl => Sys2Proof.Machine.execItinStop lvl s
  | .itinSwitch lvl => Sys2Proof.Machine.execItinSwitch lvl s
  | .timeAlarm => Sys2Proof.Machine.execTimeAlarm s
  | .cascadeMarker sec uncert delayNs => Sys2Proof.Machine.execCascadeMarker sec uncert delayNs s
  | .packetAdmit n broken => Sys2Proof.Machine.execPacketAdmit n broken s
  | .creditTick n => Sys2Proof.Machine.execCreditTick n s
  | .schedTrim lvl n => Sys2Proof.Machine.execSchedTrim lvl n s
  | .schedTrimDone => Sys2Proof.Machine.execSchedTrimDone s
  | .schedHwmClear lvl n => Sys2Proof.Machine.execSchedHwmClear lvl n s
  | .schedHwmClearAll lvl => Sys2Proof.Machine.execSchedHwmClearAll lvl s
  | .streamSelect => Sys2Proof.Machine.execStreamSelect s
  | .streamPacketSent broken => Sys2Proof.Machine.execStreamPacketSent broken s
  | .streamReadyLow => Sys2Proof.Machine.execStreamReadyLow s
  | .streamReadyHigh => Sys2Proof.Machine.execStreamReadyHigh s
  | .streamReadyTimeout words => Sys2Proof.Machine.execStreamReadyTimeout words s
  | .strmCfgApply => Sys2Proof.Machine.execStrmCfgApply s
  | .probeGo lvl pow => Sys2Proof.Machine.execProbeGo lvl pow s
  | .probeAbort lvl => Sys2Proof.Machine.execProbeAbort lvl s
  | .probeSettleDone listen pow => Sys2Proof.Machine.execProbeSettleDone listen pow s
  | .probeDwellEnd r onsets pow => Sys2Proof.Machine.execProbeDwellEnd r onsets pow s
  | .probeMaskViolation bins => Sys2Proof.Machine.execProbeMaskViolation bins s
  | .probeOccupancy n pow => Sys2Proof.Machine.execProbeOccupancy n pow s
  | .probeTxLate => Sys2Proof.Machine.execProbeTxLate s
  | .probeLockLoss => Sys2Proof.Machine.execProbeLockLoss s
  | .scrubWriteback w reader => Sys2Proof.Machine.execScrubWriteback w reader s
  | .testSlot => Sys2Proof.Machine.execTestSlot s
  | .marchDone fail corr bad => Sys2Proof.Machine.execMarchDone fail corr bad s
  | .marchAbort fail => Sys2Proof.Machine.execMarchAbort fail s
  | .restoreDone => Sys2Proof.Machine.execRestoreDone s
  | .corrWindow b => Sys2Proof.Machine.execCorrWindow b s
  | .uncorrQuietReset c => Sys2Proof.Machine.execUncorrQuietReset c s
  | .linkTrained p peer rtt bnd chain reach => Sys2Proof.Machine.execLinkTrained p peer rtt bnd chain reach s
  | .linkDown p code crc => Sys2Proof.Machine.execLinkDown p code crc s
  | .linkTrainRetry p code crc => Sys2Proof.Machine.execLinkTrainRetry p code crc s
  | .tunnelGo lvl w => Sys2Proof.Machine.execTunnelGo lvl w s
  | .tunnelPacketReceived write addr len data x => Sys2Proof.Machine.execTunnelPacketReceived write addr len data x s
  | .tunnelRetry => Sys2Proof.Machine.execTunnelRetry s
  | .tunnelAck refused data => Sys2Proof.Machine.execTunnelAck refused data s
  | .remoteIrqFrame d group xs => Sys2Proof.Machine.execRemoteIrqFrame d group xs s
  | .xreqWrite lvl k w => Sys2Proof.Machine.execXreqWrite lvl k w s
  | .exportLate k => Sys2Proof.Machine.execExportLate k s
  | .cascCalGo lvl input x => Sys2Proof.Machine.execCascCalGo lvl input x s
  | .masterLost => Sys2Proof.Machine.execMasterLost s
  | .supplyRecovered r => Sys2Proof.Machine.execSupplyRecovered r s
  | .holdoffExpiry n => Sys2Proof.Machine.execHoldoffExpiry n s
  | .markerLoss => Sys2Proof.Machine.execMarkerLoss s
  | .slewEnd => Sys2Proof.Machine.execSlewEnd s
  | .exportRequestReceived k en hamper prio bearer freq mask branches ofs => Sys2Proof.Machine.execExportRequestReceived k en hamper prio bearer freq mask branches ofs s
  | .mgmtTaskTimeout consistency => Sys2Proof.Machine.execMgmtTaskTimeout consistency s

end Sys2Proof.Machine
end

