-- ==== Sys2Proof/Machine/PerCycle.lean ====
section
/-! DEFINITION. How commands of one PER cycle stand in the queue (R10, R11, R121, R122). -/
namespace Sys2Proof.Machine
open Sys2Proof

/-- The register at byte address `a` has a field that a write of 1 clears (R9, R103). -/
def hasW1c (a : Nat) : Bool :=
  match pageOf a with
  | some (t, _, o) => if t ≠ .hamper ∧ t ≠ .qw ∧ o < 0x40 then decide (o = 0x010) else (fieldsAt t o).any fun f => decide (f.acc = .w1c)
  | none => false

/-- A command that writes 1 to clear: CAUSE_CLEAR, or REGISTER_WRITE to such a register. -/
def clearsW1c : Instr → Bool
  | .causeClear _ _ _ => true
  | .registerWrite _ a _ _ => hasW1c a.toNat
  | _ => false

/-- One PER cycle in the queue: what the device does in it, `updates`, and the access served in it, if any. The device's update of a
field comes first, so that the written value remains (R122), as does its end of an action that a write asks for once more (R11); a
write that clears comes before the update, so that the bit ends set (R10). -/
def perCycle (updates : List Instr) (access : Option Instr) : List Instr :=
  match access with
  | none => updates
  | some c => if clearsW1c c then c :: updates else updates ++ [c]

/-- Accesses that reach the bus in one PER cycle, each with its level, in the order in which they are served, one per PER cycle
(R121). -/
def servedOrder (l : List (Fin 4 × Instr)) : List Instr := (List.finRange 4).flatMap fun lvl => (l.filter fun x => decide (x.1 = lvl)).map (·.2)

end Sys2Proof.Machine
end

