-- ==== Sys2Proof/Machine/Pins.lean ====
section
/-! DEFINITION. What the signal balls show (R39 to R41, R123, R124, R197, R202, R205, R382, R383, R468, R469). -/
namespace Sys2Proof.Machine
open Sys2Proof

/-- A ball: driven to a level or with a clock, released, an input without or with its 50 kΩ pull, a 100 Ω differential
termination, electrical idle, or in use by the protocol of its block. -/
inductive Ball where
  | low | high
  | clock (hz : Nat)
  | z
  | input | pullUp | pullDown
  | term | idle
  | busy
deriving DecidableEq, Repr

/-- The signals of R39. -/
inductive Signal where
  | rfin (i : Fin 4) | antSense (i : Fin 4) | filtA (i : Fin 4) | filtB (i : Fin 4) | antPwr (i : Fin 4)
  | xtal | refclkOut | ppsIn | resetN | intN | twi | alertN | gpio | strap
  | qspiSck | qspiCs | qspiIo
  | strmClk | strmD (k : Fin 4) | strmValid | strmSync | strmReady
  | audMclk | audBclk (n : Fin 4) | audFsync (n : Fin 4) | audDout (n : Fin 4)
  | emmcClk | emmcData | emmcRst
  | trcTx (p : Fin 2) | trcRx (p : Fin 2)
deriving DecidableEq, Repr

/-- The Reset column of R39 holds: cold reset, or a boot that has not configured the blocks yet (assumption 103). -/
def State.ballsReset (s : State) : Bool :=
  decide (s.boot = .held) || decide (s.boot = .xoStart) || decide (s.boot = .warm) || s.warmBoot

/-- A level. -/
def ballLevel (b : Bool) : Ball := if b then .high else .low

/-- FILT_SEL code of input `i` at the balls: held in Sleep (R39, R197, R205). -/
def State.filtPins (s : State) (i : Nat) : Nat :=
  if s.pins.gpioSleep then s.pins.filtSleep.getD i 0 else s.rd (F.RFIN_FILT_CTRL_CODE i)

/-- REFCLK_OUT drives the XO frequency on index 0 from the moment the XO has started, until REFCLK_EN is 0 (R39, R41). -/
def State.refclkOut (s : State) : Ball :=
  if s.clk.xo = .stable ∧ s.pins.gpioSleep = false ∧ s.role = 0 ∧ s.on F.CASC_CFG_REFCLK_EN = true then .clock 49152000
  else .low

/-- INT_N (R39, R40, R123, R124). -/
def State.intBall (s : State) : Ball :=
  if s.intPin then .low
  else if s.on F.IRQ_INT_CFG_MODE ∧ s.ballsReset = false then .high else .z

/-! ### Audio clocks (R381, R382) -/

/-- Bits of a frame: N × W (R380). -/
def State.frameBits (s : State) (n : Nat) : Nat := s.audSlots n * (if s.on (F.AUD_CFG_SLOT_W n) then 16 else 32)

/-- XO cycles of a BCLK period: 1024 make a frame (R382). -/
def State.bclkPer (s : State) (n : Nat) : Nat := 1024 / s.frameBits n

/-- BCLK: a period begins with the edge at which DOUT changes (R381, R382). -/
def State.bclkLevel (s : State) (n : Nat) : Bool :=
  let late := decide (s.bclkPer n / 2 ≤ s.clk.audDiv % s.bclkPer n)
  if s.on (F.AUD_CFG_BCLK_EDGE n) then !late else late

/-- FSYNC from the same divider (R381): frame sync is bit 0, which I2S and a delayed TDM frame announce one BCLK before. -/
def State.fsyncLevel (s : State) (n : Nat) : Bool :=
  let bits := s.frameBits n
  let k := s.clk.audDiv / s.bclkPer n
  let v :=
    match s.rd (F.AUD_CFG_FORMAT n) with
    | 0 => decide (bits / 2 ≤ (k + 1) % bits)
    | 1 => decide (k < bits / 2)
    | _ => if s.on (F.AUD_CFG_DELAY n) then decide (k + 1 = bits) else decide (k = 0)
  v != s.on (F.AUD_CFG_FS_POL n)

/-- BCLK or FSYNC of port `n`: an input in target mode, else released until configured (R39, R382, R391, R396). -/
def State.audClock (s : State) (n : Nat) (v : Bool) : Ball :=
  if s.ballsReset || s.pins.gpioSleep then .z
  else if !s.on (F.AUD_CFG_MASTER n) then .input
  else match (s.port n).balls with
    | .off => .z
    | .low => .low
    | .clocks => ballLevel v

/-- DOUT of a running port: the bit of the frame that its BCLK has come to, MSB of a slot first, or nothing where the slot is
released (R380, R381). The BCLK of a target port comes from outside, at the rate of R380; while it fails the level stays (R384, R385). -/
def State.doutBall (s : State) (n : Nat) : Ball :=
  if !s.audRun n then .z
  else
    let w := if s.on (F.AUD_CFG_SLOT_W n) then 16 else 32
    let k := (if s.on (F.AUD_CFG_MASTER n) then s.clk.audDiv else min 1023 (s.port n).pos) / s.bclkPer n
    match ((s.port n).frame)[k / w]? with
    | some (some v) => ballLevel (bit v (w - 1 - k % w))
    | _ => .z

/-- The AUD domain runs: from the root, or in Standby while a port sends frames (R72). -/
def State.audClocked (s : State) : Bool := decide (2 ≤ s.radio) || (List.range 4).any s.audRun

/-- AUD_MCLK (R39, R383). -/
def State.mclk (s : State) : Ball :=
  if s.on (F.AUD_MCLK_EN 0) && s.audClocked && decide (s.clk.xo = .stable) && !s.ballsReset then
    .clock (if s.on (F.AUD_MCLK_DIV2 0) then 12288000 else 24576000)
  else .low

/-- STOR in Hz: the object store controller runs it in Standby too (R56, R72, R472). -/
def State.storHz (s : State) : Nat := if s.rootOk then 163840000 else 24576000

/-- The eMMC is at work: the boot partition, the mount, a store command, or the commit of an object or an envelope (R39, R93, R404,
R410, R411). -/
def State.emmcBusy (s : State) : Bool :=
  decide (s.boot = .fetch) || decide (s.rd F.STORE_STAT_STATE = 1) || s.on F.STORE_STAT_BUSY || !s.data.writes.isEmpty ||
    (match s.data.verify with | .commit _ => true | _ => false)

/-! ### R39 -/

/-- What a ball shows (R39). PPS_IN has its pull-down in the Reset column only. (assumption 116) -/
def State.ball (s : State) (b : Signal) : Ball :=
  let rst := s.ballsReset
  let sleep := s.pins.gpioSleep
  let bus := s.strmBalls
  match b with
  | .rfin _ => .term
  | .antSense i => if rst || sleep || !s.en .rfin i then .z else .busy
  | .filtA i => if rst then .low else ballLevel (bit (s.filtPins i) 0)
  | .filtB i => if rst then .low else ballLevel (bit (s.filtPins i) 1)
  | .antPwr i => if rst || sleep then .low else ballLevel (s.on (F.RFIN_ANT_STAT_PWR i))
  | .xtal => if s.clk.xo = .stopped ∧ s.boot ≠ .held then .idle else .busy
  | .refclkOut => s.refclkOut
  | .ppsIn => if rst then .pullDown else .input
  | .resetN => if rst then .pullUp else .input
  | .intN => s.intBall
  | .twi => if rst || sleep || !s.en .twi then .z else .busy
  | .alertN => if !rst && !sleep && s.alertPin then .low else .z
  | .gpio => if rst then .pullDown else .input
  | .strap => if s.pins.strapPull then .pullDown else .input
  | .qspiSck => .input
  | .qspiCs => if rst then .pullUp else .input
  | .qspiIo => if rst || sleep then .pullUp else .busy
  | .strmClk =>
    if (s.on F.STRM_STAT_RUN || s.on F.STRM_STAT_SENDING) && decide (s.clk.xo = .stable) then .clock (s.storHz / 2 ^ (s.sched.cfg / 256 % 4)) else .low
  | .strmD k => ballLevel (bit bus.data k)
  | .strmValid => ballLevel bus.valid
  | .strmSync => ballLevel bus.sync
  | .strmReady => if rst then .pullDown else .input
  | .audMclk => s.mclk
  | .audBclk n => s.audClock n (s.bclkLevel n)
  | .audFsync n => s.audClock n (s.fsyncLevel n)
  | .audDout n => if rst || sleep then .z else s.doutBall n
  | .emmcClk => if !rst && !sleep && s.emmcBusy then .busy else .low
  | .emmcData => if rst || sleep then .pullUp else .busy
  | .emmcRst => if rst then .low else .high
  | .trcTx p => if !rst && !sleep && bit (s.rd F.CASC_STAT_UP) p then .busy else .idle
  | .trcRx _ => .term

end Sys2Proof.Machine
end

