-- ==== Sys2Proof/Machine/Samples.lean ====
section
/-! DEFINITION. The ADC samples of one XO cycle pass through the lanes (R208 to R231). -/
namespace Sys2Proof.Machine
open Sys2Proof

/-- ADC samples that an XO cycle brings at a rate code: 40, 20 or 10 (R24). At rate Off a lane goes on at the rate its chain was
put into force for, on zero samples (R233). -/
def samplesPerXo (rate : Nat) : Nat := rateHz rate / 49152000

/-- ADC sample `j` of this XO cycle on input `i`: a free value, as it comes from the world (assumption 96). -/
def State.adcCode (s : State) (i j : Nat) : Int := ((Config.freeWord (s.free + 40 * i + j)).setWidth 12).toInt

/-- Lane `n` takes the samples of one XO cycle: zeros while its input calibrates or is unavailable (R196, R231). SATURATED rises
with the first saturated sample of a window (R230). -/
def State.laneCycle (s : State) (n : Nat) : State :=
  let l := s.lane n
  let i := l.chain.input
  let lost := s.inputLost i
  let zero := lost || decide ((s.rfi i).cal ≠ .idle)
  let bank := if s.rd (F.LANE_STAT_ACTIVE_BANK n) = 0 then l.bank0 else l.bank1
  let trim := ofField 32 (s.rd (F.LANE_TRIM n))
  let delay := s.rd (F.LANE_DELAY_NOW n)
  let xs := (List.range (samplesPerXo l.rate)).map fun j => if zero then 0 else s.adcCode i j
  let t := s.updLane n fun l =>
    { l with dsp := xs.foldl (DspSt.sample l.chain bank trim delay (s.laneInterval n) lost) { l.dsp with fresh := false } }
  if (t.lane n).dsp.satSeen && !(s.lane n).dsp.satSeen then t.level .lane C.LANE_SATURATED true n else t

/-- One XO cycle of every lane that runs; the samples of the four inputs are used up. -/
def State.lanesCycle (s : State) : State :=
  let l := (s.lanes.map (·.1)).filter s.laneRunning
  if l.isEmpty then s
  else
    let t := s.each l State.laneCycle
    { t with free := t.free + 160 }

/-- One XO cycle of the audio ports while AUD runs (R72, R382, R385): the divider of the master ports moves on, 512 AUD cycles or 1024 XO
cycles to a frame, at whose end they take their frame sync; the BCLK of a target port moves on from its FSYNC. -/
def State.audCycle (s : State) : State :=
  if !s.audClocked then s
  else
    let s := s.each ((List.range 4).filter fun n => s.audRun n && (s.port n).framed && !s.on (F.AUD_CFG_MASTER n)) fun s n =>
      s.updAud n fun a => { a with pos := a.pos + 1 }
    if 1023 ≤ s.clk.audDiv then s.masterSync [] else { s with clk := { s.clk with audDiv := s.clk.audDiv + 1 } }

end Sys2Proof.Machine
end

