-- ==== Sys2Proof/Machine/Step.lean ====
section
/-! DEFINITION. One step: the command at the front of the queue, or, with no command waiting, one cycle of the crystal
oscillator. -/
namespace Sys2Proof.Machine
open Sys2Proof

/-- What passes with no command waiting: one XO cycle of the time base, the lanes, the audio divider and the Stream Port while
the XO runs (R208, R382, R431, R469; assumption 16). -/
def State.idle (s : State) : State := if s.clk.xo = Xo.stable then s.tick.lanesCycle.audCycle.strmCycle else s

/-- One step. Commands that fall into one PER cycle stand in the queue as `perCycle` puts them (R10, R11, R122), accesses of several
initiators as `servedOrder` does (R121). (assumption 122) -/
def step (s : State) : Host.Outcome State Fault Refusal :=
  match s.pending with
  | [] => .next s.idle
  | c :: rest => exec c { s with pending := rest }

/-- The state with the command that a word spells in front of its queue. -/
def State.withFetchWord (s : State) (nbits w : Nat) : State :=
  match decodeTableWord nbits w with
  | some c => { s with pending := c :: s.pending }
  | none => s

end Sys2Proof.Machine
end

