-- ==== Sys2Proof/Safety.lean ====
section
/-! DEFINITION. The terms in which claims are made: canonical tables, what stays as it was, causes that are set, accesses that
pass their checks. -/
namespace Sys2Proof.Machine
open Sys2Proof

/-- The registers and the memory are in their one canonical form: addresses rise, and nothing listed reads as its default. -/
def State.canonical (s : State) : Prop := twf resetWord s.regs = true ∧ Memory.wf s.mem = true

/-- Every register outside `l` reads as before. -/
def State.sameRegsBut (s : State) (l : List Nat) (t : State) : Prop := ∀ a, a ∉ l → t.reg a = s.reg a

/-- Every byte of the SRAM window reads as before. -/
def State.sameMem (s t : State) : Prop := ∀ a, t.byte a = s.byte a

/-- The registers in which routing to the two-wire port records: TWI.ALERT_PEND[0..3] and TWI.IBR_STAT (R178 to R181). -/
def twiRouteRegs : List Nat := [0x7100, 0x7104, 0x7108, 0x710C, 0x70C4]

/-- The registers that raising a cause of page (t, i) may change. -/
def causeRegs (t : PageType) (i : Nat) : List Nat := (F.CAUSE t i).addr :: twiRouteRegs

/-- Cause `b` of page (t, i) is set. -/
def State.caused (s : State) (t : PageType) (b : Nat) (i : Nat := 0) : Prop := bit (s.rd (F.CAUSE t i)) b = true

/-- In `t'` the cause of page (t, i) is set if `s` has that page enabled (R106). -/
def State.raises (s : State) (t : PageType) (b : Nat) (i : Nat) (t' : State) : Prop := s.en t i = true → t'.caused t b i

/-- A write of `w` at `a` by initiator level `lvl` passes every check of R111, the bus being up and the word one that this
initiator writes (R120). -/
def State.accepts (s : State) (lvl a : Nat) (w : Word) (rfin : BitVec 4) : Prop :=
  s.answers = true ∧ mgmtNever lvl a = false ∧ a % 4 = 0 ∧ s.reserved lvl a = false ∧ s.mayAccess lvl (artIndex a) true = true ∧
    (∀ t i o, pageOf a = some (t, i, o) → s.lockKind lvl t i o w = none) ∧ s.rangeReasons lvl a w rfin = []

end Sys2Proof.Machine
end

