-- ==== Sys2Proof/Certificates/Slice0/Obligations.lean ====
section
/-! DEFINITION. The statements to be proved, one proposition each: every family of commands, the access checks and refusals, the interrupt
tree, reset, and the canonical form of the registers and the memory. -/
open Sys2Proof Sys2Proof.Machine

/-- Power-on reset, strap sampling (a tie to VDD_IO33 reads 1, one to VSS or an open ball 0), RESET_N and brown-out: what each leaves (R34, R35, R36, R70, R71, R89,
R91). A cold reset leaves
every register but SYS.RESET_CAUSE at its reset word and no memory byte listed. -/
def Obligations.ResetsAndStraps : Prop :=
  (∀ s : State, s.pins.porHeld = true →
    ∃ t, exec .powerOnResetRelease s = .next t ∧ t.pins.porHeld = false ∧
      t.rd F.SYS_RESET_CAUSE_POR = (if s.rd F.SYS_RESET_CAUSE_BOR = 0 then 1 else s.rd F.SYS_RESET_CAUSE_POR) ∧
      s.sameRegsBut [0x64] t ∧ s.sameMem t) ∧
  (∀ (s : State) (r1 r0 a1 a0 b e : StrapTie), s.boot = Boot.held → s.pins.porHeld = false → s.pins.testEn = false → e ≠ .vddIo33 →
    ∃ t, exec (.strapSample r1 r0 a1 a0 b e) s = .next t ∧ t.boot = Boot.xoStart ∧ t.clk.xo = Xo.starting ∧ t.pins.strapPull = false ∧
      t.rd F.SYS_STRAP_TWI_ADDR = 2 * b2n (strapLevel a1) + b2n (strapLevel a0) ∧
      t.rd F.SYS_STRAP_TWI_TADDR = 0x2C + t.rd F.SYS_STRAP_TWI_ADDR ∧
      t.rd F.SYS_STRAP_CASC_ROLE = 2 * b2n (strapLevel r1) + b2n (strapLevel r0) ∧
      t.on F.SYS_STRAP_BOOT_SRC = strapLevel b ∧ strapLevel .vddIo33 = true ∧ strapLevel .vss = false ∧ strapLevel .nc = false ∧ t.rd F.CASC_STAT_INDEX = t.rd F.SYS_STRAP_CASC_ROLE ∧ s.sameMem t) ∧
  (∀ (s : State) (r1 r0 a1 a0 b : StrapTie), s.boot = Boot.held → s.pins.porHeld = false → s.pins.testEn = false →
    ∃ t, exec (.strapSample r1 r0 a1 a0 b .vddIo33) s = .next t ∧ t.boot = Boot.held ∧ t.pins.testEn = true ∧ t.pins.strapPull = false ∧
      s.sameRegsBut [] t ∧ s.sameMem t) ∧
  (∀ s : State, s.pins.porHeld = false → s.pins.resetN = true →
    ∃ t, exec .resetNLow s = .next t ∧ t.boot = Boot.held ∧ t.pins.porHeld = false ∧ t.pins.resetN = false ∧
      t.reg 0x64 = 2 ∧ (∀ a, a ≠ 0x64 → t.reg a = resetWord a) ∧ t.mem = [] ∧ t.pending = s.pending) ∧
  (∀ (s : State) (r : Fin 5) (lost : Bool), s.pins.porHeld = false →
    ∃ t, exec (.brownOut r lost) s = .next t ∧ t.boot = Boot.held ∧ t.pins.porHeld = true ∧
      t.rd F.SYS_RESET_CAUSE_BOR = (if lost then 0 else 1) ∧ t.rd F.SYS_RESET_CAUSE_BOR_RAIL = (if lost then 0 else r) ∧
      (∀ a, a ≠ 0x64 → t.reg a = resetWord a) ∧ t.mem = [] ∧ t.pending = s.pending)

/-- Boot, command by command (R50, R51, R92, R93, R560). Where the device goes on by itself, the next state is what the named
operation (links R521, placement of the boot at READY R93) makes of the state `u` described. -/
def Obligations.BootSequence : Prop :=
  (∀ (s : State) (rc : Nat) (o : OtpRead), s.clk.xo = Xo.starting → s.boot = Boot.xoStart → s.clk.xoLate = false →
    ∃ u, exec (.xoStable rc o) s = .next u.linksEval ∧ u.clk.xo = Xo.stable ∧
      u.boot = (if s.on F.SYS_STRAP_BOOT_SRC then Boot.fetch else Boot.waitHost) ∧ s.sameMem u) ∧
  (∀ (s : State) (rc : Nat) (o : OtpRead), s.clk.xo = Xo.failed →
    ∃ t, exec (.xoStable rc o) s = .next t ∧ t.clk.xo = Xo.stable ∧ t.boot = Boot.warm ∧ t.clk.xoFailDue = true ∧
      t.rd F.CLK_XO_STAT_XO_FAIL = 1) ∧
  (∀ s : State, s.clk.xo = Xo.stable → s.pwr.trans ≠ some .standbyToSleep →
    ∃ t, exec .xoFail s = .next t ∧ t.clk.xo = Xo.failed ∧ s.sameRegsBut [] t ∧ s.sameMem t) ∧
  (∀ s : State, s.pwr.trans = some .standbyToSleep → exec .xoFail s = .next s) ∧
  (∀ s : State, s.clk.xo = Xo.starting →
    ∃ t, exec .xoStartTimeout s = .next t ∧ t.clk.xo = Xo.starting ∧ t.clk.xoLate = true ∧ s.sameRegsBut [] t ∧ s.sameMem t) ∧
  (∀ s : State, s.busUp = true → s.boot = Boot.fetch →
    ∃ t, exec .patchImageReadDone s = .next t ∧ t.boot = Boot.verify true ∧ s.sameRegsBut [] t ∧ s.sameMem t) ∧
  (∀ s : State, s.busUp = true → s.boot = Boot.fetch →
    ∃ t, exec .emmcReadyTimeout s = .next t ∧ t.boot = Boot.waitHost ∧ t.rd F.SYS_BOOT_STAT_WAIT_HOST = 1 ∧
      s.raises .sys C.SYS_WAIT_HOST 0 t ∧ s.sameRegsBut (0x6C :: causeRegs .sys 0) t ∧ s.sameMem t) ∧
  (∀ (s : State) (emmc : Bool) (ver : BitVec 16), s.busUp = true → s.boot = Boot.verify emmc →
    ∃ u, exec (.patchVerifyDone true ver) s = .next u.finishBoot ∧ u.rd F.SYS_BOOT_STAT_PATCH_VER = ver.toNat ∧
      u.on F.SYS_BOOT_STAT_PATCH_SRC = emmc ∧ (emmc = false → u.rd F.HOST_IMG_STAT_STATE = 3) ∧ s.sameMem u) ∧
  (∀ (s : State) (emmc : Bool) (ver : BitVec 16), s.busUp = true → s.boot = Boot.verify emmc →
    ∃ t, exec (.patchVerifyDone false ver) s = .next t ∧ t.boot = Boot.waitHost ∧ t.rd F.SYS_BOOT_STAT_PATCH_FAIL = 1 ∧
      s.raises .sys C.SYS_PATCH_FAIL 0 t ∧ (emmc = false → t.rd F.HOST_IMG_STAT_STATE = 4) ∧ s.sameMem t) ∧
  (∀ (s : State) (o : OtpRead), s.busUp = true → s.boot = Boot.warm →
    ∃ u, exec (.warmBootDone true o) s = .next u.finishBoot ∧ u.rd F.SYS_BOOT_STAT_WARM = 1 ∧ u.rd F.PWR_FENCE_FUSE = o.fuses.toNat ∧ s.sameMem u) ∧
  (∀ (s : State) (o : OtpRead), s.busUp = true → s.boot = Boot.warm →
    ∃ t, exec (.warmBootDone false o) s = .next t ∧ t.rd F.SYS_BOOT_STAT_WARM = 1 ∧ t.rd F.PWR_FENCE_FUSE = o.fuses.toNat ∧
      t.boot = (if s.on F.SYS_STRAP_BOOT_SRC then Boot.fetch else Boot.waitHost) ∧ s.sameMem t) ∧
  (∀ s : State, ∃ u, s.finishBoot = u.startServices.retarget ∧ u.boot = Boot.ready ∧ u.rd F.SYS_BOOT_STAT_READY = 1 ∧
    u.rd F.SYS_BOOT_STAT_WAIT_HOST = 0 ∧ s.raises .sys C.SYS_BOOT_DONE 0 u ∧ s.sameMem u)

/-- The sources of a warm reset and the records about the watchdogs and the management controller. A warm reset leads to the
warm boot with the bit of its source set; the queue of commands is the sender's and stays. -/
def Obligations.WarmResetSources : Prop :=
  (∀ (s : State) (lvl : Fin 4), s.accepts lvl 0x60 0x5A 0xF →
    ∃ t, exec (.warmResetCmd lvl) s = .next t ∧ t.boot = Boot.warm ∧ t.rd F.SYS_RESET_CAUSE_HOST_CMD = 1 ∧ t.pending = s.pending) ∧
  (∀ (s : State) (lvl : Fin 4), s.accepts lvl 0x60 0xA5 0xF →
    ∃ t, exec (.watchdogRestart lvl) s = .next t ∧ t.boot = s.boot ∧ t.pwr.wdogWarned = false ∧ s.sameRegsBut [0x60] t ∧ s.sameMem t) ∧
  (∀ s : State, s.busUp = true → s.rd F.SYS_WDOG_EN = 1 →
    ∃ t, exec .watchdogExpiry s = .next t ∧ t.boot = Boot.warm ∧ t.rd F.SYS_RESET_CAUSE_WDOG = 1 ∧ t.pending = s.pending) ∧
  (∀ s : State, s.busUp = true →
    ∃ t, exec .mgmtWatchdogExpiry s = .next t ∧ t.boot = Boot.warm ∧ t.rd F.SYS_RESET_CAUSE_MGMT_WDOG = 1 ∧ t.pending = s.pending) ∧
  (∀ s : State, s.busUp = true → s.rd F.SYS_WDOG_EN = 1 → s.pwr.wdogWarned = false →
    ∃ t, exec .wdogWarn s = .next t ∧ t.pwr.wdogWarned = true ∧ s.raises .sys C.SYS_WDOG_WARN 0 t ∧
      s.sameRegsBut (causeRegs .sys 0) t ∧ s.sameMem t) ∧
  (∀ (s : State) (consistency : Bool), s.busUp = true →
    ∃ t, exec (.mgmtTaskTimeout consistency) s = .next t ∧ t.rd F.SYS_MGMT_FAULT_CODE = (if consistency then 3 else 2) ∧ t.rd F.SYS_MGMT_FAULT_ADDR = 0 ∧
      s.raises .sys C.SYS_MGMT_FAULT 0 t ∧ s.sameRegsBut (0x70 :: causeRegs .sys 0) t ∧ s.sameMem t)

/-- A rail below its warning threshold sets its bit of SUPPLY_LOW and raises the cause, above Sleep and with the XO running; a rail
that recovers clears its bit (R51, R71). That in Sleep the bit is set without the cause is the model's reading (assumption 17). -/
def Obligations.SupplyWarnings : Prop :=
  (∀ (s : State) (r : Fin 5), s.boot ≠ Boot.held → bit (s.rd F.PWR_STATE_STAT_SUPPLY_LOW) r = false → s.radio ≠ 0 → s.clk.xo ≠ .failed →
    ∃ t, exec (.supplyLow r) s = .next t ∧ t.rd F.PWR_STATE_STAT_SUPPLY_LOW = setBit (s.rd F.PWR_STATE_STAT_SUPPLY_LOW) r ∧
      s.raises .pwr C.PWR_SUPPLY_LOW 0 t ∧ s.sameRegsBut (0x2044 :: causeRegs .pwr 0) t ∧ s.sameMem t) ∧
  (∀ (s : State) (r : Fin 5),
    ∃ t, exec (.supplyRecovered r) s = .next t ∧ t.rd F.PWR_STATE_STAT_SUPPLY_LOW = clrBit (s.rd F.PWR_STATE_STAT_SUPPLY_LOW) r ∧
      s.sameRegsBut [0x2044] t ∧ s.sameMem t)

/-- A write of HOST_REQ stores the request and the device resolves its target anew (R74). An enabled source wakes the device from
Sleep: its flags are shown, the target is Standby and the oscillator starts (R80). -/
def Obligations.RadioStateRequests : Prop :=
  (∀ (s : State) (lvl req : Fin 4), s.accepts lvl 0x2040 (BitVec.ofNat 32 req.val) 0xF →
    ∃ u, exec (.stateRequestWrite lvl req) s = .next u.retarget ∧ u.rd F.PWR_STATE_REQ_HOST_REQ = req.val ∧
      s.sameRegsBut [0x2040] u ∧ s.sameMem u) ∧
  (∀ (s : State) (others : BitVec 4), s.radio = 0 → s.pwr.trans = none → s.rd F.PWR_WAKE_CFG_QSPI_EN = 1 →
    ∃ t, exec (.wakeQspi others) s = .next t ∧ bit (t.rd F.PWR_STATE_STAT_WAKE_SRC) 0 = true ∧ t.pwr.trans = some .sleepToStandby ∧
      t.clk.xo = Xo.starting ∧ t.rd F.PWR_STATE_REQ_HOST_REQ = 1 ∧ t.rd F.PWR_STATE_STAT_TARGET = 1 ∧
      t.rd F.PWR_STATE_STAT_BUSY = 1 ∧ s.sameRegsBut [0x2040, 0x2044] t ∧ s.sameMem t) ∧
  (∀ (s : State) (others : BitVec 4), s.radio = 0 → s.pwr.trans = none → s.rd F.PWR_WAKE_CFG_TWI_EN = 1 →
    ∃ t, exec (.wakeTwi others) s = .next t ∧ bit (t.rd F.PWR_STATE_STAT_WAKE_SRC) 1 = true ∧ t.pwr.trans = some .sleepToStandby ∧
      t.clk.xo = Xo.starting ∧ t.rd F.PWR_STATE_STAT_TARGET = 1 ∧ s.sameRegsBut [0x2040, 0x2044] t ∧ s.sameMem t) ∧
  (∀ (s : State) (others : BitVec 4), s.radio = 0 → s.pwr.trans = none → s.rd F.PWR_WAKE_CFG_TIMER_EN = 1 →
    ∃ t, exec (.wakeTimer others) s = .next t ∧ bit (t.rd F.PWR_STATE_STAT_WAKE_SRC) 2 = true ∧ t.pwr.trans = some .sleepToStandby ∧
      t.clk.xo = Xo.starting ∧ t.rd F.PWR_STATE_STAT_TARGET = 1 ∧ s.sameRegsBut [0x2040, 0x2044] t ∧ s.sameMem t) ∧
  (∀ (s : State) (g : Fin 8) (others : BitVec 4), s.radio = 0 → s.pwr.trans = none → bit (s.rd F.PWR_WAKE_CFG_GPIO_MASK) g = true →
    ∃ t, exec (.wakeGpio g (bit (s.rd F.PWR_WAKE_CFG_GPIO_POL) g) others) s = .next t ∧
      bit (t.rd F.PWR_STATE_STAT_WAKE_SRC) 3 = true ∧ t.pwr.trans = some .sleepToStandby ∧ t.clk.xo = Xo.starting ∧
      t.rd F.PWR_STATE_STAT_TARGET = 1 ∧ s.sameRegsBut [0x2040, 0x2044] t ∧ s.sameMem t) ∧
  (∀ (s : State) (others : BitVec 4), s.pwr.trans = some .standbyToSleep → s.rd F.PWR_WAKE_CFG_QSPI_EN = 1 →
    ∃ t, exec (.wakeQspi others) s = .next t ∧ bit t.pwr.wakePend 0 = true ∧ t.pwr.trans = some .standbyToSleep ∧
      s.sameRegsBut [] t ∧ s.sameMem t)

/-- The end of a transition shows the state reached and ends BUSY; what the device then goes on with is the named operation
(R75, R484). Sleep stops the oscillator, holds INT_N and keeps only banks 48 and 49 (R72, R90); a
target that rose meanwhile wakes the device at once (R75). -/
def Obligations.RadioTransitions : Prop :=
  (∀ (s : State) (pow : Powers) (ok : Bool), s.pwr.trans = some .rxToTx → s.clk.xo = Xo.stable →
    ∃ u, exec (.stateTransitionDone pow ok) s = .next u.advance ∧ u.radio = 4 ∧ u.rd F.PWR_STATE_STAT_BUSY = 0 ∧
      u.pwr.trans = none ∧ s.sameRegsBut [0x2044] u ∧ s.sameMem u) ∧
  (∀ (s : State) (pow : Powers) (ok : Bool), s.pwr.trans = some .txToRx → s.clk.xo = Xo.stable →
    ∃ u, exec (.stateTransitionDone pow ok) s = .next (u.beginSweep pow).advance ∧ u.radio = 3 ∧ u.rd F.PWR_STATE_STAT_BUSY = 0 ∧
      u.pwr.trans = none ∧ s.sameRegsBut [0x2044] u ∧ s.sameMem u) ∧
  (∀ (s : State) (pow : Powers) (ok : Bool) (tr : Trans) (k : Nat), s.pwr.trans = some tr → s.clk.xo = Xo.stable →
    (tr, k) ∈ [(.standbyToSynth, 2), (.synthToRx, 3), (.rxToTx, 4), (.txToRx, 3), (.rxToSynth, 2)] →
    ∃ t, exec (.stateTransitionDone pow ok) s = .next t ∧ t.radio = k) ∧
  (∀ (s : State) (pow : Powers) (ok : Bool), s.pwr.trans = some .standbyToSleep → s.clk.xo = Xo.stable → s.pwr.wakePend = 0 →
    ∃ t, exec (.stateTransitionDone pow ok) s = .next t ∧ t.radio = 0 ∧ t.clk.xo = (if s.rd F.PWR_STATE_STAT_TARGET = 0 then Xo.stopped else Xo.starting) ∧
      t.pwr.trans = (if s.rd F.PWR_STATE_STAT_TARGET = 0 then none else some .sleepToStandby) ∧ t.pins.intnSleep = (s.intTree && !s.intGap) ∧
      t.pending = s.pending ∧ (∀ a, bankAddr 48 ≤ a → t.byte a = s.byte a) ∧ (∀ a, a < bankAddr 48 → t.byte a = 0)) ∧
  (∀ s : State, s.rd F.PWR_STATE_STAT_DRAINING = 1 → s.clk.xo = Xo.stable → s.drained = true → s.data.writes = [] →
    ∃ t, exec .drainDone s = .next t ∧ t.rd F.PWR_STATE_STAT_DRAINING = 0 ∧ t.rd F.PWR_STATE_STAT_BUSY = 1 ∧
      t.pwr.trans = some .synthToStandby ∧ s.sameRegsBut [0x2044] t ∧ s.sameMem t) ∧
  (∀ s : State, s.rd F.PWR_STATE_STAT_DRAINING = 1 → s.clk.xo = Xo.stable →
    ∃ t, exec .drainTimeout s = .next t ∧ t.rd F.PWR_STATE_STAT_DRAINING = 0 ∧ t.pwr.trans = some .synthToStandby ∧
      t.data.envs = [] ∧ t.data.waiting = [] ∧ t.data.writes = [] ∧ t.data.hwm = s.data.hwm ∧ t.data.store = s.data.store ∧
      s.sameMem t) ∧
  (∀ s : State, s.pwr.trans = some .standbyToSynth → s.clk.xo = Xo.stable → s.pwr.lockFailed = false →
    ∃ u, exec .synthLockFail s = .next u.retarget ∧ u.radio = 1 ∧ u.pwr.lockFailed = true ∧ s.raises .pwr C.PWR_STATE_FAIL 0 u ∧
      u.clk.consecFail = s.clk.consecFail + 1 ∧ s.sameMem u) ∧
  (∀ s : State, s.pwr.lockFailed = true → s.clk.xo = Xo.stable → s.pwr.trans = none → s.radio = 1 → 2 ≤ s.rd F.PWR_STATE_STAT_TARGET →
    ∃ t, exec .synthLockRetry s = .next t ∧ t.pwr.trans = some .standbyToSynth ∧ t.rd F.PWR_STATE_STAT_BUSY = 1 ∧
      t.rd F.CLK_ROOT_STAT_SEED_LOADED = 1 ∧ t.clk.seed = s.rd F.CLK_DITHER_SEED_SEED ∧ s.sameRegsBut [0x1044, 0x2044] t ∧ s.sameMem t)

/-- The life of a cluster, as CLUS.STAT.POWER codes it: 1 powering up, 2 self-test, 3 bank initialisation, 4 running, 5 fenced with
power still on, 6 fenced and off. -/
def Obligations.ClusterPower : Prop :=
  (∀ (s : State) (c : Fin 4), s.cpow c = 1 → s.clk.xo = Xo.stable →
    ∃ t, exec (.clusterPowerUpDone c) s = .next t ∧
      t.cpow c = (if (s.clu c).unfencing || (s.clu c).testDue then 2 else 3) ∧
      s.sameRegsBut [(F.CLUS_STAT_POWER c).addr] t ∧ s.sameMem t) ∧
  (∀ (s : State) (c : Fin 4), s.cpow c = 2 → s.clk.xo = Xo.stable →
    ∃ t, exec (.selftestDone c true) s = .next t ∧ t.cpow c = 3 ∧ t.rd (F.CLUS_SELFTEST_VALID c) = 1 ∧
      t.rd (F.CLUS_SELFTEST_PASS c) = 1 ∧
      s.sameRegsBut [(F.CLUS_STAT_POWER c).addr, (F.CLUS_SELFTEST_PASS c).addr] t ∧ s.sameMem t) ∧
  (∀ (s : State) (c : Fin 4), s.cpow c = 2 → s.clk.xo = Xo.stable →
    ∃ u, exec (.selftestDone c false) s = .next (u.faultFence c.val 1) ∧ u.rd (F.CLUS_SELFTEST_VALID c) = 1 ∧
      u.rd (F.CLUS_SELFTEST_PASS c) = 0 ∧ s.sameMem u) ∧
  (∀ (s : State) (c : Fin 4), s.cpow c = 3 → s.clk.xo = Xo.stable →
    ∃ t, exec (.bankInitDone c) s = .next t ∧ (t.clu c).bankReady = true ∧ s.sameRegsBut [] t ∧
      (∀ a, bankAddr (12 * c) ≤ a → a < bankAddr (12 * c + 12) → t.byte a = 0) ∧
      (∀ a, a < bankAddr (12 * c) ∨ bankAddr (12 * c + 12) ≤ a → t.byte a = s.byte a) ∧
      (∀ p, p ∈ t.memT.poison → p / 65536 / 12 ≠ c.val) ∧ (∀ w, w ∈ t.memT.single → w / 32768 / 12 ≠ c.val)) ∧
  (∀ (s : State) (c : Fin 4), s.cpow c = 3 → (s.clu c).bankReady = true → s.rootOk = true → (s.clu c).unfencing = false →
    (∀ n, n < 24 → (s.lane n).due = false) →
    ∃ t, exec (.clusterClockStart c) s = .next t ∧ t.cpow c = 4 ∧ (t.clu c).bankReady = false ∧
      s.sameRegsBut [(F.CLUS_STAT_POWER c).addr] t ∧ s.sameMem t) ∧
  (∀ (s : State) (c : Fin 4), s.cpow c = 3 → (s.clu c).bankReady = true → s.rootOk = true →
    ∃ u v : State, u.cpow c = 4 ∧ (u.clu c).bankReady = false ∧ (u.clu c).unfencing = false ∧
      s.sameRegsBut [(F.CLUS_STAT_POWER c).addr] u ∧ s.sameMem u ∧
      v = u.each ((List.range 6).map (6 * c.val + ·)) (fun s n => if (s.lane n).due then s.applyDue n else s) ∧
      exec (.clusterClockStart c) s = .next (if (s.clu c).unfencing then (v.raise .pwr C.PWR_UNFENCED).trigger else v)) ∧
  (∀ (s : State) (c : Fin 4), s.cpow c = 5 → s.busUp = true →
    ∃ t, exec (.fencePowerOff c) s = .next t ∧ t.cpow c = 6 ∧ s.sameRegsBut [(F.CLUS_STAT_POWER c).addr] t ∧ s.sameMem t) ∧
  (∀ (s : State) (c : Fin 4), s.cpow c = 4 → s.rootOk = true →
    exec (.clusterClockStopped c) s = .next (s.faultFence c.val 3)) ∧
  (∀ (s : State) (c : Fin 4) (why : Nat), s.mgmtDenied fenceTask = none → s.faultFence c.val why = s.fence [c.val] true why) ∧
  (∀ (s : State) (c : Fin 4) (fault : Bool) (why : Nat), ∃ t : State, s.fence [c.val] fault why = t ∧
      bit (t.rd (if fault then F.PWR_FENCE_FAULT else F.PWR_FENCE_THERM)) c = true ∧ bit (t.rd F.PWR_FENCE_FENCED) c = true ∧
      (bit (s.rd F.PWR_FENCE_FENCED) c = false → t.cpow c = 5) ∧ (bit (s.rd F.PWR_FENCE_FENCED) c = true → t.cpow c = s.cpow c) ∧
      (fault = true → t.rd (F.CLUS_STAT_FAULT_WHY c) = why % 4) ∧
      (s.en .clus c = true → t.rd (F.CLUS_COUNT_FENCES c) = min 65535 (s.rd (F.CLUS_COUNT_FENCES c) + 1)) ∧
      s.raises .pwr C.PWR_FENCED 0 t) ∧
  (∀ (s : State) (c : Fin 4) (lvl : Fin 4),
    s.accepts lvl 0x2064 (putBits (fieldWord F.PWR_CLUS_CTRL_UNFENCE (2 ^ c.val)) 0 0 (s.rd F.PWR_CLUS_CTRL_IDLE_OFF)) 0xF →
    ∃ u, exec (.unfenceRequest lvl (BitVec.ofNat 4 (2 ^ c.val))) s = .next ((u.unfenceReq c).clusEvalAll) ∧
      u.rd F.PWR_CLUS_CTRL_UNFENCE = 0 ∧ u.rd F.PWR_CLUS_CTRL_IDLE_OFF = s.rd F.PWR_CLUS_CTRL_IDLE_OFF ∧
      s.sameRegsBut [0x2064] u ∧ s.sameMem u)

/-- Loss of the root PLL, its relock attempts and its return, and what the clock commands of one step do. -/
def Obligations.RootPll : Prop :=
  (∀ (s : State) (cut : List VrsCut), s.rootWatched = true →
    ∃ u : State, exec (.rootLockLoss cut) s = .next (((u.vrsCut cut).lanesSync.dataHalts.strmLoss.probeAbort 3).linksEval) ∧ u.clk.rootLost = true ∧ u.clk.relockQual = false ∧
      u.rd F.CLK_ROOT_STAT_LOCKED = 0 ∧ u.rd F.CLK_ROOT_STAT_ON_FALLBACK = 1 ∧
      u.rd F.CLK_RELOCK_COUNT_LOSSES = min (s.rd F.CLK_RELOCK_COUNT_LOSSES + 1) 65535 ∧
      s.raises .clk C.CLK_ROOT_LOSS 0 u ∧ s.raises .clk C.CLK_FALLBACK 0 u ∧ s.sameMem u) ∧
  (∀ s : State, 2 ≤ s.radio → s.clk.xo = Xo.stable → s.clk.rootLost = true → s.clk.relockQual = false → 2 ≤ s.rd F.PWR_STATE_STAT_TARGET →
    s.pwr.trans ≠ some .synthToStandby →
    ∃ t, exec .relockAttempt s = .next t ∧ t.rd F.CLK_ROOT_STAT_ATTEMPTING = 1 ∧ t.rd F.CLK_ROOT_STAT_SEED_LOADED = 1 ∧
      t.clk.seed = s.rd F.CLK_DITHER_SEED_SEED ∧ s.sameRegsBut [0x1044] t ∧ s.sameMem t) ∧
  (∀ s : State, s.rd F.CLK_ROOT_STAT_ATTEMPTING = 1 → s.clk.xo = Xo.stable →
    ∃ t, exec .relockAttemptFail s = .next t ∧ t.rd F.CLK_ROOT_STAT_ATTEMPTING = 0 ∧ t.clk.consecFail = s.clk.consecFail + 1 ∧
      s.raises .clk C.CLK_RELOCK_TRY 0 t ∧
      (s.rd F.CLK_RELOCK_CFG_FAIL_THR ≤ s.clk.consecFail + 1 → s.clk.failRaised = false →
        s.raises .clk C.CLK_RELOCK_FAIL_OR_RC_CAL_FAIL 0 t ∧ t.clk.failRaised = true ∧ t.rd F.CLK_ROOT_STAT_FAIL_SRC = 0) ∧
      s.sameRegsBut (0x1044 :: 0x1060 :: causeRegs .clk 0) t ∧ s.sameMem t) ∧
  (∀ s : State, s.rd F.CLK_ROOT_STAT_ATTEMPTING = 1 → s.clk.xo = Xo.stable →
    ∃ t, exec .relockQualified s = .next t ∧ t.rd F.CLK_ROOT_STAT_ATTEMPTING = 0 ∧ t.rd F.CLK_ROOT_STAT_LOCKED = 1 ∧
      t.clk.relockQual = true ∧ t.clk.consecFail = 0 ∧ s.raises .clk C.CLK_RELOCK 0 t ∧
      s.sameRegsBut (0x1044 :: causeRegs .clk 0) t ∧ s.sameMem t) ∧
  (∀ s : State, s.clk.rootLost = true → s.clk.relockQual = true → s.radio = 2 → s.clk.xo = Xo.stable → s.rd F.CLK_DIV_COMMIT_COMMIT = 0 →
    ∃ u : State, exec .rootReturn s = .next (((u.each (List.range 4) State.restartInput).lanesSync.linksEval).advance) ∧
      u.clk.rootLost = false ∧ u.clk.relockQual = false ∧ u.clk.dither = s.on F.CLK_ROOT_CTRL_DITHER_EN ∧
      u.rd F.CLK_ROOT_STAT_ON_FALLBACK = 0 ∧ s.raises .clk C.CLK_RETURN 0 u ∧ s.sameMem u) ∧
  (∀ s : State, s.rootOk = true → s.rd F.CLK_DIV_COMMIT_COMMIT = 1 →
    ∃ u : State, exec .divApply s = .next (u.followRates ((List.range 4).map s.rate)) ∧
      (∀ i, i < 4 → u.rate i = s.staged i) ∧ u.rd F.CLK_DIV_COMMIT_COMMIT = 0 ∧ s.raises .clk C.CLK_DIV_APPLIED 0 u ∧
      s.sameRegsBut (0x1054 :: 0x1058 :: causeRegs .clk 0) u ∧ s.sameMem u) ∧
  (∀ s : State, s.rootOk = true →
    ∃ t, exec .ditherEnApply s = .next t ∧ t.clk.dither = s.on F.CLK_ROOT_CTRL_DITHER_EN ∧ s.sameRegsBut [] t ∧ s.sameMem t) ∧
  (∀ s : State, s.clk.xo = Xo.stable →
    ∃ t, exec .xoDriveStep s = .next t ∧ s.sameRegsBut [] t ∧ s.sameMem t ∧
      (s.clk.drive < s.rd F.CLK_XO_CFG_DRIVE → t.clk.drive = s.clk.drive + 1) ∧
      (s.rd F.CLK_XO_CFG_DRIVE < s.clk.drive → t.clk.drive = s.clk.drive - 1) ∧
      (s.clk.drive = s.rd F.CLK_XO_CFG_DRIVE → t.clk.drive = s.clk.drive)) ∧
  (∀ (s : State) (count : BitVec 24), s.pwr.trans = some .rcCal → s.clk.xo = Xo.stable → 1459200 ≤ count.toNat → count.toNat ≤ 1612800 →
    ∃ t, exec (.rcCalibrationDone count) s = .next t ∧ t.rd F.CLK_RC_CAL_XO_PER_1024 = count.toNat ∧
      t.pwr.trans = some .standbyToSleep ∧ t.rd F.PWR_STATE_STAT_BUSY = 1 ∧
      s.sameRegsBut [F.CLK_RC_CAL_XO_PER_1024.addr, 0x2044] t ∧ s.sameMem t) ∧
  (∀ (s : State) (count : BitVec 24), s.pwr.trans = some .rcCal → s.clk.xo = Xo.stable → (count.toNat < 1459200 ∨ 1612800 < count.toNat) →
    ∃ t, exec (.rcCalibrationDone count) s = .next t ∧ t.rd F.CLK_RC_CAL_XO_PER_1024 = s.rd F.CLK_RC_CAL_XO_PER_1024 ∧
      t.rd F.CLK_ROOT_STAT_FAIL_SRC = 1 ∧ s.raises .clk C.CLK_RELOCK_FAIL_OR_RC_CAL_FAIL 0 t ∧ t.pwr.trans = some .standbyToSleep ∧ s.sameMem t)

/-- What a write to a page header does once it passes the checks of R111, and the end of a page reset (R103 to R109, R122, R123).
A page reset and a change of EN or LEVEL go on with what the block of the page does; `wipePage` is the register part (R90).
Where FEC is reset or disabled, the blocks that its Viterbi/RS units have partly decoded, `x.vrs`, are lost first (R345). -/
def Obligations.PageHeader : Prop :=
  ∀ (s : State) (lvl : Fin 4) (page : Fin 78) (t : PageType) (i : Nat), pageAt page = some (t, i) →
    (s.accepts lvl (t.base i + 4) (s.pageCtrl page 1 1 1) 0xF →
      ∀ x : Facts, ∃ u : State, exec (.pageSoftReset lvl page x) s = .next u ∧ u.rd (F.PAGE_SOFT_RST t i) = 1 ∧ u.rd (F.PAGE_RST_BUSY t i) = 1 ∧
        (∃ c v : State, c = (if t = .fec then s.vrsCut x.vrs else s) ∧ v = ((c.beforeReset t i).wipePage t i).afterReset c t i ∧
          (if s.isExpert t i then v.levelEvent t i else v).sameRegsBut [t.base i + 4, t.base i + 8] u ∧ v.sameMem u)) ∧
    (∀ (v : State) (o : Nat), o < 0x1000 → (pageMask t o = 0 → (v.wipePage t i).reg (t.base i + o) = resetWord (t.base i + o))) ∧
    (s.busUp = true → s.rstBusy t i = true →
      ∃ u : State, exec (.pageResetDone page) s = .next u ∧ u.rstBusy t i = false ∧ u.rd (F.PAGE_SOFT_RST t i) = 0 ∧
        u.rd F.SYS_EVENT_PAGE_RESET_PAGE = page ∧ s.raises .sys C.SYS_PAGE_RESET 0 u ∧
        s.sameRegsBut ((t.base i + 4) :: (t.base i + 8) :: F.SYS_EVENT_PAGE_RESET_PAGE.addr :: causeRegs .sys 0) u ∧ s.sameMem u) ∧
    (∀ expert : Bool, s.accepts lvl (t.base i + 4) (s.pageCtrl page 8 8 (b2n expert)) 0xF → s.isExpert t i ≠ expert →
      ∃ u v : State, v = (if expert then u else u.rederive t i) ∧ exec (.pageLevelWrite lvl page expert) s =
          .next (if t = .lane ∧ expert = true ∧ v.laneUnpinned i = true then v.lostLane i else if t = .lane ∨ t = .place then v.trigger else v) ∧
        u.isExpert t i = expert ∧ u.rd F.SYS_EVENT_PAGE_LEVEL_PAGE = page ∧ u.rd F.SYS_EVENT_PAGE_LEVEL_INIT = lvl ∧
        s.raises .sys C.SYS_LEVEL_CHANGED 0 u ∧
        s.sameRegsBut ((t.base i + 4) :: F.SYS_EVENT_PAGE_LEVEL_PAGE.addr :: causeRegs .sys 0) u ∧ s.sameMem u) ∧
    (∀ expert : Bool, s.accepts lvl (t.base i + 4) (s.pageCtrl page 8 8 (b2n expert)) 0xF → s.isExpert t i = expert →
      exec (.pageLevelWrite lvl page expert) s = .next s) ∧
    (∀ on : Bool, s.accepts lvl (t.base i + 4) (s.pageCtrl page 0 0 (b2n on)) 0xF → s.en t i ≠ on →
      ∀ x : Facts, ∃ u : State, exec (.pageEnableWrite lvl page on x) s = .next (u.afterEnable t i on) ∧ u.en t i = on ∧
        (if on then s.beforeEnable t i else if t = .fec then s.vrsCut x.vrs else s).sameRegsBut [t.base i + 4] u ∧ s.sameMem u) ∧
    (∀ on : Bool, s.accepts lvl (t.base i + 4) (s.pageCtrl page 0 0 (b2n on)) 0xF → s.en t i = on →
      ∀ x : Facts, exec (.pageEnableWrite lvl page on x) s = .next s) ∧
    (∀ w : Word, s.accepts lvl (t.base i + 0x20) w 0xF →
      ∃ u : State, exec (.pageLockWrite lvl page w) s = .next u ∧ u.rd (F.LOCK t i) = getBits w 0 0 ∧
        u.rd (F.PERM t i) = s.rd (F.PERM t i) ||| getBits w 1 1 ∧ s.sameRegsBut [t.base i + 0x20] u ∧ s.sameMem u) ∧
    (∀ m : BitVec 8, s.accepts lvl (t.base i + 0x10) (BitVec.ofNat 32 m.toNat) 0xF →
      ∃ u : State, exec (.causeClear lvl page m) s = .next u ∧ u.rd (F.CAUSE t i) = maskSub (s.rd (F.CAUSE t i)) m.toNat ∧
        (u.rd (F.CAUSE t i) = 0 → u.rd (F.PAGE_FORCED t i) = 0) ∧
        s.sameRegsBut [t.base i + 0x10, t.base i + 8] u ∧ s.sameMem u) ∧
    (∀ m : BitVec 8, s.accepts lvl (t.base i + 0x18) (BitVec.ofNat 32 m.toNat) 0xF → s.en t i = true → m.toNat &&& t.causeMask ≠ 0 →
      ∃ u : State, exec (.causeForce lvl page m) s = .next u ∧ u.rd (F.PAGE_FORCED t i) = 1 ∧
        (∀ b, b < 8 → bit (m.toNat &&& t.causeMask) b = true → u.caused t b i) ∧
        s.sameRegsBut ((t.base i + 8) :: causeRegs t i) u ∧ s.sameMem u) ∧
    (∀ m : BitVec 8, s.accepts lvl (t.base i + 0x14) (BitVec.ofNat 32 m.toNat) 0xF →
      ∃ u : State, exec (.causeEnableWrite lvl page m) s = .next u ∧ u.rd (F.CAUSE_EN t i) = m.toNat ∧
        s.sameRegsBut [t.base i + 0x14] u ∧ s.sameMem u)

/-- R111: alignment, reserved address, access rights, page lock, range checking, in this order; the first failing check ends the
access and only it is recorded. A write that passes them all is performed; of several reasons of range checking one is recorded
(which one is left open: assumption 1). The model lets the management controller write no word of which R120 says that it never does:
such a command does nothing. -/
def Obligations.AccessChecksInOrder : Prop :=
  ∀ (s : State) (lvl : Fin 4) (a : BitVec 24) (w : Word) (x : Facts) (hits : List MemHit), s.answers = true →
    (mgmtNever lvl a.toNat = true → exec (.registerWrite lvl a w x) s = .next s) ∧
    (a.toNat % 4 ≠ 0 →
      (mgmtNever lvl a.toNat = false → exec (.registerWrite lvl a w x) s = .next (s.refuse lvl a.toNat true 2)) ∧
      s.busRead s lvl a.toNat hits = (s.refuse lvl a.toNat false 2, { word := 0, refused := true, bad := false })) ∧
    (a.toNat % 4 = 0 → s.reserved lvl a.toNat = true →
      (mgmtNever lvl a.toNat = false → exec (.registerWrite lvl a w x) s = .next (s.refuse lvl a.toNat true 1)) ∧
      s.busRead s lvl a.toNat hits = (s.refuse lvl a.toNat false 1, { word := 0, refused := true, bad := false })) ∧
    (a.toNat % 4 = 0 → s.reserved lvl a.toNat = false →
      (s.mayAccess lvl (artIndex a.toNat) false = false →
        s.busRead s lvl a.toNat hits = (s.refuse lvl a.toNat false 0, { word := 0, refused := true, bad := false })) ∧
      (s.mayAccess lvl (artIndex a.toNat) false = true → (s.busRead s lvl a.toNat hits).2.refused = false) ∧
      (mgmtNever lvl a.toNat = false → s.mayAccess lvl (artIndex a.toNat) true = false →
        exec (.registerWrite lvl a w x) s = .next (s.refuse lvl a.toNat true 0)) ∧
      (mgmtNever lvl a.toNat = false → s.mayAccess lvl (artIndex a.toNat) true = true →
        (∀ t i o kind, pageOf a.toNat = some (t, i, o) → s.lockKind lvl t i o w = some kind →
          exec (.registerWrite lvl a w x) s = .next ((s.countReject t i).refuse lvl a.toNat true kind)) ∧
        ((∀ t i o, pageOf a.toNat = some (t, i, o) → s.lockKind lvl t i o w = none) →
          (s.rangeReasons lvl a.toNat w x.rfin ≠ [] →
            ∃ (u : State) (reason : Nat), reason ∈ s.rangeReasons lvl a.toNat w x.rfin ∧
              exec (.registerWrite lvl a w x) s = .next (u.rangeReject lvl a.toNat w reason) ∧ s.sameMem u ∧
              (∀ b, (∀ t i o, pageOf a.toNat = some (t, i, o) → b ≠ (F.PAGE_REJECTS t i).addr) → u.reg b = s.reg b)) ∧
          (s.rangeReasons lvl a.toNat w x.rfin = [] →
            (isSram a.toNat = true → exec (.registerWrite lvl a w x) s = .next (s.sramWrite x.hits a.toNat w).1) ∧
            (isSram a.toNat = false → ∀ t i o, pageOf a.toNat = some (t, i, o) →
              exec (.registerWrite lvl a w x) s =
                .next (if t = .hamper then s.hamperWrite x.hits a.toNat w else s.perform lvl t i o w x))))))

/-- The first refused access and the first rejected write are captured, later ones are counted, raise CAPT_OVF and overwrite no
capture; clearing VALID re-arms it (R112). KIND codes the refusal (R118). -/
def Obligations.RefusalsAreRecorded : Prop :=
  ∀ (s : State) (lvl : Fin 4) (a : BitVec 24),
    (∀ (write : Bool) (kind : Fin 5),
      (s.refuse lvl a.toNat write kind).rd F.PROT_COUNT_ACCESS = min (s.rd F.PROT_COUNT_ACCESS + 1) 0xFFFF ∧
      (s.rd F.PROT_ACCESS_CAPT_VALID = 0 →
        (s.refuse lvl a.toNat write kind).rd F.PROT_ACCESS_CAPT_VALID = 1 ∧
        (s.refuse lvl a.toNat write kind).rd F.PROT_ACCESS_CAPT_WRITE = b2n write ∧
        (s.refuse lvl a.toNat write kind).rd F.PROT_ACCESS_CAPT_KIND = kind ∧
        (s.refuse lvl a.toNat write kind).rd F.PROT_ACCESS_CAPT_INIT = lvl ∧
        (s.refuse lvl a.toNat write kind).rd F.PROT_ACCESS_CAPT_ADDR = a.toNat) ∧
      (s.rd F.PROT_ACCESS_CAPT_VALID = 1 →
        (s.refuse lvl a.toNat write kind).reg 0x5048 = s.reg 0x5048 ∧ s.raises .prot C.PROT_CAPT_OVF 0 (s.refuse lvl a.toNat write kind)) ∧
      s.raises .prot (kindCause kind) 0 (s.refuse lvl a.toNat write kind) ∧
      s.sameRegsBut ([0x504C, 0x5048, 0x70] ++ causeRegs .prot 0 ++ causeRegs .sys 0) (s.refuse lvl a.toNat write kind) ∧
      s.sameMem (s.refuse lvl a.toNat write kind)) ∧
    (∀ (w : Word) (reason : Fin 7),
      (s.rangeReject lvl a.toNat w reason).rd F.PROT_COUNT_RANGE = min (s.rd F.PROT_COUNT_RANGE + 1) 0xFFFF ∧
      (s.rd F.PROT_RANGE_CAPT_VALID = 0 →
        (s.rangeReject lvl a.toNat w reason).rd F.PROT_RANGE_CAPT_VALID = 1 ∧
        (s.rangeReject lvl a.toNat w reason).rd F.PROT_RANGE_CAPT_REASON = reason ∧
        (s.rangeReject lvl a.toNat w reason).rd F.PROT_RANGE_CAPT_INIT = lvl ∧
        (s.rangeReject lvl a.toNat w reason).rd F.PROT_RANGE_CAPT_ADDR = a.toNat ∧
        (s.rangeReject lvl a.toNat w reason).reg 0x5044 = w) ∧
      (s.rd F.PROT_RANGE_CAPT_VALID = 1 →
        (s.rangeReject lvl a.toNat w reason).reg 0x5040 = s.reg 0x5040 ∧ (s.rangeReject lvl a.toNat w reason).reg 0x5044 = s.reg 0x5044 ∧
        s.raises .prot C.PROT_CAPT_OVF 0 (s.rangeReject lvl a.toNat w reason)) ∧
      s.raises .prot C.PROT_RANGE 0 (s.rangeReject lvl a.toNat w reason) ∧
      s.sameRegsBut ([0x504C, 0x5040, 0x5044] ++ causeRegs .prot 0) (s.rangeReject lvl a.toNat w reason) ∧
      s.sameMem (s.rangeReject lvl a.toNat w reason)) ∧
    (∀ x : Facts, s.accepts lvl 0x5048 0x80000000 x.rfin →
      ∃ t : State, exec (.registerWrite lvl 0x5048 0x80000000 x) s = .next t ∧ t.rd F.PROT_ACCESS_CAPT_VALID = 0 ∧
        s.sameRegsBut [0x5048] t ∧ s.sameMem t) ∧
    (∀ x : Facts, s.accepts lvl 0x5040 0x80000000 x.rfin →
      ∃ t : State, exec (.registerWrite lvl 0x5040 0x80000000 x) s = .next t ∧ t.rd F.PROT_RANGE_CAPT_VALID = 0 ∧
        s.sameRegsBut [0x5040] t ∧ s.sameMem t)

/-- Whatever is written to the word of the table that holds entry 5, bits 1:0 of the entry read 1 after it, as they do at reset;
with them at 1, level 0 may read and write the PROT page, whatever the rest of the table holds (R116). -/
def Obligations.ArtKeepsLevelZero : Prop :=
  getBits (State.reset.reg 0x5804) 9 8 = 3 ∧
  (∀ (s : State) (lvl : Fin 4) (w : Word), s.accepts lvl 0x5804 w 0xF →
    ∃ t : State, exec (.artWrite lvl 1 w) s = .next t ∧ getBits (t.reg 0x5804) 9 8 = 3 ∧
      getBits (t.reg 0x5804) 31 10 = getBits w 31 10 ∧ getBits (t.reg 0x5804) 7 0 = getBits w 7 0) ∧
  (∀ (s : State) (write : Bool), getBits (s.reg 0x5804) 9 8 = 3 →
    ∀ a : BitVec 24, pageOf a.toNat = some (.prot, 0, a.toNat % 0x1000) → s.mayAccess 0 (artIndex a.toNat) write = true)

/-- A write of a word of the table that passes its checks is in force when it is done, raises ART_CHANGED where it changes an entry,
and touches nothing else; CLR_COUNT clears both counts. -/
def Obligations.RightsWrites : Prop :=
  (∀ (s : State) (lvl : Fin 4) (k : Fin 21) (w : Word), s.accepts lvl (0x5800 + 4 * k.val) w 0xF →
    ∃ t : State, exec (.artWrite lvl k w) s = .next t ∧
      t.reg (0x5800 + 4 * k.val) = (if k.val = 1 then w ||| 0x300 else if k.val = 20 then w &&& 0xFF else w) ∧
      (∀ j, j < 4 → 4 * k.val + j ≠ 5 → 4 * k.val + j ≤ 80 → t.art (4 * k.val + j) = getBits w (8 * j + 7) (8 * j)) ∧
      (t.reg (0x5800 + 4 * k.val) ≠ s.reg (0x5800 + 4 * k.val) → s.raises .prot C.PROT_ART_CHANGED 0 t) ∧
      s.sameRegsBut ((0x5800 + 4 * k.val) :: causeRegs .prot 0) t ∧ s.sameMem t) ∧
  (∀ (s : State) (lvl : Fin 4), s.accepts lvl 0x5050 1 0xF →
    ∃ t : State, exec (.protCountClear lvl) s = .next t ∧ t.rd F.PROT_COUNT_ACCESS = 0 ∧ t.rd F.PROT_COUNT_RANGE = 0 ∧
      s.sameRegsBut [0x504C] t ∧ s.sameMem t)

/-- A group's bit of IRQ.SUMMARY is 1 exactly while a page of the group holds an enabled cause; INT_N follows PENDING and INT_CFG
(R123), and holds its level in Sleep until boot (R39). INT_CFG stores its bits, and the end of an EDGE_GAP asserts INT_N again (R124). -/
def Obligations.InterruptTree : Prop :=
  (∀ (s : State) (g : Fin 16), bit s.irqSummary g = true ↔
    ∃ t i, t.group = some g.val ∧ i < t.map.2.1 ∧ s.rd (F.CAUSE t i) &&& s.rd (F.CAUSE_EN t i) ≠ 0) ∧
  (∀ s : State, s.intTree = true ↔ s.rd F.IRQ_INT_CFG_EN = 1 ∧ ∃ g : Fin 16, bit s.irqSummary g = true ∧ bit (s.rd F.IRQ_GROUP_EN_EN) g = true) ∧
  (∀ s : State, s.intGap = false → s.clk.xo ≠ .failed → s.clk.xoLate = false → s.pins.gpioSleep = false → s.intPin = s.intTree) ∧
  (∀ s : State, s.pins.gpioSleep = true → s.clk.xo ≠ .failed → s.clk.xoLate = false → s.intPin = s.pins.intnSleep) ∧
  (∀ (s : State) (lvl : Fin 4) (w : Word), s.accepts lvl 0x3048 w 0xF →
    ∃ t : State, exec (.intCfgWrite lvl w) s = .next t ∧ t.rd F.IRQ_INT_CFG_EN = getBits w 0 0 ∧
      t.rd F.IRQ_INT_CFG_MODE = getBits w 1 1 ∧ t.rd F.IRQ_INT_CFG_EDGE_GAP = getBits w 2 2 ∧ s.sameRegsBut [0x3048] t ∧ s.sameMem t) ∧
  (∀ s : State, ∃ t : State, exec .intEdgeGapEnd s = .next t ∧ t.intGap = false ∧ s.sameRegsBut [] t ∧ s.sameMem t)

/-- The writes of DIV_COMMIT and XO_STAT.CLEAR, and a temperature sample: it is shown, the peak is kept, and the thresholds are judged
on it (R88). -/
def Obligations.ClockAndTemperature : Prop :=
  (∀ (s : State) (lvl : Fin 4), s.accepts lvl F.CLK_DIV_COMMIT_COMMIT.addr 1 0xF →
    ∃ t : State, exec (.divCommit lvl) s = .next t ∧ t.rd F.CLK_DIV_COMMIT_COMMIT = 1 ∧
      s.sameRegsBut [F.CLK_DIV_COMMIT_COMMIT.addr] t ∧ s.sameMem t) ∧
  (∀ (s : State) (lvl : Fin 4), s.accepts lvl 0x1064 2 0xF →
    ∃ t : State, exec (.xoFailClear lvl) s = .next t ∧ t.rd F.CLK_XO_STAT_XO_FAIL = 0 ∧ s.sameRegsBut [0x1064] t ∧ s.sameMem t) ∧
  (∀ (s : State) (t0 t1 t2 t3 centre : BitVec 8), s.busUp = true →
    ∃ u : State, exec (.tempSample t0 t1 t2 t3 centre) s =
        .next ((u.mgmtTask thermTask fun u => u.judgeTemps [centre.toNat, t0.toNat, t1.toNat, t2.toNat, t3.toNat]
          [s.rd F.PWR_TEMP_SYS_CENTRE, s.rd F.PWR_TEMP_CLUS0, s.rd F.PWR_TEMP_CLUS1, s.rd F.PWR_TEMP_CLUS2, s.rd F.PWR_TEMP_CLUS3]).thermosFreq.retarget) ∧
      u.rd F.PWR_TEMP_CLUS0 = t0.toNat ∧ u.rd F.PWR_TEMP_CLUS1 = t1.toNat ∧ u.rd F.PWR_TEMP_CLUS2 = t2.toNat ∧
      u.rd F.PWR_TEMP_CLUS3 = t3.toNat ∧ u.rd F.PWR_TEMP_SYS_CENTRE = centre.toNat ∧
      u.rd F.PWR_TEMP_SYS_PEAK =
        max (s.rd F.PWR_TEMP_SYS_PEAK) (max centre.toNat (max t0.toNat (max t1.toNat (max t2.toNat t3.toNat)))) ∧
      s.sameRegsBut [F.PWR_TEMP_CLUS0.addr, F.PWR_TEMP_SYS_CENTRE.addr] u ∧ s.sameMem u)

/-- When a header is rejected (its CRC, OP, WIDTH, bits 1:0 of CMD, LEN or ADDR), and that nothing happens then beside the record of
the error (R136, R138). -/
def Obligations.RejectedHeader : Prop :=
  (∀ h : FrameHead, headError h = none ↔
    crc16 (headBytes h) = h.hcrc.toNat ∧ (h.cmd.toNat / 16 = 1 ∨ h.cmd.toNat / 16 = 2) ∧ h.cmd.toNat / 4 % 4 ≠ 3 ∧
      h.cmd.toNat % 4 = 0 ∧ h.addr.toNat % 4 = 0 ∧ h.len.toNat ≤ (if h.cmd.toNat / 16 = 1 then 0x0FFF else 0x00FF)) ∧
  (∀ (s : State) (h : FrameHead) (code : Nat), s.answers = true → headError h = some code →
    (∀ (late : List (Fin 4096)) (x : Facts), ∃ t : State, exec (.qspiRead h late x) s = .next t ∧ t.host.resp = [] ∧ t.host.bufs = s.host.bufs ∧
      t.rd F.HOST_COUNT_ERRORS = min (s.rd F.HOST_COUNT_ERRORS + 1) 0xFFFF ∧
      (s.rd F.HOST_ERR_CAPT_VALID = 0 → t.rd F.HOST_ERR_CAPT_VALID = 1 ∧ t.rd F.HOST_ERR_CAPT_CODE = code) ∧
      s.raises .host (frameCause code) 0 t ∧ s.sameRegsBut ([0x8048, 0x804C, 0x8050] ++ causeRegs .host 0) t ∧ s.sameMem t) ∧
    (∀ (data : List Word) (dcrc : BitVec 16), ∃ t : State, exec (.qspiWrite h data dcrc) s = .next t ∧ t.host.resp = [] ∧ t.host.bufs = s.host.bufs ∧
      t.rd F.HOST_COUNT_ERRORS = min (s.rd F.HOST_COUNT_ERRORS + 1) 0xFFFF ∧
      (s.rd F.HOST_ERR_CAPT_VALID = 0 → t.rd F.HOST_ERR_CAPT_VALID = 1 ∧ t.rd F.HOST_ERR_CAPT_CODE = code) ∧
      s.raises .host (frameCause code) 0 t ∧ s.sameRegsBut ([0x8048, 0x804C, 0x8050] ++ causeRegs .host 0) t ∧ s.sameMem t))

/-- What a frame does. A read of one word drives that word, its STATUS and its SCRC; a write frame whose DCRC verifies is buffered and counted;
performing a buffered word writes it and records the outcome in LAST_WR; an incomplete frame is recorded and buffers nothing. -/
def Obligations.HostFrames : Prop :=
  (∀ (s : State) (h : FrameHead) (x : Facts), s.answers = true → headError h = none → headOp h = 1 → h.len = 0 → s.host.bufs = [] →
    ∃ (v : State) (b : ReadBack) (t : State),
      s.newFrame.busRead s.newFrame 0 h.addr.toNat x.hits = (v, b) ∧ t.host.status = some (t.rd F.HOST_STAT_LAST_STATUS) ∧
      exec (.qspiRead h [] x) s = .next t ∧ t.host.resp = [b.word.toNat] ∧
      t.rd F.HOST_STAT_LAST_STATUS = b2n (!b.refused && s.beyond h.addr.toNat) * 16 + b2n b.bad * 8 + b2n b.refused * 4 + 1 ∧
      t.host.scrc = crc16 (wordBytes b.word.toNat ++ [t.rd F.HOST_STAT_LAST_STATUS]) ∧
      t.rd F.HOST_COUNT_FRAMES = (v.rd F.HOST_COUNT_FRAMES + 1) % 2 ^ 16 ∧
      v.sameRegsBut (0x8044 :: 0x8050 :: causeRegs .host 0) t ∧ v.sameMem t) ∧
  (∀ (s : State) (h : FrameHead) (data : List Word) (dcrc : BitVec 16), s.answers = true → headError h = none → headOp h = 2 →
    data.length = headWords h → s.host.bufs.length < 2 →
    (crc16 ((data.map BitVec.toNat).flatMap wordBytes) = dcrc.toNat →
      ∃ t : State, exec (.qspiWrite h data dcrc) s = .next t ∧ t.host.bufs = s.host.bufs ++ [(h.addr.toNat, data.map BitVec.toNat)] ∧
        t.host.status = some 1 ∧ t.rd F.HOST_STAT_LAST_STATUS = 1 ∧ t.rd F.HOST_COUNT_FRAMES = (s.rd F.HOST_COUNT_FRAMES + 1) % 2 ^ 16 ∧
        s.sameRegsBut [0x8044, 0x8050] t ∧ s.sameMem t) ∧
    (crc16 ((data.map BitVec.toNat).flatMap wordBytes) ≠ dcrc.toNat →
      ∃ t : State, exec (.qspiWrite h data dcrc) s = .next t ∧ t.host.bufs = s.host.bufs ∧ t.host.status = some 2 ∧ s.raises .host C.HOST_CRC_ERR 0 t ∧
        s.sameRegsBut ([0x8048, 0x804C, 0x8050] ++ causeRegs .host 0) t ∧ s.sameMem t)) ∧
  (∀ (s : State) (h : FrameHead) (data : List Word) (dcrc : BitVec 16), s.answers = true → headError h = none → headOp h = 2 →
    data.length = headWords h → 2 ≤ s.host.bufs.length →
      ∃ t : State, exec (.qspiWrite h data dcrc) s = .next t ∧ t.host.bufs = s.host.bufs ∧ t.host.status = some 0x40 ∧ s.raises .host C.HOST_OVERRUN 0 t ∧
        s.sameRegsBut ([0x8048, 0x804C, 0x8050] ++ causeRegs .host 0) t ∧ s.sameMem t) ∧
  (∀ (s : State) (x : Facts) (a w : Nat) (rest : List (Nat × List Nat)), s.answers = true → s.host.bufs = (a, [w]) :: rest →
    ∃ (v : State) (o : Wrote), { s with host := { s.host with bufs := rest } }.busWrite { s with host := { s.host with bufs := rest } } 0 a (BitVec.ofNat 32 w) x = (v, o) ∧
      (v.boot ≠ Boot.warm →
        ∃ t : State, exec (.writeFramePerform x) s = .next t ∧ t.rd F.HOST_LAST_WR_DONE = (if o = .done then 1 else 0) ∧
          t.rd F.HOST_LAST_WR_REFUSED = (if o = .refused then 1 else 0) ∧ v.sameRegsBut [0x8058] t ∧ v.sameMem t)) ∧
  (∀ s : State, s.answers = true → s.host.bufs = [] → ∀ x, exec (.writeFramePerform x) s = .next s) ∧
  (∀ (s : State) (h : FrameHead) (words : Fin 4097) (ahead : Fin 9) (late : List (Fin 4096)) (x : Facts), s.answers = true → headError h = none → headOp h = 2 → s.host.bufs.length < 2 →
    (∃ t : State, exec (.qspiTruncated h 8 words ahead late x) s = .next t ∧ t.host.bufs = s.host.bufs ∧ s.raises .host C.HOST_CMD_ERR 0 t ∧
      (s.rd F.HOST_ERR_CAPT_VALID = 0 → t.rd F.HOST_ERR_CAPT_CODE = 5 ∧ t.rd F.HOST_ERR_CAPT_ADDR = h.addr.toNat) ∧
      s.sameRegsBut ([0x8048, 0x804C, 0x8050] ++ causeRegs .host 0) t ∧ s.sameMem t) ∧
    (∃ t : State, exec (.qspiSckTimeout h 8 words ahead late x) s = .next t ∧ t.host.bufs = s.host.bufs ∧ s.raises .host C.HOST_TIMEOUT 0 t ∧
      (s.rd F.HOST_ERR_CAPT_VALID = 0 → t.rd F.HOST_ERR_CAPT_CODE = 6 ∧ t.rd F.HOST_ERR_CAPT_ADDR = h.addr.toNat) ∧
      s.sameRegsBut ([0x8048, 0x804C, 0x8050] ++ causeRegs .host 0) t ∧ s.sameMem t)) ∧
  (∀ s : State, s.busUp = true → s.host.cfgDue = true →
    ∃ t : State, exec .hostCfgApply s = .next t ∧ t.host.cfg = (s.reg 0x8040).toNat ∧ t.host.cfgDue = false ∧
      s.raises .host C.HOST_MODE_CHANGED 0 t ∧ s.sameRegsBut (causeRegs .host 0) t ∧ s.sameMem t)

/-- CLR_COUNT clears both counts; a release removes the first words of its queue, which end a packet; START, ABORT and the FIFO words
of a patch image (R152 to R154, R157). -/
def Obligations.HostWrites : Prop :=
  (∀ (s : State) (lvl : Fin 4), s.accepts lvl 0x8054 1 0xF →
    ∃ t : State, exec (.hostCountClear lvl) s = .next t ∧ t.rd F.HOST_COUNT_FRAMES = 0 ∧ t.rd F.HOST_COUNT_ERRORS = 0 ∧
      s.sameRegsBut [0x8050] t ∧ s.sameMem t) ∧
  (∀ (s : State) (lvl : Fin 4) (n : Fin 128) (c : BitVec 16), s.accepts lvl (0x80044 + 0x1000 * n.val) (BitVec.ofNat 32 c.toNat) 0xF →
    ∃ (u : State) (times : List Nat) (rest : List Packet), releaseWords (s.queue n).pkts c.toNat = some (times, rest) ∧
      rest.flatMap (Packet.words n) = ((s.queue n).pkts.flatMap (Packet.words n)).drop c.toNat ∧
      exec (.queueRelease lvl n c) s = .next (u.overEval n) ∧ (u.queue n).pkts = rest ∧ (u.queue n).seq = (s.queue n).seq ∧ s.sameMem u ∧
      (s.toStrm n = true → s.sameRegsBut [] u) ∧
      s.sameRegsBut ((F.SCHED_QLAT_HWM_US n).addr :: F.SCHED_EVENT_VALID.addr :: causeRegs .sched 0) u) ∧
  (∀ (s : State) (lvl : Fin 4), s.accepts lvl 0x8064 1 0xF →
    ∃ t : State, exec (.imgStart lvl) s = .next t ∧ t.rd F.HOST_IMG_STAT_STATE = 1 ∧ t.rd F.HOST_IMG_STAT_RX_BYTES = 0 ∧ t.host.img = [] ∧
      s.sameRegsBut [0x8064, 0x8068] t ∧ s.sameMem t) ∧
  (∀ (s : State) (lvl : Fin 4), s.accepts lvl 0x8064 2 0xF →
    ∃ t : State, exec (.imgAbort lvl) s = .next t ∧
      (s.rd F.HOST_IMG_STAT_STATE = 1 → t.rd F.HOST_IMG_STAT_STATE = 0 ∧ t.host.img = []) ∧
      (s.rd F.HOST_IMG_STAT_STATE ≠ 1 → t.reg 0x8068 = s.reg 0x8068) ∧
      s.sameRegsBut [0x8064, 0x8068] t ∧ s.sameMem t) ∧
  (∀ (s : State) (lvl : Fin 4) (k : Fin 512) (w : Word), s.accepts lvl (0x8800 + 4 * k.val) w 0xF →
    ∃ t : State, exec (.imgFifoWrite lvl k w) s = .next t ∧ t.host.img = s.host.img ++ [w.toNat] ∧
      t.rd F.HOST_IMG_STAT_RX_BYTES = (s.rd F.HOST_IMG_STAT_RX_BYTES + 4) % 2 ^ 18 ∧
      (s.rd F.HOST_IMG_LEN_BYTES = s.rd F.HOST_IMG_STAT_RX_BYTES + 4 →
        t.rd F.HOST_IMG_STAT_STATE = 2 ∧ t.boot = .verify false ∧ s.raises .host C.HOST_IMG_RX 0 t) ∧
      (s.rd F.HOST_IMG_STAT_RX_BYTES + 4 < s.rd F.HOST_IMG_LEN_BYTES →
        t.rd F.HOST_IMG_STAT_STATE = 1 ∧ t.boot = s.boot) ∧
      s.sameRegsBut (0x8068 :: causeRegs .host 0) t ∧ s.sameMem t)

/-- Two-wire transactions to the device (R160 to R169): a pointer write loads the pointer and fetches the word there; four data bytes
are one register write of level 2, PEC off; a read delivers the bytes of the word, the fetched one if there is one, and moves the
pointer; SR_AT_ACK and the SCL timeout are recorded; a port
that cannot serve records a busy NACK and does nothing else. -/
def Obligations.TwiTarget : Prop :=
  (∀ (s : State) (p q r : BitVec 8) (x : Facts), s.answers = true → s.twiBusy = false →
    ∃ (u v : State) (b : ReadBack) (t : State), s.sameRegsBut [0x7048, 0x7050] u ∧ s.sameMem u ∧
      u.rd F.TWI_TGT_PTR_PTR = p.toNat * 0x10000 + q.toNat * 0x100 + r.toNat ∧
      u.rd F.TWI_TGT_COUNT_TRANSFERS = (s.rd F.TWI_TGT_COUNT_TRANSFERS + 1) % 2 ^ 16 ∧
      u.busRead u 2 (4 * ((p.toNat * 0x10000 + q.toNat * 0x100 + r.toNat) / 4)) x.hits = (v, b) ∧
      exec (.twiPointerWrite [p, q, r] x) s = .next t ∧ t.twi.ahead = some b.word.toNat ∧ v.sameRegsBut [] t ∧ v.sameMem t) ∧
  (∀ (s : State) (p q r b0 b1 b2 b3 : BitVec 8) (x : Facts), s.answers = true → s.twiBusy = false → s.rd F.TWI_CFG_PEC_EN = 0 →
    ∃ (u r0 v : State) (o : Wrote), s.sameRegsBut [0x7048, 0x7050] u ∧ s.sameMem u ∧ s.sameRegsBut [0x7048, 0x7050] r0 ∧
      u.rd F.TWI_TGT_PTR_PTR = (p.toNat * 0x10000 + q.toNat * 0x100 + r.toNat + 4) % 2 ^ 24 ∧
      u.busWrite r0 2 (p.toNat * 0x10000 + q.toNat * 0x100 + r.toNat)
        (BitVec.ofNat 32 (b0.toNat * 0x1000000 + b1.toNat * 0x10000 + b2.toNat * 0x100 + b3.toNat)) x = (v, o) ∧
      exec (.twiRegisterWrite [p, q, r, b0, b1, b2, b3] x) s =
        .next ((if v.boot ≠ Boot.warm ∧ o = .done then v.raise .twi C.TWI_TGT_DONE else v).putStarted false)) ∧
  (∀ (s : State) (bytes : List (BitVec 8)) (x : Facts), s.answers = true → s.twiBusy = false → bytes.length < 3 →
    ∃ t : State, exec (.twiRegisterWrite bytes x) s = .next t ∧ t.rd F.TWI_TGT_PTR_PTR = s.rd F.TWI_TGT_PTR_PTR ∧
      s.sameRegsBut [0x7050] t ∧ s.sameMem t) ∧
  (∀ (s : State) (x : Facts), s.answers = true → s.twiBusy = false → s.rd F.TWI_CFG_PEC_EN = 0 → s.rd F.TWI_TGT_PTR_PTR % 4 = 0 →
    s.twi.ahead = none →
    ∃ (u r v : State) (b : ReadBack) (t : State), s.sameRegsBut [0x7050] u ∧ s.sameMem u ∧ s.sameRegsBut [] r ∧
      u.busRead r 2 (s.rd F.TWI_TGT_PTR_PTR) x.hits = (v, b) ∧
      exec (.twiRegisterRead 4 [] x) s = .next t ∧ t.twi.sent = wordBytes b.word.toNat ∧
      t.rd F.TWI_TGT_PTR_PTR = (s.rd F.TWI_TGT_PTR_PTR + 4) % 2 ^ 24 ∧ s.raises .twi C.TWI_TGT_DONE 0 t) ∧
  (∀ (s : State) (x : Facts) (w : Word), s.answers = true → s.twiBusy = false → s.rd F.TWI_CFG_PEC_EN = 0 → s.rd F.TWI_TGT_PTR_PTR % 4 = 0 →
    s.twi.ahead = some w.toNat →
    ∃ t : State, exec (.twiRegisterRead 4 [] x) s = .next t ∧ t.twi.sent = wordBytes w.toNat ∧
      t.rd F.TWI_TGT_PTR_PTR = (s.rd F.TWI_TGT_PTR_PTR + 4) % 2 ^ 24 ∧ s.raises .twi C.TWI_TGT_DONE 0 t) ∧
  (∀ (s : State) (n : BitVec 16) (late : List Nat) (x : Facts), s.answers = true → s.twiBusy = false →
    ∃ u t : State, u = (s.putStarted true).targetRead n.toNat late x ∧ exec (.srAtAck n late x) s = .next t ∧ t.twi.started = true ∧
      t.rd F.TWI_TGT_PTR_PTR = u.rd F.TWI_TGT_PTR_PTR ∧
      (u.rd F.TWI_TGT_ERR_VALID = 0 → t.rd F.TWI_TGT_ERR_VALID = 1 ∧ t.rd F.TWI_TGT_ERR_CODE = 5) ∧
      s.raises .twi C.TWI_SR_AT_ACK 0 t ∧ s.raises .twi C.TWI_TGT_DONE 0 t ∧
      u.sameRegsBut (0x704C :: 0x7050 :: causeRegs .twi 0) t ∧ u.sameMem t) ∧
  (∀ (s : State) (x : Facts), s.answers = true → s.twiBusy = false →
    ∃ t : State, exec (.twiSclTimeout (.write []) x) s = .next t ∧ t.rd F.TWI_TGT_PTR_PTR = s.rd F.TWI_TGT_PTR_PTR ∧
      (s.rd F.TWI_TGT_ERR_VALID = 0 → t.rd F.TWI_TGT_ERR_VALID = 1 ∧ t.rd F.TWI_TGT_ERR_CODE = 3) ∧
      s.raises .twi C.TWI_TGT_DONE 0 t ∧ s.sameRegsBut (0x704C :: 0x7050 :: causeRegs .twi 0) t ∧ s.sameMem t) ∧
  (∀ (s : State) (c : Instr), s.answers = true → s.twiBusy = true →
    ((∃ bytes x, c = .twiPointerWrite bytes x) ∨ (∃ bytes x, c = .twiRegisterWrite bytes x) ∨ (∃ n late x, c = .twiRegisterRead n late x) ∨
      (∃ n late x, c = .srAtAck n late x) ∨ (∃ p x, c = .twiSclTimeout p x)) →
    ∃ t : State, exec c s = .next t ∧ t.rd F.TWI_TGT_PTR_PTR = s.rd F.TWI_TGT_PTR_PTR ∧
      (s.rd F.TWI_TGT_ERR_VALID = 0 → t.rd F.TWI_TGT_ERR_VALID = 1 ∧ t.rd F.TWI_TGT_ERR_CODE = 4) ∧
      t.rd F.TWI_TGT_COUNT_ERRORS = min (s.rd F.TWI_TGT_COUNT_ERRORS + 1) 0xFFFF ∧
      s.raises .twi C.TWI_TGT_DONE 0 t ∧ s.sameRegsBut (0x704C :: 0x7050 :: causeRegs .twi 0) t ∧ s.sameMem t)

/-- START of a controller transfer and every way it goes on and ends (R170 to R174): the bytes it puts on the bus, the RESULT
code, the byte counts, BUSY and the causes. -/
def Obligations.TwiController : Prop :=
  (∀ (s : State) (lvl : Fin 4) (w : Word), s.accepts lvl 0x7060 (putBits w 31 31 1) 0xF →
    (s.rd F.TWI_RECOV_STAT_STUCK = 0 →
      ∃ t : State, exec (.ctlStart lvl w) s = .next t ∧ t.twi.ctl = .waiting ∧ t.rd F.TWI_CTL_STAT_BUSY = 1 ∧ t.rd F.TWI_CTL_STAT_TRIES = 0 ∧
        t.rd F.TWI_CTL_CMD_ADDR = getBits w 22 16 ∧ t.twi.ctlAddr = getBits w 22 16 ∧ t.twi.ctlTx = (List.range (getBits w 5 0)).map s.txByte ∧
        t.twi.ctlWr = getBits w 5 0 ∧ t.twi.ctlRd = getBits w 13 8 ∧
        s.sameRegsBut [0x7060, 0x7068] t ∧ s.sameMem t) ∧
    (s.rd F.TWI_RECOV_STAT_STUCK = 1 →
      ∃ t : State, exec (.ctlStart lvl w) s = .next t ∧ t.twi.ctl = .idle ∧ t.rd F.TWI_CTL_STAT_BUSY = 0 ∧ t.rd F.TWI_CTL_STAT_RESULT = 7 ∧
        t.rd F.TWI_CTL_STAT_TRIES = 0 ∧ s.raises .twi C.TWI_CTL_DONE 0 t ∧
        s.sameRegsBut (0x7060 :: 0x7068 :: causeRegs .twi 0) t ∧ s.sameMem t)) ∧
  (∀ s : State, s.twi.ctl = .waiting → s.answers = true → s.twiBusy = false →
    ∃ t : State, exec .ctlTransferBegin s = .next t ∧ t.twi.ctl = .active ∧ t.twi.wire = [.start] ∧
      t.rd F.TWI_CTL_STAT_TRIES = min (s.rd F.TWI_CTL_STAT_TRIES + 1) 15 ∧ s.sameRegsBut [0x7068] t ∧ s.sameMem t) ∧
  (∀ s : State, s.busUp = true → s.twi.ctl = .waiting →
    ∃ t : State, exec .ctlBusNotFree s = .next t ∧ t.twi.ctl = .idle ∧ t.rd F.TWI_CTL_STAT_BUSY = 0 ∧ t.rd F.TWI_CTL_STAT_RESULT = 6 ∧
      s.raises .twi C.TWI_CTL_DONE 0 t ∧ s.sameRegsBut (0x7060 :: 0x7068 :: causeRegs .twi 0) t ∧ s.sameMem t) ∧
  (∀ (s : State) (wrote : Fin 33), s.busUp = true → s.twi.ctl = .active →
    (s.rd F.TWI_CTL_STAT_TRIES ≤ s.rd F.TWI_CTL_CFG_RETRY →
      ∃ t : State, exec (.arbLost false wrote []) s = .next t ∧ t.twi.ctl = .waiting ∧ s.raises .twi C.TWI_ARB_LOST 0 t ∧
        t.rd F.TWI_CTL_STAT_WR_DONE = min wrote.val s.twi.ctlWr % 64 ∧ t.rd F.TWI_CTL_STAT_BUSY = s.rd F.TWI_CTL_STAT_BUSY ∧
        s.sameRegsBut (0x7068 :: causeRegs .twi 0) t ∧ s.sameMem t) ∧
    (s.rd F.TWI_CTL_CFG_RETRY < s.rd F.TWI_CTL_STAT_TRIES →
      ∃ t : State, exec (.arbLost false wrote []) s = .next t ∧ t.twi.ctl = .idle ∧ t.rd F.TWI_CTL_STAT_RESULT = 4 ∧
        s.raises .twi C.TWI_ARB_LOST 0 t ∧ s.raises .twi C.TWI_CTL_DONE 0 t ∧ t.rd F.TWI_CTL_STAT_BUSY = 0 ∧
        s.sameRegsBut (0x7060 :: 0x7068 :: causeRegs .twi 0) t ∧ s.sameMem t) ∧
    (∀ addr : Bool, ∃ t : State, exec (.ctlNack addr wrote) s = .next t ∧ t.twi.ctl = .idle ∧
      t.rd F.TWI_CTL_STAT_RESULT = (if addr then 2 else 3) ∧ t.rd F.TWI_CTL_STAT_WR_DONE = min wrote.val s.twi.ctlWr % 64 ∧
      t.rd F.TWI_CTL_STAT_BUSY = 0 ∧ s.raises .twi C.TWI_CTL_NACK 0 t ∧ s.raises .twi C.TWI_CTL_DONE 0 t ∧
      s.sameRegsBut (0x7060 :: 0x7068 :: causeRegs .twi 0) t ∧ s.sameMem t) ∧
    (∃ t : State, exec (.ctlSclHeld wrote []) s = .next t ∧ t.twi.ctl = .idle ∧ t.rd F.TWI_CTL_STAT_RESULT = 5 ∧
      t.rd F.TWI_CTL_STAT_BUSY = 0 ∧ s.raises .twi C.TWI_CTL_DONE 0 t ∧
      s.sameRegsBut (0x7060 :: 0x7068 :: causeRegs .twi 0) t ∧ s.sameMem t) ∧
    (∀ rx : BitVec 8, s.twi.ctlRd = 1 → s.twi.ctlWr < 33 →
      ∃ t : State, exec (.ctlDone [rx]) s = .next t ∧ t.twi.ctl = .idle ∧ t.rd F.TWI_CTL_STAT_RESULT = 1 ∧
        t.twi.wire = s.twi.writeItems s.twi.ctlWr ++ s.twi.readItems [rx] ++ [.stop] ∧
        getBits (t.reg 0x7090) 31 24 = rx.toNat ∧ t.rd F.TWI_CTL_STAT_RD_DONE = 1 ∧ t.rd F.TWI_CTL_STAT_WR_DONE = s.twi.ctlWr ∧
        t.rd F.TWI_CTL_STAT_BUSY = 0 ∧ s.raises .twi C.TWI_CTL_DONE 0 t ∧
        s.sameRegsBut (0x7060 :: 0x7068 :: 0x7090 :: causeRegs .twi 0) t ∧ s.sameMem t)) ∧
  (∀ (s : State) (wrote : Fin 33) (rx : List (BitVec 8)), s.ibrReady = true →
    exec (.arbLost true wrote rx) s = .next ((s.putStarted true).raise .twi C.TWI_ARB_LOST))

/-- Bus recovery (R175), the sending of In-Band Requests (R179, R180) and the alert response (R182, R183). -/
def Obligations.TwiRecoveryAndRequests : Prop :=
  (∀ (s : State) (lvl : Fin 4), s.answers = true → s.twi.recov = .idle → s.accepts lvl 0x70B0 1 0xF →
    (∃ t : State, exec (.busRecover (some lvl) true) s = .next t ∧ t.twi.recov = .attempt 3 ∧
      t.rd F.TWI_RECOV_STAT_ATTEMPTS = min (s.rd F.TWI_RECOV_STAT_ATTEMPTS + 1) 255 ∧ s.sameRegsBut [0x70B0, 0x70B4] t ∧ s.sameMem t) ∧
    (∃ t : State, exec (.busRecover (some lvl) false) s = .next t ∧ t.twi.recov = .idle ∧ t.rd F.TWI_RECOVER = 0 ∧
      s.sameRegsBut [0x70B0] t ∧ s.sameMem t)) ∧
  (∀ s : State, s.answers = true → s.twi.recov = .watch →
    (∃ t : State, exec (.busRecover none true) s = .next t ∧ t.twi.recov = .attempt 3 ∧
      t.rd F.TWI_RECOV_STAT_ATTEMPTS = min (s.rd F.TWI_RECOV_STAT_ATTEMPTS + 1) 255 ∧ s.sameRegsBut [0x70B4] t ∧ s.sameMem t) ∧
    (∃ t : State, exec (.busRecover none false) s = .next t ∧ t.twi.recov = .idle ∧ s.sameRegsBut [0x70B0] t ∧ s.sameMem t)) ∧
  (∀ (s : State) (left : Nat) (pulses : Fin 10), s.busUp = true → s.twi.recov = .attempt left →
    (∃ t : State, exec (.recoveryAttemptDone pulses true) s = .next t ∧ t.twi.recov = .idle ∧ t.rd F.TWI_RECOV_STAT_PULSES = pulses ∧
      t.rd F.TWI_RECOV_STAT_STUCK = 0 ∧ t.rd F.TWI_RECOVER = 0 ∧ s.sameRegsBut [0x70B0, 0x70B4] t ∧ s.sameMem t) ∧
    (0 < left → ∃ t : State, exec (.recoveryAttemptDone pulses false) s = .next t ∧ t.twi.recov = .wait left ∧
      t.rd F.TWI_RECOV_STAT_PULSES = pulses ∧ t.rd F.TWI_RECOV_STAT_STUCK = s.rd F.TWI_RECOV_STAT_STUCK ∧
      s.raises .twi C.TWI_BUS_STUCK 0 t ∧ s.sameRegsBut (0x70B4 :: causeRegs .twi 0) t ∧ s.sameMem t) ∧
    (left = 0 → ∃ t : State, exec (.recoveryAttemptDone pulses false) s = .next t ∧ t.twi.recov = .idle ∧
      t.rd F.TWI_RECOV_STAT_STUCK = 1 ∧ s.raises .twi C.TWI_BUS_STUCK 0 t ∧
      s.sameRegsBut (0x70B0 :: 0x70B4 :: causeRegs .twi 0) t ∧ s.sameMem t)) ∧
  (∀ (s : State) (left : Nat), s.busUp = true → s.twi.recov = .wait left →
    ∃ t : State, exec .recoveryRetry s = .next t ∧ t.twi.recov = .attempt (left - 1) ∧
      t.rd F.TWI_RECOV_STAT_ATTEMPTS = min (s.rd F.TWI_RECOV_STAT_ATTEMPTS + 1) 255 ∧ s.sameRegsBut [0x70B4] t ∧ s.sameMem t) ∧
  (∀ (s : State) (c : Nat) (l : List Nat) (extra : BitVec 8), s.ibrReady = true → s.twi.ibr = c :: l → c < 128 →
    (∃ u : State, exec (.ibrSend true extra) s = .next (u.raise .twi C.TWI_IBR_DONE) ∧ u.twi.ibr = l ∧
      u.twi.wire = .start :: .put (s.twiAddr true) :: .put (u.rd F.TWI_IBR_LAST_BYTE) :: List.replicate extra.toNat (.put 0xFF) ∧
      u.rd F.TWI_IBR_LAST_BYTE = (if l = [] then 0 else 128) + c ∧
      u.rd F.TWI_IBR_STAT_SENT = (s.rd F.TWI_IBR_STAT_SENT + 1) % 2 ^ 16 ∧ s.sameRegsBut [0x70C4, 0x70C8] u ∧ s.sameMem u) ∧
    (∃ t : State, exec (.ibrSend false extra) s = .next t ∧ t.twi.ibr = s.twi.ibr ∧ t.twi.ibrHold = true ∧ s.sameRegsBut [] t ∧ s.sameMem t) ∧
    (∃ t : State, exec .ibrSclTimeout s = .next t ∧ t.twi.ibr = s.twi.ibr ∧ t.twi.ibrHold = true ∧ s.sameRegsBut [] t ∧ s.sameMem t)) ∧
  (∀ s : State, s.busUp = true → ∃ t : State, exec .ibrRetry s = .next t ∧ t.twi.ibrHold = false ∧ t.twi.ibr = s.twi.ibr ∧ s.sameRegsBut [] t ∧ s.sameMem t) ∧
  (∀ s : State, s.answers = true → s.alertPin = true →
    (∃ u : State, exec (.araRead true) s = .next (u.raise .twi C.TWI_ARA_DONE) ∧ u.twi.alertOwed = false ∧
      u.twi.sent = [2 * s.rd F.SYS_STRAP_TWI_TADDR] ∧ s.sameRegsBut [] u ∧ s.sameMem u) ∧
    exec (.araRead false) s = .next s)

/-- The gain of an RF input (R186 to R196): what a step, a manual gain and the start of a calibration do (the
management controller starts none whose accesses its rights refuse, R119), and which of them each
command makes. -/
def Obligations.RfGain : Prop :=
  (∀ (s : State) (i : Fin 4) (d : Int),
    (s.stepGain i d).gain i = max (-31) (min 24 (s.gain i + d)) ∧
    (s.stepGain i d).rd (F.RFIN_GAIN_STAT_LNA i) = (gainTable (max (-31) (min 24 (s.gain i + d)))).1 ∧
    (s.stepGain i d).rd (F.RFIN_GAIN_STAT_ATT i) = (gainTable (max (-31) (min 24 (s.gain i + d)))).2 ∧
    (max (-31) (min 24 (s.gain i + d)) ≠ s.gain i → s.rd (F.RFIN_GAIN_STAT_AGC_STATE i) = 2 →
      s.raises .rfin C.RFIN_GAIN_STEP i (s.stepGain i d)) ∧ s.sameMem (s.stepGain i d)) ∧
  (∀ (s : State) (i : Fin 4), (s.manualGain i).rd (F.RFIN_GAIN_STAT_LNA i) = s.rd (F.RFIN_GAIN_CTRL_MAN_LNA i) ∧
    (s.manualGain i).rd (F.RFIN_GAIN_STAT_ATT i) = s.rd (F.RFIN_GAIN_CTRL_MAN_ATT i) ∧ s.sameMem (s.manualGain i)) ∧
  (∀ (s : State) (i : Fin 4), ((s.rfi i).cal = .idle → s.mgmtDenied (calTask i) = none →
      ((s.startCal i).rfi i).cal = .running ∧ (s.startCal i).rd (F.RFIN_CAL_RECAL i) = 0) ∧
    (∀ a write, (s.rfi i).cal = .idle → s.mgmtDenied (calTask i) = some (a, write) → s.startCal i = s.refuse 3 a write 0) ∧
    ((s.rfi i).cal ≠ .idle → ((s.startCal i).rfi i).cal = .again)) ∧
  (∀ (s : State) (i : Fin 4) (rms4 : Int), s.busUp = true → s.inputHeld i = false → ¬(s.rd (F.RFIN_GAIN_STAT_AGC_STATE i) = 1 ∧ (s.rfi i).gainDue = some .fast) →
    ∃ u : State, (u.rfi i).rms4 = rms4 ∧ (u.rfi i).est4 = some (rms4 - 4 * s.gain i) ∧ s.sameRegsBut [] u ∧ s.sameMem u ∧
      exec (.agcWindowEnd i rms4) s =
        .next (if s.rd (F.RFIN_GAIN_STAT_AGC_STATE i) = 1 ∧ 4 ≤ (s.agcError i rms4).natAbs then
          u.stepGain i (limitDb (s.rd (F.RFIN_AGC_LOOP_FAST_MAX i)) (roundDb (s.agcError i rms4))) else u)) ∧
  (∀ (s : State) (i : Fin 4) (rms4 : Int), s.busUp = true → s.inputHeld i = false → s.rd (F.RFIN_GAIN_STAT_AGC_STATE i) = 1 → (s.rfi i).gainDue = some .fast →
    ∃ u : State, (u.rfi i).rms4 = rms4 ∧ (u.rfi i).est4 = some (rms4 - 4 * s.gain i) ∧ (u.rfi i).gainDue = none ∧ s.sameRegsBut [] u ∧ s.sameMem u ∧
      exec (.agcWindowEnd i rms4) s = .next (u.stepGain i (-(s.rd (F.RFIN_AGC_LOOP_FAST_MAX i) : Int)))) ∧
  (∀ (s : State) (i : Fin 4) (rms4 : Int), s.busUp = true → s.inputHeld i = false → s.rd (F.RFIN_GAIN_STAT_AGC_STATE i) = 2 → (s.rfi i).gainDue = none →
    ∃ u : State, s.sameRegsBut [] u ∧ s.sameMem u ∧ (u.rfi i).gainDue = none ∧
      exec (.agcStepSlot i rms4) s =
        .next (if 2 * s.rd (F.RFIN_AGC_LOOP_HYST i) < (s.agcError i rms4).natAbs then
          u.stepGain i (limitDb (s.rd (F.RFIN_AGC_LOOP_STEP_MAX i)) (roundDb (s.agcError i rms4))) else u)) ∧
  (∀ (s : State) (i : Fin 4) (full : Nat) (recent : Bool), s.sampling = true → s.rootOk = true → s.rate i ≠ 0 → s.en .rfin i = true →
    (s.rd (F.RFIN_OVL_CFG_OVL_COUNT i) < full →
      ∃ t : State, exec (.overload i full recent) s = .next t ∧ t.caused .rfin C.RFIN_OVERLOAD i ∧
        t.rd (F.RFIN_OVL_EVENTS i) = min (s.rd (F.RFIN_OVL_EVENTS i) + 1) 0xFFFF ∧
        (s.rd (F.RFIN_GAIN_STAT_AGC_STATE i) = 1 → (t.rfi i).gainDue = some .fast) ∧
        (s.rd (F.RFIN_GAIN_STAT_AGC_STATE i) = 2 → recent = false → (t.rfi i).gainDue = some .overload) ∧
        s.sameRegsBut ((F.CAUSE_RAW .rfin i).addr :: (F.RFIN_OVL_EVENTS i).addr :: causeRegs .rfin i) t ∧ s.sameMem t) ∧
    (full ≤ s.rd (F.RFIN_OVL_CFG_OVL_COUNT i) →
      ∃ t : State, exec (.overload i full recent) s = .next t ∧ bit (t.rd (F.CAUSE_RAW .rfin i)) C.RFIN_OVERLOAD = false ∧
        s.sameRegsBut [(F.CAUSE_RAW .rfin i).addr] t ∧ s.sameMem t)) ∧
  (∀ (s : State) (i : Fin 4), s.rootOk = true → s.inputHeld i = false →
    ∃ u : State, (u.rfi i).gainDue = none ∧ s.sameRegsBut [] u ∧ s.sameMem u ∧
      ((s.rfi i).gainDue = some .fast → s.rd (F.RFIN_GAIN_STAT_AGC_STATE i) = 1 →
        exec (.gainStepApply i) s = .next (u.stepGain i (-(s.rd (F.RFIN_AGC_LOOP_FAST_MAX i) : Int)))) ∧
      ((s.rfi i).gainDue = some .overload → s.rd (F.RFIN_GAIN_STAT_AGC_STATE i) = 2 →
        exec (.gainStepApply i) s = .next (u.stepGain i (-(s.rd (F.RFIN_OVL_CFG_OVL_STEP i) : Int)))) ∧
      ((s.rfi i).gainDue = some .manual → s.rd (F.RFIN_GAIN_STAT_AGC_STATE i) = 0 → exec (.gainStepApply i) s = .next (u.manualGain i)) ∧
      ((s.rfi i).gainDue = none → exec (.gainStepApply i) s = .next u)) ∧
  (∀ (s : State) (i : Fin 4), s.rootOk = true → (s.rfi i).cal = .running →
    (∃ u : State, exec (.calibrationDone i .pass) s = .next (((u.markInput i false).lanesSync).trigger) ∧ (u.rfi i).cal = .idle ∧
      u.rd (F.RFIN_CAL_RESULT i) = 1 ∧ u.rd (F.RFIN_CAL_CAL_OK i) = 1 ∧ s.raises .rfin C.RFIN_CAL_DONE i u ∧
      (s.rd (F.RFIN_GAIN_CTRL_MODE i) = 0 → u.rd (F.RFIN_GAIN_STAT_AGC_STATE i) = if s.inputDetects i then 2 else 1) ∧
      (s.rd (F.RFIN_GAIN_CTRL_MODE i) = 1 → u.rd (F.RFIN_GAIN_STAT_LNA i) = s.rd (F.RFIN_GAIN_CTRL_MAN_LNA i) ∧
        u.rd (F.RFIN_GAIN_STAT_ATT i) = s.rd (F.RFIN_GAIN_CTRL_MAN_ATT i))) ∧
    (∀ r : CalResult, r ≠ .pass →
      ∃ u : State, exec (.calibrationDone i r) s = .next ((((u.holdInput i).markInput i false).lanesSync).trigger true) ∧ (u.rfi i).cal = .idle ∧
        u.rd (F.RFIN_CAL_RESULT i) = (if r = .adcFault then 2 else 3) ∧ u.rd (F.RFIN_CAL_CAL_OK i) = 0 ∧ s.raises .rfin C.RFIN_CAL_FAIL i u ∧
        s.sameRegsBut ((F.RFIN_CAL_RESULT i).addr :: causeRegs .rfin i) u ∧ s.sameMem u)) ∧
  (∀ (s : State) (lvl i : Fin 4) (w : Word), s.accepts lvl (0x10040 + 0x1000 * i.val) w 0xF → getBits w 24 24 = 1 →
    ∃ t : State, exec (.manualGainWrite lvl i w) s = .next t ∧ t.rd (F.RFIN_GAIN_CTRL_MODE i) = 1 ∧
      t.rd (F.RFIN_GAIN_CTRL_MAN_LNA i) = getBits w 9 8 ∧ t.rd (F.RFIN_GAIN_CTRL_MAN_ATT i) = getBits w 4 0 ∧
      t.rd (F.RFIN_GAIN_STAT_AGC_STATE i) = 0 ∧ (s.rd (F.RFIN_GAIN_CTRL_MODE i) = 0 → (t.rfi i).gainDue = some .manual) ∧
      s.sameRegsBut [0x10040 + 0x1000 * i.val, 0x10044 + 0x1000 * i.val] t ∧ s.sameMem t) ∧
  (∀ (s : State) (lvl i : Fin 4), s.accepts lvl (0x10050 + 0x1000 * i.val) 1 0xF →
    ∃ u : State, exec (.recal lvl i) s = .next (if s.rate i = 0 ∨ s.en .rfin i = false ∨ s.calibrates = false then u else u.startCal i) ∧
      u.rd (F.RFIN_CAL_RECAL i) = 1 ∧ (u.rfi i).cal = (s.rfi i).cal ∧ s.sameRegsBut [0x10050 + 0x1000 * i.val] u ∧ s.sameMem u)

/-- The filter code changes at a common boundary and settles, a new zone alone only calibrates the input (R195, R198, R199); readings of
the antenna supply are shown and, after the blanking, judged: the second short puts the output off, 32 low ones are an open supply, 32 in
range or two after a retry end the fault; a retry switches the output on again, and REARM ends the fault (R202, R203). -/
def Obligations.FilterAndAntenna : Prop :=
  (∀ (s : State) (i : Fin 4) (code zone : Nat), s.rootOk = true → (s.rfi i).filtDue = some (code, zone) →
    (s.rd (F.RFIN_FILT_CTRL_SETTLE i) = 0 ∨ code = s.rd (F.RFIN_FILT_CTRL_CODE i)) → zone = s.rd (F.RFIN_FILT_CTRL_ZONE2 i) →
    ∃ t : State, exec (.filtSelChange i) s = .next t ∧ t.rd (F.RFIN_FILT_CTRL_CODE i) = code % 4 ∧
      t.rd (F.RFIN_FILT_CTRL_ZONE2 i) = zone % 2 ∧ (t.rfi i).filtDue = none ∧ (t.rfi i).settling = (s.rfi i).settling ∧
      s.sameRegsBut [(F.RFIN_FILT_CTRL_CODE i).addr] t ∧ s.sameMem t) ∧
  (∀ (s : State) (i : Fin 4) (code zone : Nat), s.rootOk = true → (s.rfi i).filtDue = some (code, zone) →
    0 < s.rd (F.RFIN_FILT_CTRL_SETTLE i) → code ≠ s.rd (F.RFIN_FILT_CTRL_CODE i) →
    ∃ u : State, (u.rfi i).settling = true ∧ (u.rfi i).filtDue = none ∧ u.rd (F.RFIN_FILT_CTRL_CODE i) = code % 4 ∧
      s.sameRegsBut [(F.RFIN_FILT_CTRL_CODE i).addr] u ∧ s.sameMem u ∧
      exec (.filtSelChange i) s =
        .next (if zone ≠ s.rd (F.RFIN_FILT_CTRL_ZONE2 i) ∧ s.calibrates ∧ s.rate i ≠ 0 ∧ s.en .rfin i then
          (u.markInput i false).startCal i else u.markInput i false)) ∧
  (∀ (s : State) (i : Fin 4) (zone : Nat), s.rootOk = true → (s.rfi i).filtDue = some (s.rd (F.RFIN_FILT_CTRL_CODE i), zone) →
    zone ≠ s.rd (F.RFIN_FILT_CTRL_ZONE2 i) →
    ∃ u : State, (u.rfi i).settling = (s.rfi i).settling ∧ (u.rfi i).filtDue = none ∧ u.rd (F.RFIN_FILT_CTRL_ZONE2 i) = zone % 2 ∧
      s.sameRegsBut [(F.RFIN_FILT_CTRL_CODE i).addr] u ∧ s.sameMem u ∧
      exec (.filtSelChange i) s = .next (if s.calibrates ∧ s.rate i ≠ 0 ∧ s.en .rfin i then u.startCal i else u)) ∧
  (∀ (s : State) (i : Fin 4), s.busUp = true → (s.rfi i).settling = true →
    ∃ t : State, exec (.filtSettleEnd i) s = .next t ∧ (t.rfi i).settling = false ∧ t.lanes = s.lanes ∧ s.sameRegsBut [] t ∧ s.sameMem t) ∧
  (∀ (s : State) (i : Fin 4) (mv : Nat), s.busUp = true → s.rd (F.RFIN_ANT_STAT_PWR i) = 1 → (s.rfi i).blank = true →
    ∃ t : State, exec (.antSenseSample i mv) s = .next t ∧ t.rd (F.RFIN_ANT_STAT_SENSE_MV i) = min mv 1200 ∧
      s.sameRegsBut [(F.RFIN_ANT_STAT_SENSE_MV i).addr] t ∧ s.sameMem t) ∧
  (∀ (s : State) (i : Fin 4) (mv : Nat), s.busUp = true → s.rd (F.RFIN_ANT_STAT_PWR i) = 1 → (s.rfi i).blank = false →
    s.rd (F.RFIN_ANT_THR_SHORT_MV i) < min mv 1200 →
    (1 ≤ (s.rfi i).shortRun →
      ∃ u : State, exec (.antSenseSample i mv) s = .next (u.antShort i) ∧ u.rd (F.RFIN_ANT_STAT_SENSE_MV i) = min mv 1200 ∧
        s.sameRegsBut [(F.RFIN_ANT_STAT_SENSE_MV i).addr] u ∧ s.sameMem u) ∧
    ((s.rfi i).shortRun = 0 →
      ∃ t : State, exec (.antSenseSample i mv) s = .next t ∧ t.rd (F.RFIN_ANT_STAT_SENSE_MV i) = min mv 1200 ∧ (t.rfi i).shortRun = 1 ∧
        s.sameRegsBut [(F.RFIN_ANT_STAT_SENSE_MV i).addr] t ∧ s.sameMem t)) ∧
  (∀ (s : State) (i : Fin 4) (mv : Nat), s.busUp = true → s.rd (F.RFIN_ANT_STAT_PWR i) = 1 → (s.rfi i).blank = false →
    min mv 1200 ≤ s.rd (F.RFIN_ANT_THR_SHORT_MV i) →
    (s.rfi i).retrying = false → s.rd (F.RFIN_ANT_STAT_FAULT i) = 0 → min mv 1200 < s.rd (F.RFIN_ANT_THR_OPEN_MV i) → 31 ≤ (s.rfi i).openRun →
    ∃ t : State, exec (.antSenseSample i mv) s = .next t ∧ t.rd (F.RFIN_ANT_STAT_SENSE_MV i) = min mv 1200 ∧ (t.rfi i).shortRun = 0 ∧
      t.rd (F.RFIN_ANT_STAT_FAULT i) = 1 ∧ bit (t.rd (F.CAUSE_RAW .rfin i)) C.RFIN_ANT_OPEN = true ∧
      (bit (s.rd (F.CAUSE_RAW .rfin i)) C.RFIN_ANT_OPEN = false → s.raises .rfin C.RFIN_ANT_OPEN i t) ∧
      s.sameRegsBut ((F.RFIN_ANT_STAT_SENSE_MV i).addr :: (F.CAUSE_RAW .rfin i).addr :: causeRegs .rfin i) t ∧ s.sameMem t) ∧
  (∀ (s : State) (i : Fin 4) (mv : Nat), s.busUp = true → s.rd (F.RFIN_ANT_STAT_PWR i) = 1 → (s.rfi i).blank = false →
    min mv 1200 ≤ s.rd (F.RFIN_ANT_THR_SHORT_MV i) →
    (s.rfi i).retrying = false → s.rd (F.RFIN_ANT_STAT_FAULT i) = 1 → s.rd (F.RFIN_ANT_THR_OPEN_MV i) ≤ min mv 1200 → 31 ≤ (s.rfi i).inRun →
    ∃ t : State, exec (.antSenseSample i mv) s = .next t ∧ t.rd (F.RFIN_ANT_STAT_SENSE_MV i) = min mv 1200 ∧ (t.rfi i).shortRun = 0 ∧
      t.rd (F.RFIN_ANT_STAT_FAULT i) = 0 ∧ bit (t.rd (F.CAUSE_RAW .rfin i)) C.RFIN_ANT_OPEN = false ∧ s.raises .rfin C.RFIN_ANT_CLEAR i t ∧
      s.sameRegsBut ((F.RFIN_ANT_STAT_SENSE_MV i).addr :: (F.CAUSE_RAW .rfin i).addr :: causeRegs .rfin i) t ∧ s.sameMem t) ∧
  (∀ (s : State) (i : Fin 4) (mv : Nat), s.busUp = true → s.rd (F.RFIN_ANT_STAT_PWR i) = 1 → (s.rfi i).blank = false →
    min mv 1200 ≤ s.rd (F.RFIN_ANT_THR_SHORT_MV i) →
    (s.rfi i).retrying = true → 1 ≤ (s.rfi i).okRun → (s.rfi i).openRun < 31 →
    ∃ t : State, exec (.antSenseSample i mv) s = .next t ∧ t.rd (F.RFIN_ANT_STAT_SENSE_MV i) = min mv 1200 ∧ (t.rfi i).shortRun = 0 ∧
      t.rd (F.RFIN_ANT_STAT_FAULT i) = 0 ∧ (t.rfi i).retrying = false ∧ t.rd (F.RFIN_ANT_STAT_RETRY_LEFT i) = s.rd (F.RFIN_ANT_CTRL_RETRIES i) ∧
      bit (t.rd (F.CAUSE_RAW .rfin i)) C.RFIN_ANT_SHORT = false ∧ s.raises .rfin C.RFIN_ANT_CLEAR i t ∧
      s.sameRegsBut ((F.RFIN_ANT_STAT_SENSE_MV i).addr :: (F.CAUSE_RAW .rfin i).addr :: causeRegs .rfin i) t ∧ s.sameMem t) ∧
  (∀ (s : State) (i : Fin 4) (mv : Nat) (low : Bool), s.busUp = true → s.rd (F.RFIN_ANT_STAT_PWR i) = 1 → (s.rfi i).blank = false →
    min mv 1200 ≤ s.rd (F.RFIN_ANT_THR_SHORT_MV i) →
    low = (decide (0 < s.rd (F.RFIN_ANT_THR_OPEN_MV i)) && decide (min mv 1200 < s.rd (F.RFIN_ANT_THR_OPEN_MV i))) →
    ((s.rfi i).retrying = false ∨ (s.rfi i).okRun = 0) → (s.rfi i).openRun < 31 → (s.rfi i).inRun < 31 →
    ∃ t : State, exec (.antSenseSample i mv) s = .next t ∧ t.rd (F.RFIN_ANT_STAT_SENSE_MV i) = min mv 1200 ∧ (t.rfi i).shortRun = 0 ∧
      (t.rfi i).openRun = (if low then (s.rfi i).openRun + 1 else 0) ∧ (t.rfi i).inRun = (if low then 0 else (s.rfi i).inRun + 1) ∧
      (t.rfi i).okRun = (if (s.rfi i).retrying then (s.rfi i).okRun + 1 else 0) ∧ s.sameRegsBut [(F.RFIN_ANT_STAT_SENSE_MV i).addr] t ∧ s.sameMem t) ∧
  (∀ (s : State) (i : Fin 4), s.en .rfin i = true →
    (s.antShort i).rd (F.RFIN_ANT_STAT_FAULT i) = (if 0 < s.rd (F.RFIN_ANT_STAT_RETRY_LEFT i) then 2 else 3) ∧
    (s.antShort i).rd (F.RFIN_ANT_STAT_PWR i) = 0 ∧ ((s.antShort i).rfi i).retryDue = decide (0 < s.rd (F.RFIN_ANT_STAT_RETRY_LEFT i)) ∧
    (s.antShort i).caused .rfin C.RFIN_ANT_SHORT i ∧
    s.sameRegsBut ((F.RFIN_ANT_STAT_FAULT i).addr :: (F.CAUSE_RAW .rfin i).addr :: causeRegs .rfin i) (s.antShort i) ∧ s.sameMem (s.antShort i)) ∧
  (∀ (s : State) (i : Fin 4), s.busUp = true → (s.rfi i).retryDue = true →
    ∃ u : State, exec (.antRetry i) s = .next (u.antEval i) ∧ (u.rfi i).retryDue = false ∧ (u.rfi i).retrying = true ∧
      u.rd (F.RFIN_ANT_STAT_RETRY_LEFT i) = s.rd (F.RFIN_ANT_STAT_RETRY_LEFT i) - 1 ∧
      s.sameRegsBut [(F.RFIN_ANT_STAT_RETRY_LEFT i).addr] u ∧ s.sameMem u) ∧
  (∀ (s : State) (i : Fin 4),
    (s.antEval i).rd (F.RFIN_ANT_STAT_PWR i) = b2n (s.antWant i) ∧ s.sameRegsBut [(F.RFIN_ANT_STAT_PWR i).addr] (s.antEval i) ∧ s.sameMem (s.antEval i)) ∧
  (∀ (s : State) (i : Fin 4), s.busUp = true → ∃ t : State, exec (.antBlankEnd i) s = .next t ∧ (t.rfi i).blank = false ∧ s.sameRegsBut [] t ∧ s.sameMem t) ∧
  (∀ (s : State) (lvl i : Fin 4) (w : Word), s.accepts lvl (0x100A0 + 0x1000 * i.val) (putBits w 2 2 1) 0xF →
    s.rd (F.RFIN_ANT_STAT_FAULT i) = 0 →
    ∃ u : State, exec (.antRearm lvl i w) s = .next (u.antEval i) ∧ u.rd (F.RFIN_ANT_CTRL_REARM i) = 0 ∧
      u.rd (F.RFIN_ANT_CTRL_RETRIES i) = getBits w 19 16 ∧ u.rd (F.RFIN_ANT_STAT_RETRY_LEFT i) = getBits w 19 16 ∧
      (u.rfi i).retryDue = (s.rfi i).retryDue ∧ (u.rfi i).retrying = (s.rfi i).retrying ∧
      s.sameRegsBut [0x100A0 + 0x1000 * i.val, (F.RFIN_ANT_STAT_RETRY_LEFT i).addr] u ∧ s.sameMem u) ∧
  (∀ (s : State) (lvl i : Fin 4) (w : Word), s.accepts lvl (0x100A0 + 0x1000 * i.val) (putBits w 2 2 1) 0xF →
    s.rd (F.RFIN_ANT_STAT_FAULT i) ≠ 0 →
    ∃ u : State, exec (.antRearm lvl i w) s = .next (u.antEval i) ∧ u.rd (F.RFIN_ANT_STAT_FAULT i) = 0 ∧
      bit (u.rd (F.CAUSE_RAW .rfin i)) C.RFIN_ANT_OPEN = false ∧ bit (u.rd (F.CAUSE_RAW .rfin i)) C.RFIN_ANT_SHORT = false ∧
      s.raises .rfin C.RFIN_ANT_CLEAR i u ∧ u.rd (F.RFIN_ANT_CTRL_REARM i) = 0 ∧
      u.rd (F.RFIN_ANT_CTRL_RETRIES i) = getBits w 19 16 ∧ u.rd (F.RFIN_ANT_STAT_RETRY_LEFT i) = getBits w 19 16 ∧
      (u.rfi i).retryDue = false ∧ (u.rfi i).retrying = false ∧
      s.sameRegsBut ((0x100A0 + 0x1000 * i.val) :: (F.RFIN_ANT_STAT_FAULT i).addr :: (F.CAUSE_RAW .rfin i).addr :: causeRegs .rfin i) u ∧ s.sameMem u)

/-- What a common boundary and the writes of a lane do (R211, R220, R221, R224, R225, R228, R230): an idle Basic lane takes its derived
chain, an Expert lane its staged one; a swap flips the active bank, and the engine's lanes that wait for the same bandwidth swap with
it (R281); delay, trim, settling and saturation. -/
def Obligations.LaneCommands : Prop :=
  (∀ (s : State) (n : Fin 24), s.rootOk = true → s.clusOn (n / 6) = true → s.laneExpert n = false → (s.lane n).due = true →
    (s.lane n).run = false → s.rd (F.LANE_ASSIGN_PRESET n) ≠ 0 → s.rate (s.rd (F.LANE_ASSIGN_INPUT n)) ≠ 0 →
    ∃ u : State, exec (.laneApply n) s = .next ((u.laneSync n).laneApplied n (s.lane n).engine).agcFollowAll ∧
      (u.lane n).run = true ∧ (u.lane n).due = false ∧ (u.lane n).preset = s.rd (F.LANE_ASSIGN_PRESET n) ∧ (u.lane n).engine = s.engineKey n ∧
      (u.lane n).chain = deriveChain (s.rd (F.LANE_ASSIGN_PRESET n)) (s.rd (F.LANE_ASSIGN_INPUT n)) (s.rd (F.LANE_FREQ_FREQ_HZ n))
        (s.rate (s.rd (F.LANE_ASSIGN_INPUT n))) ∧
      u.rd (F.LANE_TRIM n) = 0 ∧ u.rd (F.LANE_COUNT_APPLIES n) = (s.rd (F.LANE_COUNT_APPLIES n) + 1) % 2 ^ 16 ∧
      s.raises .lane C.LANE_RETUNED n u ∧ s.sameMem u) ∧
  (∀ (s : State) (n : Fin 24), s.rootOk = true → s.clusOn (n / 6) = true → s.laneExpert n = true → s.rd (F.LANE_X_APPLY_APPLY n) = 1 →
    (s.lane n).run = false →
    ∃ u : State, exec (.laneApply n) s = .next ((u.laneSync n).laneApplied n (s.lane n).engine).agcFollowAll ∧
      (u.lane n).run = true ∧ (u.lane n).chain = s.stagedChain n ∧ u.rd (F.LANE_X_APPLY_APPLY n) = 0 ∧
      ((s.lane n).due = false → s.raises .lane C.LANE_RETUNED n u) ∧ s.sameMem u) ∧
  (∀ (s : State) (n : Fin 24), s.laneExpert n = true → s.rd (F.LANE_X_APPLY_APPLY n) = 0 → (s.lane n).due = false →
    exec (.laneApply n) s = .next s) ∧
  (∀ (s : State) (n : Fin 24), s.rootOk = true → s.clusOn (n / 6) = true → s.laneExpert n = false → (s.lane n).due = false →
    ∃ t : State, exec (.laneApply n) s = .next t ∧ t.rd (F.LANE_X_APPLY_APPLY n) = 0 ∧ t.lane n = s.lane n ∧
      s.sameRegsBut [0x20428 + 0x1000 * n.val] t ∧ s.sameMem t) ∧
  (∀ (s : State) (n : Fin 24), s.rootOk = true → s.clusOn (n / 6) = true → ((s.lane n).swapDue = true ∨ s.rd (F.LANE_X_APPLY_SWAP n) = 1) →
    exec (.bankSwap n) s = .next (s.bwSwapped n (s.swapLane n))) ∧
  (∀ (s t : State) (n : Fin 24), ((s.lane n).engine < 17 ∨ (s.anaS ((s.lane n).engine - 17)).bwDue = none → s.bwSwapped n t = t) ∧
    (∀ code : Nat, 17 ≤ (s.lane n).engine → (s.anaS ((s.lane n).engine - 17)).bwDue = some code →
      s.bwSwapped n t =
        (t.each ((t.lanesOfEng (s.lane n).engine).filter fun m => (t.lane m).swapDue) State.swapLane).bwNow ((s.lane n).engine - 17) code)) ∧
  (∀ (s : State) (n : Fin 24),
    ∃ u : State, s.swapLane n = u.markLaneAt n false .fir ∧ u.rd (F.LANE_STAT_ACTIVE_BANK n) = 1 - s.rd (F.LANE_STAT_ACTIVE_BANK n) ∧
      (u.lane n).swapDue = false ∧ u.rd (F.LANE_X_APPLY_SWAP n) = 0 ∧ s.raises .lane C.LANE_BANK_SWAPPED n u ∧
      s.sameRegsBut ((0x20428 + 0x1000 * n.val) :: (0x20048 + 0x1000 * n.val) :: causeRegs .lane n) u ∧ s.sameMem u) ∧
  (∀ (s : State) (n : Fin 24), s.rootOk = true → s.clusOn (n / 6) = true → (s.lane n).delayDue = true →
    ∃ t : State, exec (.delayJump n) s = .next t ∧ t.rd (F.LANE_DELAY_NOW n) = s.rd (F.LANE_DELAY_TARGET n) ∧ (t.lane n).delayDue = false ∧
      s.raises .lane C.LANE_DELAY_SET n t ∧
      s.sameRegsBut ((0x20048 + 0x1000 * n.val) :: (0x20050 + 0x1000 * n.val) :: causeRegs .lane n) t ∧ s.sameMem t) ∧
  (∀ (s : State) (n : Fin 24), s.rootOk = true → s.clusOn (n / 6) = true → s.rd (F.LANE_STAT_SLEWING n) = 1 → s.rd (F.LANE_DELAY_NOW n) ≠ s.rd (F.LANE_DELAY_TARGET n) →
    ∃ t : State, exec (.delaySlewStep n) s = .next t ∧
      t.rd (F.LANE_DELAY_NOW n) = (if s.rd (F.LANE_DELAY_NOW n) < s.rd (F.LANE_DELAY_TARGET n) then s.rd (F.LANE_DELAY_NOW n) + 1
        else s.rd (F.LANE_DELAY_NOW n) - 1) ∧
      (t.rd (F.LANE_DELAY_NOW n) = s.rd (F.LANE_DELAY_TARGET n) → t.rd (F.LANE_STAT_SLEWING n) = 0 ∧ s.raises .lane C.LANE_DELAY_SET n t) ∧
      (t.rd (F.LANE_DELAY_NOW n) ≠ s.rd (F.LANE_DELAY_TARGET n) → t.rd (F.LANE_STAT_SLEWING n) = 1) ∧
      s.sameRegsBut ((0x20048 + 0x1000 * n.val) :: (0x20050 + 0x1000 * n.val) :: causeRegs .lane n) t ∧ s.sameMem t) ∧
  (∀ (s : State) (n : Fin 24) (trim : Int), s.rootOk = true → s.laneRunning n = true →
    (1 ≤ (s.lane n).engine → (s.lane n).engine < 17 → (s.ofdmS ((s.lane n).engine - 1)).trimmed = false →
      ∃ u : State, u = s.each (s.lanesOfEng (s.lane n).engine) (fun s m => s.setTrim m trim) ∧
        ∃ t : State, exec (.trimRequest n trim) s = .next t ∧ (t.ofdmS ((s.lane n).engine - 1)).trimmed = true ∧
          (∀ m : Fin 24, t.rd (F.LANE_TRIM m) = u.rd (F.LANE_TRIM m) ∧ t.lane m = u.lane m) ∧ u.sameRegsBut [] t ∧ u.sameMem t) ∧
    ((s.lane n).engine = 0 ∨ 17 ≤ (s.lane n).engine ∨ (s.ofdmS ((s.lane n).engine - 1)).trimmed = true →
      exec (.trimRequest n trim) s = .next s)) ∧
  (∀ (s : State) (n : Fin 24) (trim : Int), (s.lane n).chain.hold = true → s.setTrim n trim = s) ∧
  (∀ (s : State) (n : Fin 24) (trim lim : Int), (s.lane n).chain.hold = false → lim = ((s.lane n).chain.ratio / 1000 : Nat) →
    ∃ t : State, s.setTrim n trim = t ∧ t.rd (F.LANE_TRIM n) = toField 32 (max (-lim) (min lim trim)) ∧
      ((trim < -lim ∨ lim < trim) → s.raises .lane C.LANE_TRIM_LIMIT n t) ∧
      s.sameRegsBut ((0x20054 + 0x1000 * n.val) :: causeRegs .lane n) t ∧ s.sameMem t) ∧
  (∀ (s : State) (n : Fin 24), s.rootOk = true → (s.lane n).runMarked = true → s.laneInterval n = false →
    (s.lane n).dsp.unsettled (s.lane n).chain (s.rd (F.LANE_DELAY_NOW n)) = false →
    ∃ t : State, exec (.settled n) s = .next t ∧ t.lane n = { s.lane n with runMarked := false, runSettles := false } ∧
      ((s.lane n).runSettles = true → s.raises .lane C.LANE_SETTLED n t) ∧
      s.sameRegsBut (causeRegs .lane n) t ∧ s.sameMem t) ∧
  (∀ (s : State) (n : Fin 24), s.rootOk = true → s.laneRunning n = true →
    (∃ t : State, exec (.satWindow n true) s = .next t ∧ bit (t.rd (F.CAUSE_RAW .lane n)) C.LANE_SATURATED = true ∧
      t.rd (F.LANE_COUNT_SAT_EVENTS n) = min (s.rd (F.LANE_COUNT_SAT_EVENTS n) + 1) 0xFFFF ∧
      s.sameRegsBut ((0x2005C + 0x1000 * n.val) :: (F.CAUSE_RAW .lane n).addr :: causeRegs .lane n) t ∧ s.sameMem t) ∧
    ((s.lane n).dsp.satSeen = false → ∃ t : State, exec (.satWindow n false) s = .next t ∧ bit (t.rd (F.CAUSE_RAW .lane n)) C.LANE_SATURATED = false ∧
      s.sameRegsBut [(F.CAUSE_RAW .lane n).addr] t ∧ s.sameMem t)) ∧
  (∀ (s : State) (lvl : Fin 4) (n : Fin 24),
    (s.accepts lvl (0x20428 + 0x1000 * n.val) 1 0xF →
      ∃ t : State, exec (.laneXApply lvl n) s = .next t ∧ t.rd (F.LANE_X_APPLY_APPLY n) = 1 ∧
        t.rd (F.LANE_X_APPLY_SWAP n) = s.rd (F.LANE_X_APPLY_SWAP n) ∧ s.sameRegsBut [0x20428 + 0x1000 * n.val] t ∧ s.sameMem t) ∧
    (s.accepts lvl (0x20428 + 0x1000 * n.val) 2 0xF →
      ∃ t : State, exec (.laneSwap lvl n) s = .next t ∧ t.rd (F.LANE_X_APPLY_SWAP n) = 1 ∧
        t.rd (F.LANE_X_APPLY_APPLY n) = s.rd (F.LANE_X_APPLY_APPLY n) ∧ s.sameRegsBut [0x20428 + 0x1000 * n.val] t ∧ s.sameMem t)) ∧
  (∀ (s : State) (n : Fin 24) (who : DelayWriter) (slew : Bool) (target : BitVec 14),
    (∀ lvl : Fin 4, who = .host lvl →
      s.accepts lvl (0x2041C + 0x1000 * n.val) (BitVec.ofNat 32 (b2n slew * 0x8000 + target.toNat)) 0xF) →
    ((∀ lvl : Fin 4, who ≠ .host lvl) → s.rootOk = true) →
    ∃ t : State, exec (.delayTargetWrite n who slew target) s = .next t ∧ t.rd (F.LANE_DELAY_TARGET n) = target.toNat ∧
      t.rd (F.LANE_DELAY_MODE n) = b2n slew ∧ t.rd (F.LANE_X_DELAY_TARGET n) = target.toNat ∧ t.rd (F.LANE_X_DELAY_MODE n) = b2n slew ∧
      t.rd (F.LANE_DELAY_NOW n) = s.rd (F.LANE_DELAY_NOW n) ∧
      (slew = false → (t.lane n).delayDue = true ∧ t.rd (F.LANE_STAT_SLEWING n) = 0) ∧
      (slew = true → (t.lane n).delayDue = false ∧ t.rd (F.LANE_STAT_SLEWING n) = if s.rd (F.LANE_DELAY_NOW n) = target.toNat then 0 else 1) ∧
      s.sameRegsBut ((0x2041C + 0x1000 * n.val) :: (0x20048 + 0x1000 * n.val) :: (0x20050 + 0x1000 * n.val) :: causeRegs .lane n) t ∧ s.sameMem t)

/-- A request word is stored in the table; a commit asks for a pass; a pass takes the commits and a snapshot, and publishes its plan at
its end; reports step SEQ by two; quality and heat ask for passes. -/
def Obligations.PlacementPasses : Prop :=
  (∀ (s : State) (lvl : Fin 4) (n k : Fin 128) (w : Word) (x : Facts), s.accepts lvl (0x60000 + 0x200 * n.val + 4 * k.val) w x.rfin →
    (∃ t : State, exec (.hamperWrite lvl n k w x) s = .next t ∧
      2 * wordOf (hamperMem (0x60000 + 0x200 * n.val + 4 * k.val)) + k.val % 2 ∉ t.memT.poison) ∧
    (x.hits = [] → s.memT.test = none → s.poisoned (wordOf (hamperMem (0x60000 + 0x200 * n.val + 4 * k.val))) = false →
      ∃ t : State, exec (.hamperWrite lvl n k w x) s = .next t ∧
        t.reg (0x60000 + 0x200 * n.val + 4 * k.val) = s.writtenWord .hamper (4 * k.val) (s.reg (0x60000 + 0x200 * n.val + 4 * k.val)) w ∧
        s.sameRegsBut [0x60000 + 0x200 * n.val + 4 * k.val] t ∧ s.sameMem t)) ∧
  (∀ (s : State) (lvl k : Fin 4) (w : Word), s.accepts lvl (0x52050 + 4 * k.val) w 0xF →
    ∃ t : State, exec (.placeCommit lvl k w) s = .next t ∧ t.rd (F.PLACE_COMMIT_HAMPERS k) = s.rd (F.PLACE_COMMIT_HAMPERS k) ||| w.toNat ∧
      (w ≠ 0 → t.place.due = true) ∧ (w = 0 → t.place.due = s.place.due) ∧ s.sameRegsBut [0x52050 + 4 * k.val] t ∧ s.sameMem t) ∧
  (∀ s : State, s.place.due = true → s.place.running = false → s.busUp = true → s.en .place = true →
    ∃ u : State, exec .passStart s = .next { u with place := { u.place with plan := u.solve u.place.snap } } ∧
      u.place.running = true ∧ u.place.due = false ∧ u.place.taken = s.commits ∧ u.place.runLoss = s.place.loss ∧ u.place.redo = false ∧
      u.place.snap = (s.cleanHams s.commits).snapshot s.commits ∧ (∀ k : Fin 4, u.rd (F.PLACE_COMMIT_HAMPERS k) = 0) ∧
      s.sameRegsBut [0x52050, 0x52054, 0x52058, 0x5205C] u ∧ s.sameMem u) ∧
  (∀ s : State, s.place.running = true → s.busUp = true →
    ∃ u : State, exec .passPublish s = .next ((u.publish s.passPlan s.passRejects s.holds).afterPublish s) ∧
      u.place.running = false ∧ u.place.redo = false ∧ u.place.taken = [] ∧ u.place.live = s.place.live ∧ u.place.due = s.place.due ∧
      s.sameRegsBut [] u ∧ s.sameMem u) ∧
  (∀ (s : State) (h : Fin 128) (r : Report), r.state < 8 → r.reason < 16 → r.combined < 2 → r.branches < 8 → r.lanes < 2 ^ 32 → r.units < 2 ^ 32 →
    r.freq < 2 ^ 32 → r.region < 2 ^ 32 → r.alt < 2 ^ 32 → s.shownReport h ≠ r →
    (s.publishHam h r false false).shownReport h = r ∧
    (s.publishHam h r false false).rd (F.HAMPER_RSTAT_SEQ h) = (s.rd (F.HAMPER_RSTAT_SEQ h) + 2) % 256 ∧
    bit ((s.publishHam h r false false).rd (F.PLACE_EVENT_HAMPERS (h.val / 32))) (h.val % 32) = true ∧
    (r.state = 2 → (s.shownReport h).state ≠ 2 → s.raises .place C.SERVICE_PLACED 0 (s.publishHam h r false false)) ∧
    (r.state ≠ 2 → (s.shownReport h).state = 2 → s.raises .place C.SERVICE_UNPLACED 0 (s.publishHam h r false false)) ∧
    s.sameMem (s.publishHam h r false false)) ∧
  (∀ (s : State) (n : Fin 128), s.placed n = true → s.rd (F.HAMPER_RSTAT_QUAL n) < (s.ham n).req.minQual → s.busUp = true →
    ∃ t : State, exec (.qualityTrigger n) s = .next t ∧ t.place.due = true ∧ s.sameRegsBut [] t ∧ s.sameMem t) ∧
  (∀ (s : State) (c : PChain), s.rd F.PLACE_X_POLICY_HOT_SHED = 1 → s.en .place = true → 2 ≤ s.radio → s.busUp = true →
    (s.place.live.shedOrder (s.place.live.chains.filter fun d => (s.clu d.clus).hot)).find?
      (fun d => ((s.shedChain false s.place.live d.id).find d.id).isNone) = some c →
    ∃ t : State, exec .hotShed s = .next t ∧ t.place.shed = some c.id ∧ t.place.due = true ∧ s.sameRegsBut [] t ∧ s.sameMem t)

/-- A window of an analogue engine is recorded and judged (R269 to R273): the second good window in Search detects the carrier, an
invalid input loses it. TIMEOUT comes once per Search (R269); a dwell decides the bandwidth of an FM and of an AM engine, which its lanes
swap to and which then is in force (R280, R281). RDS blocks seek and gain synchronisation; in synchronisation each is corrected as ERR_MAX
allows and counted, one that is not the next changes nothing, and too many uncorrectable ones lose it (R283 to R288). -/
def Obligations.AnalogueEngines : Prop :=
  (∀ (s : State) (e : Fin 16) (w : AnaWin), s.engState (17 + e) = 0 → exec (.anaWindow e w) s = .next s) ∧
  (∀ (s : State) (e : Fin 16) (w : AnaWin), s.rootOk = true → s.engState (17 + e) = 1 → w.counted = true →
    4 * (s.rd (F.ANA_ACQ_CFG_DET_SNR e) : Int) ≤ w.cnr4 → 1 ≤ (s.anaS e).det → 0 < s.rd (F.ANA_ACQ_CFG_LOSS e) → w.invalid = false →
    ∃ u : State, exec (.anaWindow e w) s = .next ((u.putQual (17 + e) (u.rd (F.ANA_QUAL e))).watchQc (17 + e)) ∧
      u.rd (F.ANA_STAT_STATE e) = 2 ∧ s.raises .ana C.ACQ_DETECTED e u ∧ u.rd (F.ANA_QUAL_CNR e) = toField 16 w.cnr4 ∧
      u.rd (F.ANA_QUAL e) = meanOf ((some (anaQual (s.isAm e) w.cnr4 w.mp) :: (s.anaS e).quals).take 50 |>.filterMap id) % 256 ∧
      u.rd (F.ANA_LEVEL_LEVEL_DBM e) = toField 16 w.level4 ∧ u.rd (F.ANA_LEVEL_ADJ_DBC e) = toField 16 w.adj4 ∧
      u.rd (F.ANA_COUNT_NB_PULSES e) = (s.blank e (s.isAm e) w.peaks).rd (F.ANA_COUNT_NB_PULSES e) ∧
      u.rd (F.ANA_COUNT_BRIDGES e) = (s.rd (F.ANA_COUNT_BRIDGES e) + (w.runs.filter fun n => decide (n ≤ (s.anaS e).buffer)).length) % 2 ^ 16 ∧
      (u.anaS e).audio = (s.anaS e).audioTo ∧ (u.anaS e).audioTo = u.anaSound e (s.isAm e) (u.rd (F.ANA_QUAL e)) ∧ s.sameMem u) ∧
  (∀ (s : State) (e : Fin 16) (w : AnaWin), s.rootOk = true → 2 ≤ s.engState (17 + e) → w.counted = false → w.invalid = true →
    ∃ u : State, exec (.anaWindow e w) s = .next ((u.anaLost e).anaSmooth e (s.isAm e)) ∧ u.engState (17 + e) = s.engState (17 + e) ∧
      u.rd (F.ANA_LEVEL_LEVEL_DBM e) = toField 16 w.level4) ∧
  (∀ (s : State) (e : Fin 16), s.rootOk = true → s.engState (17 + e) = 1 → (s.anaS e).timedOut = false →
    ∃ t : State, exec (.anaAcqTimeout e) s = .next t ∧ s.raises .ana C.ACQ_TIMEOUT e t ∧ (t.anaS e).timedOut = true ∧
      s.sameRegsBut (causeRegs .ana e) t ∧ s.sameMem t) ∧
  (∀ (s : State) (e : Fin 16), (s.engState (17 + e) = 0 ∨ s.engState (17 + e) = 2 ∨ s.engState (17 + e) = 3 ∨ (s.anaS e).timedOut = true) →
    exec (.anaAcqTimeout e) s = .next s) ∧
  (∀ (s : State) (e : Fin 16) (adj4 : Int) (c : Nat), s.rootOk = true → 2 ≤ s.engState (17 + e) → s.isAm e = false →
    c = (s.anaS e).bwDue.getD (s.rd (F.ANA_STAT_BW_IN_USE e)) →
    ∃ u : State, u.rd (F.ANA_LEVEL_ADJ_DBC e) = toField 16 adj4 ∧ s.sameRegsBut [(F.ANA_LEVEL_ADJ_DBC e).addr] u ∧ s.sameMem u ∧
      (s.rd (F.ANA_FM_CFG_BW_AUTO e) = 0 → exec (.anaBwDecision e adj4) s =
        .next (if s.rd (F.ANA_FM_CFG_BW_FIX e) = c then u else u.putBw e (s.rd (F.ANA_FM_CFG_BW_FIX e)))) ∧
      (s.rd (F.ANA_FM_CFG_BW_AUTO e) = 1 → -4 * (s.rd (F.ANA_X_BW_FM_NARROW e) : Int) < adj4 →
        (c = 4 → exec (.anaBwDecision e adj4) s = .next u) ∧ (c < 4 → exec (.anaBwDecision e adj4) s = .next (u.putBw e (c + 1)))) ∧
      (s.rd (F.ANA_FM_CFG_BW_AUTO e) = 1 → adj4 ≤ -4 * (s.rd (F.ANA_X_BW_FM_NARROW e) : Int) → adj4 < -4 * (s.rd (F.ANA_X_BW_FM_WIDE e) : Int) →
        (c = 0 → exec (.anaBwDecision e adj4) s = .next u) ∧ (0 < c → exec (.anaBwDecision e adj4) s = .next (u.putBw e (c - 1)))) ∧
      (s.rd (F.ANA_FM_CFG_BW_AUTO e) = 1 → adj4 ≤ -4 * (s.rd (F.ANA_X_BW_FM_NARROW e) : Int) → -4 * (s.rd (F.ANA_X_BW_FM_WIDE e) : Int) ≤ adj4 →
        exec (.anaBwDecision e adj4) s = .next u)) ∧
  (∀ (s : State) (e : Fin 16) (adj4 : Int) (c : Nat), s.rootOk = true → 2 ≤ s.engState (17 + e) → s.isAm e = true →
    c = (s.anaS e).bwDue.getD (s.rd (F.ANA_STAT_BW_IN_USE e)) →
    ∃ u : State, u.rd (F.ANA_LEVEL_ADJ_DBC e) = toField 16 adj4 ∧ s.sameRegsBut [(F.ANA_LEVEL_ADJ_DBC e).addr] u ∧ s.sameMem u ∧
      (s.rd (F.ANA_AM_CFG_BW_AUTO e) = 0 → exec (.anaBwDecision e adj4) s =
        .next (if s.rd (F.ANA_AM_CFG_BW_FIX e) = c then u else u.putBw e (s.rd (F.ANA_AM_CFG_BW_FIX e)))) ∧
      (s.rd (F.ANA_AM_CFG_BW_AUTO e) = 1 → -4 * (s.rd (F.ANA_X_BW_AM_NARROW e) : Int) < adj4 →
        (c = 0 → exec (.anaBwDecision e adj4) s = .next u) ∧ (0 < c → exec (.anaBwDecision e adj4) s = .next (u.putBw e (c - 1)))) ∧
      (s.rd (F.ANA_AM_CFG_BW_AUTO e) = 1 → adj4 ≤ -4 * (s.rd (F.ANA_X_BW_AM_NARROW e) : Int) → adj4 < -4 * (s.rd (F.ANA_X_BW_AM_WIDE e) : Int) →
        (c = 4 → exec (.anaBwDecision e adj4) s = .next u) ∧ (c < 4 → exec (.anaBwDecision e adj4) s = .next (u.putBw e (c + 1)))) ∧
      (s.rd (F.ANA_AM_CFG_BW_AUTO e) = 1 → adj4 ≤ -4 * (s.rd (F.ANA_X_BW_AM_NARROW e) : Int) → -4 * (s.rd (F.ANA_X_BW_AM_WIDE e) : Int) ≤ adj4 →
        exec (.anaBwDecision e adj4) s = .next u)) ∧
  (∀ (s : State) (e : Fin 16) (code : Nat), code < 5 →
    ((∀ n ∈ s.lanesOfEng (17 + e), s.laneExpert n = true ∨ ((s.nextBank n).code = code ∧ (s.nextBank n).preset = (s.lane n).preset)) →
      s.putBw e code = s.bwNow e code) ∧
    (s.rd (F.ANA_STAT_BW_IN_USE e) ≠ code → (s.bwNow e code).rd (F.ANA_STAT_BW_IN_USE e) = code ∧ ((s.bwNow e code).anaS e).bwDue = none ∧
      s.raises .ana C.ACQ_CFG_CHANGE e (s.bwNow e code) ∧
      s.sameRegsBut ((F.ANA_STAT_BW_IN_USE e).addr :: causeRegs .ana e) (s.bwNow e code) ∧ s.sameMem (s.bwNow e code))) ∧
  (∀ (s : State) (e : Fin 16) (code n : Nat), n ∈ s.lanesOfEng (17 + e) → s.laneExpert n = false → (s.nextBank n).code ≠ code →
    ((s.putBw e code).anaS e).bwDue = some code ∧ (s.putBw e code).rd (F.ANA_STAT_BW_IN_USE e) = s.rd (F.ANA_STAT_BW_IN_USE e) ∧
      ((s.putBw e code).lane n).swapDue = true ∧ s.sameMem (s.putBw e code)) ∧
  (∀ (s : State) (e : Fin 16) (b : RdsBlock) (c : RdsSeek), s.rootOk = true → s.rdsOn e 0 = true → s.rd (F.ANA_ASSIGN_MODE e) = 1 →
    2 ≤ s.engState (17 + e) → b.stream = 0 → b.offset = .b → b.burst = 0 → (tget RdsStream.init (s.anaS e).rds 0).sync = false →
    (tget RdsStream.init (s.anaS e).rds 0).seek.find? (fun c => decide (c.bit + 26 = b.bit) && decide ((c.slot + 1) % 4 = 1)) = some c →
    ∃ t : State, exec (.rdsBlock e b) s = .next t ∧ bit (t.rd (F.ANA_STAT_RDS_SYNC e)) 0 = true ∧
      t.rd (F.ANA_RDS_COUNT_BLOCKS_OK e) = (s.rd (F.ANA_RDS_COUNT_BLOCKS_OK e) + 2) % 2 ^ 16 ∧
      (tget RdsStream.init (t.anaS e).rds 0).sync = true ∧ (tget RdsStream.init (t.anaS e).rds 0).bit = b.bit + 26 ∧
      s.raises .ana C.ACQ_MODE_FOUND e t ∧
      (b.afs = [] → b.clock = none → s.sameMem t ∧ s.sameRegsBut ((F.ANA_STAT_RDS_SYNC e).addr :: (F.ANA_STAT_PI e).addr ::
        (F.ANA_STAT_IDENT e).addr :: (F.ANA_RDS_COUNT_BLOCKS_OK e).addr :: causeRegs .ana e) t)) ∧
  (∀ (s : State) (e : Fin 16) (b : RdsBlock), s.rootOk = true → s.rdsOn e b.stream = true → s.rd (F.ANA_ASSIGN_MODE e) = 1 →
    2 ≤ s.engState (17 + e) → b.burst = 0 → (tget RdsStream.init (s.anaS e).rds b.stream).sync = false →
    ((tget RdsStream.init (s.anaS e).rds b.stream).seek.all fun c => !decide (c.bit + 26 = b.bit)) = true →
    ∃ t : State, exec (.rdsBlock e b) s = .next t ∧ (tget RdsStream.init (t.anaS e).rds b.stream).sync = false ∧
      ({ bit := b.bit, slot := rdsSlot b.offset, info := b.info.toNat, cPrime := decide (b.offset = .cPrime), start := b.start.toNat } : RdsSeek) ∈
        (tget RdsStream.init (t.anaS e).rds b.stream).seek ∧
      (∀ c, c ∈ (tget RdsStream.init (s.anaS e).rds b.stream).seek → c.bit % 26 ≠ b.bit % 26 →
        c ∈ (tget RdsStream.init (t.anaS e).rds b.stream).seek) ∧ s.sameRegsBut [] t ∧ s.sameMem t) ∧
  (∀ (s : State) (e : Fin 16) (b : RdsBlock), (tget RdsStream.init (s.anaS e).rds b.stream).sync = true →
    (rdsSlot b.offset ≠ (tget RdsStream.init (s.anaS e).rds b.stream).pos ∨ b.bit ≠ (tget RdsStream.init (s.anaS e).rds b.stream).bit) →
    exec (.rdsBlock e b) s = .next s) ∧
  (∀ (s : State) (e : Fin 16) (b : RdsBlock) (r : RdsStream) (err : Nat), s.rootOk = true → s.rdsOn e b.stream = true →
    s.rd (F.ANA_ASSIGN_MODE e) = 1 → 2 ≤ s.engState (17 + e) → r = tget RdsStream.init (s.anaS e).rds b.stream → r.sync = true → r.pos = 1 →
    b.offset = .b → b.bit = r.bit → b.afs = [] → b.clock = none → err = rdsErr (s.anaCfg e (F.ANA_RDS_CFG_ERR_MAX e)) b.burst →
    (((decide (err = 3) :: r.bads).take 50).filter id).length ≤ s.rd (F.ANA_X_RDS_SYNC_BAD e) →
    ∃ t : State, exec (.rdsBlock e b) s = .next t ∧ (tget RdsStream.init (t.anaS e).rds b.stream).sync = true ∧
      (tget RdsStream.init (t.anaS e).rds b.stream).bit = b.bit + 26 ∧
      t.rd (F.ANA_RDS_COUNT_BLOCKS_OK e) = (s.rd (F.ANA_RDS_COUNT_BLOCKS_OK e) + b2n (decide (err < 3))) % 2 ^ 16 ∧
      t.rd (F.ANA_RDS_COUNT_BLOCKS_BAD e) = (s.rd (F.ANA_RDS_COUNT_BLOCKS_BAD e) + b2n (decide (err = 3))) % 2 ^ 16 ∧
      s.sameRegsBut [(F.ANA_RDS_COUNT_BLOCKS_OK e).addr] t ∧ s.sameMem t) ∧
  (∀ (s : State) (e : Fin 16) (b : RdsBlock) (r : RdsStream) (err : Nat), s.rootOk = true → s.rdsOn e b.stream = true →
    s.rd (F.ANA_ASSIGN_MODE e) = 1 → 2 ≤ s.engState (17 + e) → r = tget RdsStream.init (s.anaS e).rds b.stream → r.sync = true → r.pos = 1 →
    b.offset = .b → b.bit = r.bit → b.afs = [] → b.clock = none → err = rdsErr (s.anaCfg e (F.ANA_RDS_CFG_ERR_MAX e)) b.burst →
    s.rd (F.ANA_X_RDS_SYNC_BAD e) < (((decide (err = 3) :: r.bads).take 50).filter id).length →
    ∃ t : State, exec (.rdsBlock e b) s = .next t ∧ tget RdsStream.init (t.anaS e).rds b.stream = RdsStream.init ∧
      bit (t.rd (F.ANA_STAT_RDS_SYNC e)) b.stream = false) ∧
  (∀ max burst : Nat, rdsErr max burst < 3 ↔ burst = 0 ∨ burst ≤ 2 ∧ 1 ≤ max ∨ burst ≤ 5 ∧ 2 ≤ max)

/-- A symbol of a synchronised engine is recorded (R306 to R310); an exporting engine forms its sums alone (R530); a frame detects in Search, captures on a stronger later path, counts a
miss or loses the signal (R297, R302 to R304); TIMEOUT comes once per Search. -/
def Obligations.OfdmEngines : Prop :=
  (∀ (s : State) (e : Fin 8) (y : OfdmSym), s.exporting e = false → s.engState (1 + e) < 2 → exec (.ofdmSymbol e y) s = .next s) ∧
  (∀ (s : State) (e : Fin 8) (y : OfdmSym), s.rootOk = true → s.exporting e = true →
    ∃ t : State, exec (.ofdmSymbol e y) s = .next t ∧ t.place = s.place ∧ t.lanes = s.lanes ∧ s.sameRegsBut [] t ∧ s.sameMem t) ∧
  (∀ (s : State) (e : Fin 8) (y : OfdmSym), s.rootOk = true → s.exporting e = false → s.engState (1 + e) = 2 →
    ∃ t : State, exec (.ofdmSymbol e y) s = .next t ∧
      t.rd (F.OFDM_SYNC_FREQ_OFS e) = toField 16 (roundShift 8 ((s.ofdmS e).freq + y.freqErr * 2 ^ (8 - s.rd (F.OFDM_X_TRK_FREQ_LOOP e)))) ∧
      (t.ofdmS e).freq = (s.ofdmS e).freq + y.freqErr * 2 ^ (8 - s.rd (F.OFDM_X_TRK_FREQ_LOOP e)) ∧
      (t.ofdmS e).pos = (s.ofdmS e).pos + y.timeErr * 2 ^ (8 - s.rd (F.OFDM_X_TRK_TIME_LOOP e)) ∧
      t.rd (F.OFDM_SYNC_RATE_ERR e) = y.rateErr.toNat ∧ (∀ b, b < 4 → t.rd (F.BR_EXCL e b) = b2n ((s.exclNow e y).getD b false)) ∧
      ((∃ b : Fin 4, (s.exclNow e y).getD b false ≠ s.on (F.BR_EXCL e b)) → s.raises .ofdm C.ACQ_BRANCH_CHANGE e t) ∧
      (t.ofdmS e).resid = y.resid ∧
      (∀ b, b < 4 → s.rd (F.OFDM_ASSIGN_STD e) ≤ 1 → y.marked.getLsbD b = true → s.on (F.BR_VALID e b) = true →
        (∀ c, c < 4 → c ≠ b → s.on (F.BR_VALID e c) = true → s.rd (F.BR_LANE e c) ≠ s.rd (F.BR_LANE e b)) →
        (t.ofdmS e).taps (s.rd (F.BR_LANE e b)) = (s.ofdmS e).taps (s.rd (F.BR_LANE e b))) ∧ t.engState (1 + e) = 2 ∧ s.sameMem t) ∧
  (∀ (h : Cx) (b : BranchCells) (k : Nat), combine [(h, b)] [] k =
    { num := h.conjMul (b.cells.getD k Cx.zero), den := h.power, all := b.noise + 1 }) ∧
  (∀ (s : State) (e : Fin 8) (y : OfdmSym) (c : Fin 4), s.on (F.BR_VALID e c) = true →
    ∃ b : Fin 4, s.on (F.BR_VALID e b) = true ∧ (s.exclNow e y).getD b false = false) ∧
  (∀ (s : State) (e : Fin 8) (f : OfdmFrame), s.engState (1 + e) = 0 → exec (.ofdmFrame e f) s = .next s) ∧
  (∀ (s : State) (e : Fin 8) (f : OfdmFrame), s.rootOk = true → s.engState (1 + e) = 1 → s.rd (F.OFDM_ASSIGN_STD e) ≤ 1 → f.p1 = none → f.drmMode = none →
    f.counted = true → f.ofs.natAbs ≤ s.rd (F.OFDM_X_ACQ_FREQ_RANGE e) * 1024 + 512 → (s.rd (F.OFDM_X_ACQ_DET_THR e) : Int) ≤ f.peak2 →
    ∃ u : State, exec (.ofdmFrame e f) s = .next u.agcFollowAll ∧ u.rd (F.OFDM_STAT_STATE e) = 2 ∧
      u.rd (F.OFDM_SYNC_FREQ_OFS e) = toField 16 f.ofs ∧ u.rd (F.OFDM_FRAME_TIME_US e) = f.time.toNat ∧ (u.ofdmS e).miss = 0 ∧
      s.raises .ofdm C.ACQ_DETECTED e u ∧ s.sameMem u) ∧
  (∀ (s : State) (e : Fin 8) (f : OfdmFrame), s.rootOk = true → 2 ≤ s.engState (1 + e) → f.p1 = none → f.drmMode = none →
    (∀ p, (s.engState (1 + e) = 2 ∨ s.rd (F.OFDM_X_ACQ_CAPTURE_LOCKED e) = 1) → s.capturePeak e f.peaks = some p →
      ∃ t : State, exec (.ofdmFrame e f) s = .next t ∧ t.rd (F.OFDM_STAT_STATE e) = 2 ∧ t.rd (F.OFDM_CAPT_EXCESS e) = min 255 p.1 ∧
        t.rd (F.OFDM_CAPT_IN_LOCKED e) = b2n (decide (s.engState (1 + e) = 3)) ∧
        t.rd (F.OFDM_COUNT_CAPTURES e) = (s.rd (F.OFDM_COUNT_CAPTURES e) + 1) % 2 ^ 16 ∧
        t.rd (F.OFDM_FRAME_TIME_US e) = f.time.toNat ∧ s.raises .ofdm C.ACQ_CAPTURED e t ∧ s.sameMem t) ∧
    (s.capturePeak e f.peaks = none → f.invalid = false → f.ofs.natAbs ≤ 30 * 1024 → f.counted = true → 0 < s.rd (F.OFDM_ACQ_CFG_LOSS e) →
      (s.rd (F.OFDM_X_ACQ_DET_THR e) : Int) ≤ f.peak2 →
      ∃ t : State, exec (.ofdmFrame e f) s = .next t ∧ (t.ofdmS e).miss = 0 ∧ t.engState (1 + e) = s.engState (1 + e) ∧
        t.rd (F.OFDM_FRAME_TIME_US e) = f.time.toNat ∧ s.sameRegsBut [(F.OFDM_FRAME_TIME_US e).addr] t ∧ s.sameMem t) ∧
    (s.capturePeak e f.peaks = none → f.invalid = true →
      ∃ u : State, exec (.ofdmFrame e f) s = .next (u.ofdmLost e none) ∧ u.engState (1 + e) = s.engState (1 + e) ∧ s.sameMem u)) ∧
  (∀ (s : State) (e : Fin 8), s.rootOk = true → s.engState (1 + e) = 1 → (s.ofdmS e).timedOut = false →
    ∃ t : State, exec (.ofdmAcqTimeout e) s = .next t ∧ s.raises .ofdm C.ACQ_TIMEOUT e t ∧ (t.ofdmS e).timedOut = true ∧
      s.sameRegsBut (causeRegs .ofdm e) t ∧ s.sameMem t)

/-- A FIB that fails its CRC is recorded (R318, R339, R343); the third of a frame that passes locks the engine (R297). A logical frame
is delivered once the deinterleaver is filled by 16 frames (R320), a superframe once its passes end in superframe sync (R324, R325); a
delivered block counts and goes to the queue (R340). A reconfiguration restarts what it names (R321); a FAC that fails is recorded and
breaks the run of two (R297, R326); L1 that names another mode goes back to Acquire (R311, R327). -/
def Obligations.FecDecoders : Prop :=
  (∀ (s : State) (e : Fin 8) (f : Fib), s.fecChain e = none → exec (.fibDecoded e f) s = .next s) ∧
  (∀ (s : State) (e : Fin 8) (f : Fib) (c : PChain), s.rootOk = true → s.fecChain e = some c → c.bearer = 2 → crc16Holds (payloadBytes f.words 0) = false →
    ∃ t : State, exec (.fibDecoded e f) s = .next t ∧ s.raises .fec C.FEC_CRC_FAIL 0 t ∧
      (s.on F.FEC_LAST_BAD_VALID = false → t.rd F.FEC_LAST_BAD_VALID = 1 ∧ t.rd F.FEC_LAST_BAD_CAUSE = C.FEC_CRC_FAIL ∧
        t.rd F.FEC_LAST_BAD_KIND = 0) ∧
      s.sameRegsBut (F.FEC_LAST_BAD_VALID.addr :: causeRegs .fec 0) t ∧ s.sameMem t) ∧
  (∀ (s : State) (e : Fin 8) (f : Fib) (c : PChain), s.rootOk = true → s.fecChain e = some c → c.bearer = 2 → crc16Holds (payloadBytes f.words 0) = true →
    s.on F.FEC_OUT_CFG_SIG_OUT = false →
    (s.engState (1 + e) = 3 → ∃ u : State, exec (.fibDecoded e f) s = .next (u.signalling e 4 f.sig) ∧
      (u.ofdmS e).fibs = (s.ofdmS e).fibs + 1 ∧ (∀ a, u.reg a = s.reg a) ∧ s.sameMem u) ∧
    (s.engState (1 + e) = 2 → (s.ofdmS e).resid = true → 2 ≤ (s.ofdmS e).fibs →
      ∃ u : State, exec (.fibDecoded e f) s = .next ((u.engLocked (1 + e)).signalling e 4 f.sig) ∧
        u.rd (F.OFDM_STAT_STATE e) = 3 ∧ s.raises .ofdm C.ACQ_LOCKED e u ∧
        s.sameRegsBut ((F.OFDM_STAT_STATE e).addr :: causeRegs .ofdm e) u ∧ s.sameMem u)) ∧
  (∀ (s : State) (e : Fin 8) (f : LogicalFrame) (c : PChain) (key : Nat), s.rootOk = true → s.fecChain e = some c → c.bearer = 2 →
    s.engState (1 + (e : Nat)) = 3 → key = 64 * (e : Nat) + f.service.stream.toNat % 64 →
    (tget 0 s.fec.deint key < 15 → ∃ t : State, exec (.logicalFrameDecoded e f) s = .next t ∧
      tget 0 t.fec.deint key = tget 0 s.fec.deint key + 1 ∧ (∀ a, t.reg a = s.reg a) ∧ s.sameMem t) ∧
    (15 ≤ tget 0 s.fec.deint key → f.plus = false → c.pair = none → ∃ u : State, (∀ a, u.reg a = s.reg a) ∧ s.sameMem u ∧
      exec (.logicalFrameDecoded e f) s = .next (u.deliverAll c f.service
        (serviceBlock f.service (serviceCheck f.service) (if f.service.packet then 3 else 1) e f.cif.toNat 1 false (s.isCombined c f.single)) false c.clus))) ∧
  (∀ (s : State) (e : Fin 8) (f : Superframe) (c : PChain) (key : Nat), s.rootOk = true → s.fecChain e = some c → c.bearer = 2 →
    s.engState (1 + (e : Nat)) = 3 → key = 64 * (e : Nat) + f.service.stream.toNat % 64 →
    (tget 0 s.fec.deint key < 20 → exec (.superframeDecoded e f) s = .next s) ∧
    (∀ (p : VrsPass) (v : Service), 20 ≤ tget 0 s.fec.deint key → c.pair = none →
      (tget 0 s.fec.fire key = 0 ∨ tget 0 s.fec.phase key = f.cif.toNat % 5) → f.passes = [p] → p.fire = true →
      (∀ w : Codeword, w ∈ p.words → 2 * (w.filter fun b => b.1).length ≤ 10) →
      v = { f.service with packet := false, corrected := f.service.corrected || superDirty f } →
      ∃ u : State, tget 0 u.fec.fire key = 1 ∧ (∀ a, u.reg a = s.reg a) ∧ s.sameMem u ∧
      exec (.superframeDecoded e f) s = .next (u.deliverAll c v
        (serviceBlock v (some (v.aus.all fun a => decide (a ≠ some false))) 2 e f.cif.toNat 1 false (s.isCombined c f.single)) false c.clus))) ∧
  (∀ (v : VrsSet) (w : Codeword), 2 * (w.filter fun b => b.1).length ≤ 10 → rsDecodes v.thr w = true) ∧
  (∀ (s : State) (id h : Nat) (b : Block), s.adecFor h id = none → b.corrected = false →
    (b.bad = true → s.on F.FEC_OUT_CFG_PASS_BAD = false →
      s.deliver id h b [] = s.bump (F.FEC_HSTAT0_BLOCKS_BAD h)) ∧
    (b.bad = false → s.deliver id h b [] = (s.bump (F.FEC_HSTAT0_BLOCKS_OK h)).offer h 1 b.pad b.words b.intact)) ∧
  (∀ (s : State) (e : Fin 8) (subs : List (Fin 64)) (c : PChain), s.rootOk = true → s.fecChain e = some c → c.bearer = 2 → s.engState (1 + (e : Nat)) = 3 →
    ∃ t : State, exec (.reconfigApply e subs []) s = .next t ∧ s.raises .ofdm C.ACQ_CFG_CHANGE e t ∧
      (∀ x ∈ subs, tget 0 t.fec.deint (64 * (e : Nat) + (x : Nat)) = 0) ∧ s.sameRegsBut (causeRegs .ofdm e) t ∧ s.sameMem t) ∧
  (∀ (s : State) (e : Fin 8) (f : DrmFrame) (c : PChain), s.rootOk = true → s.fecChain e = some c → (c.bearer = 3 ∨ c.bearer = 4) → facHolds f.fac = false →
    f.sdc = none → s.engState (1 + (e : Nat)) = 2 →
    ∃ t : State, exec (.drmFrameDecoded e f) s = .next t ∧ s.raises .fec C.FEC_CRC_FAIL 0 t ∧ (t.ofdmS e).fac = 0 ∧
      s.sameRegsBut (F.FEC_LAST_BAD_VALID.addr :: causeRegs .fec 0) t ∧ s.sameMem t) ∧
  (∀ (s : State) (e : Fin 8) (f : T2L1) (c : PChain), s.rootOk = true → s.fecChain e = some c → 5 ≤ c.bearer → f.preOk = true → f.postOk = false →
    (s.on (F.OFDM_STAT_MODE_VALID e) = true → s.rd (F.OFDM_STAT_T2_FFT e) ≠ f.fft →
      ∃ u : State, exec (.t2L1Decoded e f) s = .next ((u.fecRestart e).wr (F.OFDM_STAT_STATE e) 2) ∧
        u.rd (F.OFDM_STAT_MODE_VALID e) = 0 ∧ s.raises .ofdm C.ACQ_CFG_CHANGE e u ∧ s.raises .fec C.FEC_CRC_FAIL 0 u) ∧
    (s.on (F.OFDM_STAT_MODE_VALID e) = false → (e : Nat) ∉ s.fec.l1Due → f.announced = false →
      ∃ t : State, exec (.t2L1Decoded e f) s = .next t ∧ t.rd (F.OFDM_STAT_MODE_VALID e) = 1 ∧ t.rd (F.OFDM_STAT_T2_FFT e) = f.fft ∧
        t.rd (F.OFDM_STAT_T2_GI e) = f.gi ∧ t.rd (F.OFDM_STAT_T2_PP e) = f.pp ∧ s.raises .ofdm C.ACQ_MODE_FOUND e t ∧
        t.engState (1 + e) = s.engState (1 + e) ∧ s.sameMem t))

/-- A block waits in the FIFO of its unit or is lost at a full one (R332, R333); a free unit takes the oldest L1 block first, with the
load cap judged as the block starts; the end of a block records its iterations, a BCH failure loses the block (R329, R330, R343);
POOL_WAIT counts once a block (R333). Combining turns on at the second whole frame that meets its conditions and off at the first break
(R336, R337); a BER window stores for each engine the share of hard decisions that re-encoding its blocks found wrong, and the warning follows it (R342). -/
def Obligations.LdpcAndCombining : Prop :=
  (∀ (s : State) (e : Fin 8) (who : Option (Fin 128)) (plp : BitVec 8) (cm : Bool), s.fecChain e = none →
    exec (.ldpcBlockArrive e who plp cm) s = .next s) ∧
  (∀ (s : State) (e : Fin 8) (h : Fin 128) (plp : BitVec 8) (c : PChain) (u : Nat), s.rootOk = true → s.fecChain e = some c → 5 ≤ c.bearer →
    (s.ham h).ldpc = some u → s.fec.l1Drop.contains e.val = false →
    (((s.ldpc u).fifo.filter fun b => decide (b.who = (h : Nat))).length < 16 →
      ∃ t : State, exec (.ldpcBlockArrive e (some h) plp false) s = .next t ∧
        (t.ldpc u).fifo = (s.ldpc u).fifo ++
          [{ who := h, eng := e, plp := plp.toNat, common := false, waited := false, limit := 0, stop := false,
             chain := c.id, users := [] }] ∧
        (t.ldpc u).cur = (s.ldpc u).cur ∧ t.rd (F.FEC_LDPC_STAT_BACKLOG u) = ((s.ldpc u).fifo.length + 1) % 2 ^ 8 ∧
        s.sameRegsBut [(F.FEC_LDPC_STAT_BACKLOG u).addr] t ∧ s.sameMem t) ∧
    (16 ≤ ((s.ldpc u).fifo.filter fun b => decide (b.who = (h : Nat))).length →
      ∃ v : State, exec (.ldpcBlockArrive e (some h) plp false) s = .next (v.blockLost h (s.t2Kind h) true u plp.toNat) ∧ s.raises .fec C.FEC_OVERRUN 0 v ∧
        v.rd F.FEC_COUNT_OVERRUNS = min (2 ^ 16 - 1) (s.rd F.FEC_COUNT_OVERRUNS + 1) ∧ v.ldpc u = s.ldpc u)) ∧
  (∀ (s : State) (u : Fin 2), (s.en .fec = false ∨ (s.ldpc u).cur.isSome = true ∨ (s.ldpc u).fifo = [] ∨ s.rootOk = false) →
    exec (.ldpcBlockStart u) s = .next s) ∧
  (∀ (s : State) (u : Fin 2) (b : LBlock) (n : Nat), s.en .fec = true → s.rootOk = true → (s.ldpc u).cur = none →
    (s.ldpc u).choose s.blockPrio = some b →
    n = (if s.rd F.FEC_X_LDPC_LOAD_THR < (s.ldpc u).fifo.length then min (s.rd F.FEC_LDPC_CFG_MAX_ITER) (s.rd F.FEC_X_LDPC_LOAD_ITER)
      else s.rd F.FEC_LDPC_CFG_MAX_ITER) →
    ∃ t : State, exec (.ldpcBlockStart u) s = .next t ∧ (t.ldpc u).fifo = (s.ldpc u).fifo.erase b ∧
      (t.ldpc u).cur = some { b with limit := n, stop := s.on F.FEC_LDPC_CFG_EARLY_STOP, users := s.blockUsers b, chain := s.blockChain b } ∧
      s.sameRegsBut [(F.FEC_LDPC_STAT_BACKLOG u).addr] t ∧ s.sameMem t) ∧
  (∀ (x : LdpcSt) (prio : LBlock → Nat) (b : LBlock), (x.fifo.find? fun b => decide (128 ≤ b.who)) = some b → x.choose prio = some b) ∧
  (∀ (x : LdpcSt) (prio : LBlock → Nat) (b : LBlock), (x.fifo.find? fun b => decide (128 ≤ b.who)) = none → x.choose prio = some b →
    b ∈ x.heads ∧ ∀ d : LBlock, d ∈ x.heads → prio d ≤ prio b) ∧
  (∀ (s : State) (u : Fin 2) (r : LdpcResult), (s.ldpc u).cur = none → exec (.ldpcBlockDone u r) s = .next s) ∧
  (∀ (s : State) (k : Fin 2) (r : LdpcResult) (b : LBlock) (n : Nat), s.busUp = true → (s.ldpc k).cur = some b → b.who < 128 → r.parity = some n →
    n ≤ b.limit → n < 128 → b.stop = true → 12 < r.bitErrors →
    ∃ v : State, exec (.ldpcBlockDone k r) s = .next (v.blockLost b.who (if r.gse then 10 else 9) true k b.plp) ∧
      v.rd (F.FEC_LDPC_STAT_LAST_ITER k) = n ∧ (v.ldpc k).cur = none ∧ s.sameRegsBut [(F.FEC_LDPC_STAT_LAST_ITER k).addr] v ∧ s.sameMem v) ∧
  (∀ (s : State) (h kind unit stream : Nat) (ldpc : Bool), s.on F.FEC_LAST_BAD_VALID = true →
    s.blockLost h kind ldpc unit stream = (s.bump (F.FEC_HSTAT0_BLOCKS_BAD h)).raise .fec C.FEC_UNCORR) ∧
  (∀ (s : State) (u : Fin 2) (b : LBlock) (r : List LBlock), s.busUp = true → (s.ldpc u).fifo = b :: r → 128 ≤ b.who → b.waited = false →
    ∃ t : State, exec (.poolWait u none) s = .next t ∧ s.raises .fec C.FEC_POOL_WAIT 0 t ∧
      t.rd F.FEC_COUNT_POOL_WAITS = min (2 ^ 16 - 1) (s.rd F.FEC_COUNT_POOL_WAITS + 1) ∧
      (t.ldpc u).fifo = { b with waited := true } :: r ∧ s.sameRegsBut (F.FEC_COUNT_POOL_WAITS.addr :: causeRegs .fec 0) t ∧ s.sameMem t) ∧
  (∀ (s : State) (u : Fin 4) (c : CifPair) (p : PChain), s.en .fec = true → s.rootOk = true → s.pairOn u = some p →
    (∀ l ∈ p.legs, s.engState (1 + l.eng) = 3) → c.sameEid = true → c.sameFig = true →
    c.skew.natAbs ≤ 240 * s.rd F.FEC_COMB_CFG_SKEW_MAX →
    (s.on (F.FEC_COMB_STAT_ACTIVE u) = false → c.complete = true → c.frameEnd = true →
      (tget 0 s.fec.combRun u = 0 → ∃ t : State, exec (.cifCombine u c) s = .next t ∧ tget 0 t.fec.combRun u = 1 ∧
        (∀ a, t.reg a = s.reg a) ∧ s.sameMem t) ∧
      (2 ≤ tget 0 s.fec.combRun u → ∃ t : State, exec (.cifCombine u c) s = .next t ∧ t.rd (F.FEC_COMB_STAT_ACTIVE u) = 1 ∧
        t.rd (F.FEC_COMB_STAT_SKEW u) = toField 14 c.skew ∧ t.rd (F.FEC_COMB_STAT_SHARE_B u) = c.share.toNat ∧
        s.raises .fec C.FEC_COMB_ON 0 t ∧ s.sameRegsBut ((F.FEC_COMB_STAT_ACTIVE u).addr :: causeRegs .fec 0) t ∧ s.sameMem t)) ∧
    (s.on (F.FEC_COMB_STAT_ACTIVE u) = true → ∃ t : State, exec (.cifCombine u c) s = .next t ∧
      t.rd (F.FEC_COMB_STAT_SKEW u) = toField 14 c.skew ∧ t.rd (F.FEC_COMB_STAT_SHARE_B u) = c.share.toNat ∧
      s.sameRegsBut [(F.FEC_COMB_STAT_ACTIVE u).addr] t ∧ s.sameMem t)) ∧
  (∀ (s : State) (u : Fin 4) (c : CifPair) (p : PChain), s.en .fec = true → s.rootOk = true → s.pairOn u = some p →
    s.on (F.FEC_COMB_STAT_ACTIVE u) = true → (∀ l ∈ p.legs, s.engState (1 + l.eng) = 3) → c.sameEid = false →
    ∃ t : State, exec (.cifCombine u c) s = .next t ∧ t.rd (F.FEC_COMB_STAT_ACTIVE u) = 0 ∧ t.rd (F.FEC_COMB_STAT_OFF_REASON u) = 2 ∧
      t.rd (F.FEC_COMB_STAT_SHARE_B u) = 0 ∧ s.raises .fec C.FEC_COMB_OFF 0 t ∧ s.sameMem t) ∧
  (∀ s : State, s.en .fec = true → s.rootOk = true →
    ∃ u : State, (∀ e, e < 8 → u.rd (F.FEC_BER e) = (if (tget (0, 0) s.fec.ber e).1 = 0 then s.rd (F.FEC_BER e)
        else min 65535 (nearest ((tget (0, 0) s.fec.ber e).2 * 100000 : Nat) (tget (0, 0) s.fec.ber e).1).toNat)) ∧ u.fec.ber = [] ∧
      s.sameRegsBut ((List.range 8).map fun e => (F.FEC_BER e).addr) u ∧ s.sameMem u ∧
      exec .berWindow s = .next (u.level .fec C.FEC_BER_WARN
        ((List.range 8).any fun e => decide (10 * u.rd F.FEC_BER_CFG_WARN < u.rd (F.FEC_BER e)))))

/-- A measuring Hamper takes up a measurement; one that no input can carry is abandoned, counted and reported with VALID 0 (R353, R355,
R356). An engine is borrowed as soon as one is free (R354). A result is counted, recorded and judged (R356, R358); a verification decides
between the follow request and AF_FAIL (R359, R360); a Beacon period reports a header and raises BEACON (R375). -/
def Obligations.Measurements : Prop :=
  (∀ (s : State) (w : Fin 128), (s.measures w = false ∨ s.sampling = false ∨ s.rootOk = false ∨ (s.watcher w).meas.isSome = true) →
    exec (.measureStart w) s = .next s) ∧
  (∀ (s : State) (w : Fin 128) (n : Nat), s.rootOk = true → s.measures w = true → s.sampling = true → (s.watcher w).meas = none →
    (s.ham w).req.role = 4 → s.watchLane w = some n →
    s.measInput w (s.ham w).req.bearer (s.ham w).req.freq (s.rd (F.LANE_ASSIGN_INPUT n)) = none →
    ∃ t : State, exec (.measureStart w) s = .next t ∧
      t.rd F.PLACE_FOLLOW_CNT2_ABANDONED = (s.rd F.PLACE_FOLLOW_CNT2_ABANDONED + 1) % 2 ^ 16 ∧
      ((s.queue w).live = true → ∃ it : Item, t.sched.items = s.sched.items ++ [it] ∧ it.hamper = w ∧ it.cls = 3 ∧
        it.payload = [2 ^ 28 + (s.ham w).req.bearer * 2 ^ 25, (s.ham w).req.freq, 0, 0, s.nowUs].map (· % 2 ^ 32)) ∧
      s.sameRegsBut [F.PLACE_FOLLOW_CNT2_ABANDONED.addr] t ∧ s.sameMem t) ∧
  (∀ (s : State) (w : Fin 128) (n i : Nat), s.rootOk = true → s.measures w = true → s.sampling = true → (s.watcher w).meas = none →
    (s.ham w).req.role = 4 → s.watchLane w = some n →
    s.measInput w (s.ham w).req.bearer (s.ham w).req.freq (s.rd (F.LANE_ASSIGN_INPUT n)) = some (i, none) →
    exec (.measureStart w) s = .next (((List.range 4).foldl (·.filtMeas n ·)
      (s.setLane n (some (w : Nat)) none i (bearerPreset (s.ham w).req.bearer) (s.ham w).req.freq)).borrowFor w
        { bearer := (s.ham w).req.bearer, freq := (s.ham w).req.freq, source := 0, eng := none, verify := false })) ∧
  (∀ (s : State) (w : Fin 128) (m : Meas), s.rootOk = true → (s.watcher w).meas = some m → m.eng = none →
    (s.lendable w m.bearer = none → ∃ t : State, exec (.measureEngineRetry w) s = .next t ∧ (t.watcher w).meas = some m ∧
      (∀ a, t.reg a = s.reg a) ∧ s.sameMem t) ∧
    (∀ k, s.lendable w m.bearer = some k → ∃ t : State, exec (.measureEngineRetry w) s = .next t ∧
      (t.watcher w).meas = some { m with eng := some k } ∧ (∀ n, s.watchLane w = some n → (t.lane n).due = true) ∧
      t.place = s.place ∧ s.sameMem t)) ∧
  (∀ (s : State) (w : Fin 128), (s.watcher w).meas = none → exec (.measureEngineRetry w) s = .next s) ∧
  (∀ (s : State) (w : Fin 128) (r : MeasResult) (m : Meas) (k : Nat), s.rootOk = true → (s.watcher w).meas = some m → m.eng = some k → m.verify = false →
    (s.ham w).req.role = 2 → ∃ u : State,
      u.rd F.PLACE_FOLLOW_CNT2_MEASURED = (s.rd F.PLACE_FOLLOW_CNT2_MEASURED + b2n (measValid m.bearer r)) % 2 ^ 16 ∧
      ((s.queue w).live = true → ∃ it : Item, u.sched.items = s.sched.items ++ [it] ∧ it.hamper = w ∧ it.cls = 3 ∧
        it.payload = (recWords 1 m.bearer (measValid m.bearer r) r.detected
          (identMatches (s.expectedOf w m.bearer m.freq) (measIdent m.bearer r) r.eid.toNat) m.source (measQual m.bearer r) 0 m.freq
          r.level4 r.snr4 (measIdent m.bearer r) s.nowUs).map (· % 2 ^ 32)) ∧
      s.sameRegsBut [F.PLACE_FOLLOW_CNT2_MEASURED.addr] u ∧ s.sameMem u ∧
      (measValid m.bearer r = false → exec (.measureDone w r) s =
        .next (((u.endMeas w).showFollow (s.ham w).req.link).evalSwitch (s.ham w).req.link)) ∧
      (measValid m.bearer r = true → exec (.measureDone w r) s =
        .next ((((u.endMeas w).noteResult w m (measQual m.bearer r)).showFollow (s.ham w).req.link).evalSwitch (s.ham w).req.link))) ∧
  (∀ (s : State) (w : Fin 128) (r : MeasResult) (n : Nat) (f : FolSt) (sw : Switch),
    s.rootOk = true → (s.follow.find? fun x => x.2.sw.any fun y => decide (y.watcher = (w : Nat)) && !y.asked) = some (n, f) → f.sw = some sw →
    (s.watcher w).meas = none →
    (r.valid = false → s.measures w = false → exec (.verifyDone w r) s = .next (((s.holdBad sw).endSwitch n).afFail n 2)) ∧
    (r.valid = false → s.measures w = true → exec (.verifyDone w r) s = .next s) ∧
    (r.valid = true → r.ident = 0 → exec (.verifyDone w r) s = .next (((s.holdBad sw).endSwitch n).afFail n 2)) ∧
    (r.valid = true → identMatches (s.expectedOf w sw.bearer sw.freq) r.ident.toNat 0 = false → r.ident ≠ 0 →
      exec (.verifyDone w r) s = .next (((s.holdBad sw).endSwitch n).afFail n 1)) ∧
    (r.valid = true → identMatches (s.expectedOf w sw.bearer sw.freq) r.ident.toNat 0 = true →
      ∃ u : State, exec (.verifyDone w r) s = .next (u.askFollow n sw.bearer sw.freq) ∧ (u.fol n).sw = some { sw with asked := true } ∧
        (∀ a, u.reg a = s.reg a) ∧ s.sameMem u)) ∧
  (∀ (s : State) (n r : Nat), n < 128 → r < 8 → ∃ t : State, s.afFail n r = t ∧
    t.rd F.PLACE_FOLLOW_CNT_FAILS = (s.rd F.PLACE_FOLLOW_CNT_FAILS + 1) % 2 ^ 16 ∧ s.raises .place C.SERVICE_AF_FAIL 0 t ∧
    (s.on F.PLACE_FOLLOW_CAPT_VALID = false → t.rd F.PLACE_FOLLOW_CAPT_VALID = 1 ∧ t.rd F.PLACE_FOLLOW_CAPT_REASON = r ∧
      t.rd F.PLACE_FOLLOW_CAPT_HAMPER = n) ∧
    s.sameRegsBut (F.PLACE_FOLLOW_CNT_FAILS.addr :: F.PLACE_FOLLOW_CAPT_VALID.addr :: causeRegs .place 0) t ∧ s.sameMem t) ∧
  (∀ (s : State) (n b f : Nat), (s.askFollow n b f).place.due = true ∧ (∀ a, (s.askFollow n b f).reg a = s.reg a)) ∧
  (∀ (s : State) (w : Fin 128) (r : MeasResult) (m : Meas) (k : Nat), s.rootOk = true → (s.watcher w).meas = some m → m.eng = some k →
    (s.ham w).req.role = 4 → m.bearer = 2 →
    ∃ u : State, exec (.beaconPeriod w r []) s = .next ((u.endMeas w).raise .place C.SERVICE_BEACON) ∧
      u.rd F.PLACE_FOLLOW_CNT2_MEASURED = (s.rd F.PLACE_FOLLOW_CNT2_MEASURED + b2n (measValid m.bearer r)) % 2 ^ 16 ∧
      ((s.queue w).live = true → ∃ it : Item, u.sched.items = s.sched.items ++ [it] ∧ it.hamper = w ∧ it.cls = 3 ∧
        it.payload = (recWords 3 2 (measValid m.bearer r) r.detected false 0 (measQual m.bearer r) 0 m.freq r.level4 r.snr4 r.ident.toNat s.nowUs).map (· % 2 ^ 32)) ∧
      s.sameMem u)

/-- A published switch whose target does not come in time is undone and its candidate held bad (R359, R352); the holds end on their
events (R352, R358); two agreeing windows give the offset, the gain and the standing delay (R362, R363, R365), the last failing one
releases the second chain (R362); a blend ends with HOLDOFF and BLEND_DONE (R364); a standing delay ends at 0 (R365). -/
def Obligations.SwitchesAndBlends : Prop :=
  (∀ (s : State) (n : Fin 128), (s.fol n).sw = none → exec (.foundTimeout n) s = .next s ∧ exec (.blendDone n) s = .next s ∧
    ∀ win, exec (.alignWindow n win) s = .next s) ∧
  (∀ (s : State) (n : Fin 128) (sw : Switch), s.busUp = true → (s.fol n).sw = some sw → sw.published = true → s.rd (F.PLACE_FOLLOW_W0_STATE n) = 2 →
    (sw.second = true → exec (.foundTimeout n) s = .next ((s.holdBad sw).releaseSecond n 2)) ∧
    (sw.second = false → ∃ u : State, exec (.foundTimeout n) s = .next ((u.endSwitch n).afFail n 2) ∧ (u.fol n).holdoff = true)) ∧
  (∀ (s : State) (n r : Nat), s.releaseSecond n r =
    ((((s.gainBack n).updFol n fun f => { f with holdoff := true }).endSwitch n).editPlan fun p => p.unblend n (decide (s.rd (F.PLACE_FOLLOW_W3_STANDING n) ≠ 0))).afFail n r) ∧
  (∀ (s : State) (sw : Switch), (∀ a, (s.holdBad sw).reg a = s.reg a) ∧
    ∀ c ∈ ((s.holdBad sw).watcher sw.watcher).cands, c.bearer = sw.bearer → c.freq = sw.freq → c.bad = true ∧ c.run = 0) ∧
  (∀ (s : State) (w : Fin 128) (b : Fin 7) (f : Word), s.busUp = true → (s.ham w).req.role ≠ 2 →
    ∃ t : State, exec (.badHoldExpiry w b f) s = .next t ∧
      (∀ c ∈ (t.watcher w).cands, c.bearer = (b : Nat) → c.freq = f.toNat → c.bad = false) ∧ (∀ a, t.reg a = s.reg a) ∧ s.sameMem t) ∧
  (∀ (s : State) (w : Fin 128) (b : Fin 7) (f : Word), s.busUp = true → (s.ham w).req.role = 2 →
    ∃ u : State, exec (.badHoldExpiry w b f) s = .next (u.evalSwitch (s.ham w).req.link) ∧
      (∀ c ∈ (u.watcher w).cands, c.bearer = (b : Nat) → c.freq = f.toNat → c.bad = false) ∧ (∀ a, u.reg a = s.reg a) ∧ s.sameMem u) ∧
  (∀ (s : State) (n : Fin 128), s.busUp = true → ∃ u : State, exec (.holdoffExpiry n) s = .next (u.evalSwitch n) ∧ (u.fol n).holdoff = false ∧
    (u.fol n).sw = (s.fol n).sw ∧ (∀ a, u.reg a = s.reg a) ∧ s.sameMem u) ∧
  (∀ (s : State) (n : Nat) (w : Nat) (c : Cand) (qa : Int), (s.fol n).sw = none → (s.fol n).holdoff = false → s.isFollowed n = true →
    bestCand (s.bearerNow n) ((s.candsOf n).filter fun x => s.qualifies x.1 x.2.1) = some (w, c, qa) →
    ∃ u : State, (∃ sw, (u.fol n).sw = some sw ∧ sw.watcher = w ∧ sw.bearer = c.bearer ∧ sw.freq = c.freq ∧ sw.prevFreq = s.freqNow n ∧
        sw.asked = decide (c.bearer ≠ 1) ∧ sw.published = false ∧ sw.second = false ∧ sw.tries = 0 ∧ sw.lastOfs = none) ∧
      u.rd (F.PLACE_FOLLOW_W0_STATE n) = 2 ∧ s.sameRegsBut [(F.PLACE_FOLLOW_W0_STATE n).addr] u ∧ s.sameMem u ∧
      s.evalSwitch n = if c.bearer = 1 then u else u.askFollow n c.bearer c.freq) ∧
  (∀ (s : State) (n : Fin 128) (win : AlignWin) (sw : Switch), s.busUp = true → (s.fol n).sw = some sw → sw.second = true →
    s.rd (F.PLACE_FOLLOW_W0_STATE n) = 3 →
    (∀ p o, s.blendMuted n = false → win.peak = some p → getBits sw.blend 23 16 ≤ p → win.ofs.natAbs ≤ 48 * getBits sw.blend 11 0 →
      sw.lastOfs = some o → (win.ofs - o).natAbs ≤ 1 → ∃ t : State, exec (.alignWindow n win) s = .next t ∧
        t.rd (F.PLACE_FOLLOW_W0_STATE n) = 4 ∧ t.rd (F.PLACE_FOLLOW_W2_OFFSET n) = toField 24 win.ofs ∧
        t.rd (F.PLACE_FOLLOW_W2_GAIN n) = toField 8 (max (-(10 * (getBits sw.xFollow 7 0 : Int)))
          (min (10 * (getBits sw.xFollow 7 0 : Int)) win.ratio)) ∧
        t.rd (F.PLACE_FOLLOW_W3_STANDING n) = (s.rd (F.PLACE_FOLLOW_W3_STANDING n) + (max 0 win.ofs).toNat) % 2 ^ 24 ∧
        (∃ v, (t.fol n).sw = some v ∧ v.delay = (max 0 (-win.ofs)).toNat) ∧ (t.fol n).relax = none ∧
        s.sameRegsBut [(F.PLACE_FOLLOW_W0_STATE n).addr, (F.PLACE_FOLLOW_W2_OFFSET n).addr, (F.PLACE_FOLLOW_W3_STANDING n).addr] t ∧
        s.sameMem t) ∧
    ((win.peak = none ∨ s.blendMuted n = true) → sw.tries + 1 < getBits sw.blend 15 12 →
      ∃ t : State, exec (.alignWindow n win) s = .next t ∧ (t.fol n).sw = some { sw with tries := sw.tries + 1 } ∧
        (∀ a, t.reg a = s.reg a) ∧ s.sameMem t) ∧
    ((win.peak = none ∨ s.blendMuted n = true) → getBits sw.blend 15 12 ≤ sw.tries + 1 →
      ∃ u : State, exec (.alignWindow n win) s = .next (u.releaseSecond n 3) ∧ (∀ a, u.reg a = s.reg a) ∧ s.sameMem u)) ∧
  (∀ (s : State) (n : Fin 128) (sw : Switch), s.busUp = true → (s.fol n).sw = some sw → sw.second = true → s.rd (F.PLACE_FOLLOW_W0_STATE n) = 4 →
    exec (.blendDone n) s = .next (s.finishSwitch n true)) ∧
  (∀ (s : State) (n : Nat) (sw : Switch), n < 128 → (s.fol n).sw = some sw → ∃ u : State, (u.fol n).sw = none ∧ (u.fol n).holdoff = true ∧ (u.fol n).relax = some s.elapsed ∧
    u.rd (F.PLACE_FOLLOW_W0_ALIGNED n) = 1 ∧ u.rd (F.PLACE_FOLLOW_W3_STANDING n) = sw.delay % 2 ^ 24 ∧ s.raises .place C.SERVICE_BLEND_DONE 0 u ∧
    s.sameRegsBut ((F.PLACE_FOLLOW_W0_ALIGNED n).addr :: (F.PLACE_FOLLOW_W3_STANDING n).addr :: causeRegs .place 0) u ∧ s.sameMem u ∧
    (u.rd (F.PLACE_FOLLOW_W3_STANDING n) = 0 → s.finishSwitch n true =
      ((u.editPlan fun p => (p.upd n fun q => { q with alt := none, adecAlt := none, blend := none }).sweep).audChange n).showFollow n) ∧
    (u.rd (F.PLACE_FOLLOW_W3_STANDING n) ≠ 0 → s.finishSwitch n true =
      ((u.editPlan fun p => (p.upd n fun q => { q with alt := none, adecAlt := none }).sweep).audChange n).showFollow n)) ∧
  (∀ (s : State) (n : Fin 128), s.rd (F.PLACE_FOLLOW_W3_STANDING n) = 0 ∨ s.keepsDelay n = true → exec (.standingDelayRemoved n) s = .next s) ∧
  (∀ (s : State) (n : Fin 128), s.rd (F.PLACE_FOLLOW_W3_STANDING n) ≠ 0 → s.keepsDelay n = false → (s.fol n).sw = none → s.busUp = true →
    ∃ u : State, exec (.standingDelayRemoved n) s = .next (u.editPlan fun p => p.upd n fun q => { q with blend := none }) ∧
      u.rd (F.PLACE_FOLLOW_W3_STANDING n) = 0 ∧ s.sameRegsBut [(F.PLACE_FOLLOW_W3_STANDING n).addr] u ∧ s.sameMem u)

/-- A decoded audio frame puts its format into force or is concealed, and its stream mutes at CONCEAL_MAX (R369 to R372). A frame sync
counts, starts, stops and asks every routed pair for its sample (R389 to R393), which the chain that supplies the Hamper's sound gives
(R367, R373, R386); clock errors of a target port (R384, R385); a change of a pair is made at its zero crossing or by the timeout (R394).
That the mute comes with the frame that makes the count reach CONCEAL_MAX is the model's reading (assumption 18), and which frames the
engines cannot parse is assumption 128. -/
def Obligations.AudioFrames : Prop :=
  (∀ (s : State) (e : Fin 6) (f : AudioFrame), (s.en .adec = false ∨ s.rootOk = false ∨ s.adecNext e = none) →
    exec (.audioFrameDecode e f) s = .next s) ∧
  (∀ (s : State) (e : Fin 6) (f : AudioFrame) (h : Nat) (x : AdecIn), s.en .adec = true → s.rootOk = true → s.adecNext e = some h →
    s.adec.ready.find? (fun y => decide (y.eng = (e : Nat)) && decide (y.ham = h)) = some x →
    (f.parses = true → audioFits f ((s.place.live.find x.chain).elim 0 (·.bearer)) = true →
      (x.check = some true ∨ (x.check = none ∧ f.check = some true)) →
      ∃ u : State, exec (.audioFrameDecode e f) s = .next ((u.goodFrame h x.chain f).showAdec h) ∧ u.adec.hams = s.adec.hams ∧
        u.adec.ready = s.adec.ready.eraseP (fun y => decide (y.eng = (e : Nat)) && decide (y.ham = h)) ∧
        (∀ a, u.reg a = s.reg a) ∧ s.sameMem u) ∧
    ((x.check = some false ∨ f.parses = false ∨ (x.uncorr = true ∧ x.check = none ∧ f.check = none)) →
      ∃ u : State, exec (.audioFrameDecode e f) s =
          .next ((u.badFrame e h x.chain (f.parses && audioFits f ((s.place.live.find x.chain).elim 0 (·.bearer)))).showAdec h) ∧
        u.adec.hams = s.adec.hams ∧ u.adec.ready = s.adec.ready.eraseP (fun y => decide (y.eng = (e : Nat)) && decide (y.ham = h)) ∧
        (∀ a, u.reg a = s.reg a) ∧ s.sameMem u)) ∧
  (∀ (s : State) (e : Fin 6) (h : Fin 128) (id : Nat),
    (min 15 ((s.adecHam h id).bad + 1) < s.rd F.ADEC_CFG_CONCEAL_MAX →
      ∃ t : State, s.badFrame e h id true = t ∧ (t.adecHam h id).bad = min 15 ((s.adecHam h id).bad + 1) ∧
        (t.adecHam h id).muted = (s.adecHam h id).muted ∧
        t.rd (F.ADEC_HSTAT1_CONCEALED h) = (s.rd (F.ADEC_HSTAT1_CONCEALED h) + 1) % 2 ^ 16 ∧
        s.sameRegsBut [(F.ADEC_HSTAT1_CONCEALED h).addr] t ∧ s.sameMem t) ∧
    (s.rd F.ADEC_CFG_CONCEAL_MAX ≤ min 15 ((s.adecHam h id).bad + 1) → (s.adecHam h id).muted = false →
      ∃ t : State, s.badFrame e h id true = t ∧ (t.adecHam h id).muted = true ∧
        t.rd (F.ADEC_HSTAT1_MUTES h) = (s.rd (F.ADEC_HSTAT1_MUTES h) + 1) % 2 ^ 16 ∧
        t.rd (F.ADEC_HSTAT1_CONCEALED h) = (s.rd (F.ADEC_HSTAT1_CONCEALED h) + 1) % 2 ^ 16 ∧ s.raises .adec C.AUDIO_DEC_ERR 0 t ∧
        (s.on F.ADEC_LAST_ERR_VALID = false → t.rd F.ADEC_LAST_ERR_CODE = 1) ∧ s.sameMem t)) ∧
  (∀ (s : State) (h : Fin 128) (id : Nat) (f : AudioFrame), ∃ t : State, s.goodFrame h id f = t ∧
    (t.adecHam h id).bad = 0 ∧ (t.adecHam h id).muted = false ∧ (t.adecHam h id).known = true ∧
    ((s.adecHam h id).muted = true → (t.adecHam h id).fade = true) ∧
    ((s.adecHam h id).known = true → (s.adecHam h id).format ≠ (f.format : Nat) → s.raises .adec C.AUDIO_FORMAT_CHANGE 0 t) ∧
    (s.soundId h = some id → (t.showAdec h).rd (F.ADEC_HSTAT0_FORMAT h) = f.format ∧ (t.showAdec h).rd (F.ADEC_HSTAT0_CHANNELS h) = f.channels ∧
      (t.showAdec h).rd (F.ADEC_HSTAT0_SR_IN h) = f.srIn ∧ (t.showAdec h).rd (F.ADEC_HSTAT0_KBPS h) = f.kbps.toNat ∧
      (t.showAdec h).rd (F.ADEC_HSTAT0_MUTED h) = 0) ∧ s.sameMem t) ∧
  (∀ (s : State) (n : Fin 4) (pcm : List PcmIn), (s.en .aud n = false ∨ s.busUp = false) →
    exec (.audFrameSync n pcm) s = .next s ∧ exec (.audFsyncError n pcm) s = .next s ∧ exec (.audBclkLoss n) s = .next s) ∧
  (∀ (s : State) (n : Fin 4) (pcm : List PcmIn), s.en .aud n = true → s.busUp = true → s.rd (F.AUD_CFG_MASTER n) = 1 →
    ∃ u v : State, v = u.each ((List.range 4).filter fun m => s.audOn m && s.on (F.AUD_CFG_MASTER m)) (fun s m => s.frameSync m pcm true) ∧
      exec (.audFrameSync n pcm) s = .next { v with free := v.free + 128 } ∧
      u.clk.audDiv = 0 ∧ (∀ m, u.port m = s.port m) ∧ s.sameRegsBut [] u ∧ s.sameMem u) ∧
  (∀ (s : State) (n : Fin 4) (pcm : List PcmIn), (s.port n).staged = false → s.rd (F.AUD_CTRL_STOP n) = 0 →
    (s.rd (F.AUD_STAT_RUN n) = 1 → ∃ u : State,
      s.frameSync n pcm true = (u.each (List.range 8) fun s p => s.pairDue n p pcm).sendFrame n pcm ∧
      u.rd (F.AUD_FRAME_COUNT n) = (s.rd (F.AUD_FRAME_COUNT n) + 1) % 2 ^ 32 ∧ s.sameRegsBut [(F.AUD_FRAME_COUNT n).addr] u ∧ s.sameMem u) ∧
    (s.rd (F.AUD_STAT_RUN n) = 0 → s.rd (F.AUD_CTRL_START n) = 1 → ∃ u : State,
      s.frameSync n pcm true = (u.each (List.range 8) fun s p => s.pairDue n p pcm).sendFrame n pcm ∧
      u.rd (F.AUD_STAT_RUN n) = 1 ∧ u.rd (F.AUD_FRAME_COUNT n) = 0 ∧ u.rd (F.AUD_CTRL_START n) = 0 ∧ (u.port n).group = false ∧
      (u.port n).balls = .clocks ∧ s.raises .aud C.AUDIO_START_DONE n u ∧ s.sameMem u)) ∧
  (∀ (s : State) (n : Fin 4) (pcm : List PcmIn), (s.port n).staged = false → s.rd (F.AUD_STAT_RUN n) = 1 →
    s.rd (F.AUD_CTRL_STOP n) = 1 →
    ∃ t : State, s.frameSync n pcm true = t ∧ t.rd (F.AUD_STAT_RUN n) = 0 ∧ t.rd (F.AUD_CTRL_STOP n) = 0 ∧
      t.rd (F.AUD_FRAME_COUNT n) = (s.rd (F.AUD_FRAME_COUNT n) + 1) % 2 ^ 32 ∧ (t.port n).zc = [] ∧ (t.port n).balls = .low ∧ s.sameMem t) ∧
  (∀ (s : State) (n : Fin 4) (pcm : List PcmIn), ∃ t : State, s.sendFrame n pcm = t ∧ s.sameRegsBut [] t ∧ s.sameMem t ∧
    (t.port n).frame.length = s.audSlots n ∧
    (∀ i, i < s.audSlots n → bit (s.rd (F.AUD_SLOT_MASK_ACTIVE n)) i = false →
      (t.port n).frame[i]? = some (if s.rd (F.AUD_CFG_TRISTATE n) = 1 then none else some 0)) ∧
    (∀ i k, (bitsOf (s.audSlots n) (s.rd (F.AUD_SLOT_MASK_ACTIVE n))).idxOf? i = some k → k < 16 →
      (t.port n).frame[i]? = some (some (s.slotWord n (s.slotSample n k pcm))))) ∧
  (∀ (s : State) (n v : Nat), s.rd (F.AUD_CFG_DATA24 n) = 1 → s.rd (F.AUD_CFG_SLOT_W n) = 0 → s.slotWord n v = v * 256) ∧
  (∀ (s : State) (n p h : Nat) (right : Bool) (pcm : List PcmIn),
    ((tget 0 (if right then (s.port n).fromR else (s.port n).fromL) p = 0 ∨ bit (if right then (s.port n).muteR else (s.port n).muteL) p = true) →
      s.slotSample n (2 * p + b2n right) pcm = 0) ∧
    (tget 0 (if right then (s.port n).fromR else (s.port n).fromL) p = h + 1 → bit (if right then (s.port n).muteR else (s.port n).muteL) p = false →
      (∀ v, s.hamSample pcm h right = some v → s.slotSample n (2 * p + b2n right) pcm = v) ∧
      (s.hamSample pcm h right = none → s.rd (F.AUD_CFG_FILL_MODE n) = 0 → s.slotSample n (2 * p + b2n right) pcm = 0))) ∧
  (∀ (s : State) (h id : Nat) (x : PcmIn) (pcm : List PcmIn), (s.ham h).alt = none → (s.ham h).chain = some id →
    pcm.find? (fun y => decide (y.ham.val = h) && decide (y.second = false)) = some x →
    s.hamSample pcm h false = some (s.streamPair h id x).1.toNat ∧ s.hamSample pcm h true = some (s.streamPair h id x).2.toNat) ∧
  (∀ (s : State) (h id : Nat) (x : PcmIn) (c : PChain), s.place.live.find id = some c →
    (isAna c.bearer = true → s.streamPair h id x = (x.ch0, x.ch1)) ∧
    (isAna c.bearer = false → s.en .adec = false → s.streamPair h id x = (0, 0)) ∧
    (isAna c.bearer = false → s.en .adec = true → (s.adecHam h id).channels = 0 → s.streamPair h id x = (x.ch0, x.ch0))) ∧
  (∀ (s : State) (n : Fin 4) (p : Nat) (pcm : List PcmIn), p < 8 → s.rd (F.AUD_ROUTE_VALID n p) = 1 →
    (bit (s.rd (F.AUD_STAT_UNDER n)) p = false → s.hamSample pcm (s.rd (F.AUD_ROUTE_HAMPER n p)) false = none →
      ∃ t : State, s.pairDue n p pcm = t ∧ bit (t.rd (F.AUD_STAT_UNDER n)) p = true ∧
      t.rd (F.AUD_COUNT_UNDERRUNS n) = min (s.rd (F.AUD_COUNT_UNDERRUNS n) + 1) 0xFFFF ∧ s.raises .aud C.AUDIO_UNDERRUN n t ∧
      s.sameRegsBut ((F.AUD_STAT_UNDER n).addr :: (F.AUD_COUNT_UNDERRUNS n).addr :: causeRegs .aud n) t ∧ s.sameMem t) ∧
    (bit (s.rd (F.AUD_STAT_UNDER n)) p = true →
      (s.hamSample pcm (s.rd (F.AUD_ROUTE_HAMPER n p)) false = none → s.pairDue n p pcm = s) ∧
      ((s.hamSample pcm (s.rd (F.AUD_ROUTE_HAMPER n p)) false).isSome = true → ∃ t : State, s.pairDue n p pcm = t ∧
        bit (t.rd (F.AUD_STAT_UNDER n)) p = false ∧ s.raises .aud C.AUDIO_REJOIN n t ∧
        s.sameRegsBut ((F.AUD_STAT_UNDER n).addr :: causeRegs .aud n) t ∧ s.sameMem t))) ∧
  (∀ (s : State) (n : Fin 4) (pcm : List PcmIn), s.en .aud n = true → s.busUp = true → s.rd (F.AUD_CFG_MASTER n) = 0 →
    ((s.port n).correct = 15 → (s.port n).framed = true → ∃ u v : State, v = u.frameSync n pcm true ∧
      exec (.audFrameSync n pcm) s = .next { v with free := v.free + 128 } ∧
      u.rd (F.AUD_STAT_CLK_OK n) = 1 ∧ (u.port n).correct = 16 ∧ s.sameRegsBut [(F.AUD_STAT_CLK_OK n).addr] u ∧ s.sameMem u) ∧
    (∃ u v : State, v = u.frameSync n pcm false ∧ exec (.audFsyncError n pcm) s = .next { v with free := v.free + 128 } ∧
      exec (.audBclkLoss n) s = .next u ∧
      u.rd (F.AUD_STAT_CLK_OK n) = 0 ∧ (u.port n).correct = 0 ∧ s.raises .aud C.AUDIO_CLK_ERR n u ∧
      s.sameRegsBut ((F.AUD_STAT_CLK_OK n).addr :: causeRegs .aud n) u ∧ s.sameMem u) ∧
    (∀ drop : Bool, s.rd (F.AUD_STAT_RUN n) = 1 → ∃ t : State, exec (.audSlip n drop) s = .next t ∧
      t.rd (F.AUD_COUNT_SLIPS n) = min (s.rd (F.AUD_COUNT_SLIPS n) + 1) 0xFFFF ∧ s.raises .aud C.AUDIO_CLK_ERR n t ∧
      (t.port n).level = (if drop then 6 else 2) ∧
      t.rd (F.AUD_FRAME_COUNT n) = (if drop then s.rd (F.AUD_FRAME_COUNT n) else (s.rd (F.AUD_FRAME_COUNT n) + 1) % 2 ^ 32) ∧
      s.sameRegsBut ((F.AUD_FRAME_COUNT n).addr :: (F.AUD_COUNT_SLIPS n).addr :: causeRegs .aud n) t ∧ s.sameMem t)) ∧
  (∀ (s : State) (n : Fin 4) (p : Fin 8), (s.port n).zc = [] → (∀ r, exec (.zcChange n p r) s = .next s) ∧ exec (.zcTimeout n p) s = .next s) ∧
  (∀ (s : State) (n : Fin 4) (p : Fin 8), (s.port n).zc = [{ pair := p, left := true, right := true }] → s.busUp = true →
    (∃ t : State, exec (.zcChange n p true) s = .next t ∧ (t.port n).zc = [{ pair := p, left := true, right := false }] ∧
      bit (t.port n).muteR p = s.pairMuted n p ∧ tget 0 (t.port n).fromR p = tget 0 (s.port n).feeds p ∧ (t.port n).muteL = (s.port n).muteL ∧
      (t.port n).fromL = (s.port n).fromL ∧ s.sameRegsBut [(F.AUD_ROUTE_FADING n p).addr] t ∧ s.sameMem t) ∧
    (∃ t : State, exec (.zcTimeout n p) s = .next t ∧ (t.port n).zc = [] ∧
      bit (t.port n).muteR p = s.pairMuted n p ∧ bit (t.port n).muteL p = s.pairMuted n p ∧
      s.raises .aud C.AUDIO_ZC_TIMEOUT n t ∧ s.sameRegsBut ((F.AUD_ROUTE_FADING n p).addr :: causeRegs .aud n) t ∧ s.sameMem t))

/-- A mask waits for the next frame sync (R389); START and GO let a port that does not run begin, a running one ignores START, STOP wins
(R390, R391); a mute waits for the zero crossing of a running port and is made at once on a port that sends no frames (R394; that a
stopped port makes it at once is the model's choice, assumption 10). -/
def Obligations.AudioPortWrites : Prop :=
  (∀ (s : State) (lvl n : Fin 4) (w : Word), s.accepts lvl (0xC044 + 0x1000 * n.val) w 0xF →
    ∃ t : State, exec (.audMaskWrite lvl n w) s = .next t ∧ t.rd (F.AUD_SLOT_MASK_MASK n) = w.toNat % 2 ^ 16 ∧ (t.port n).staged = true ∧
      t.rd (F.AUD_SLOT_MASK_ACTIVE n) = s.rd (F.AUD_SLOT_MASK_ACTIVE n) ∧ s.sameRegsBut [0xC044 + 0x1000 * n.val] t ∧ s.sameMem t) ∧
  (∀ (s : State) (n : Fin 4), (s.port n).staged = true → ∃ u : State, s.takeMask n = u.raise .aud C.AUDIO_MASK_APPLIED n ∧
    u.rd (F.AUD_SLOT_MASK_ACTIVE n) = s.rd (F.AUD_SLOT_MASK_MASK n) ∧ (u.port n).staged = false) ∧
  (∀ (s : State) (lvl n : Fin 4) (w : Word), s.accepts lvl (0xC04C + 0x1000 * n.val) (putBits w 0 0 1) 0xF → getBits w 2 2 = 0 →
    s.rd (F.AUD_CTRL_STOP n) = 0 →
    ∃ t : State, exec (.audStart lvl n w) s = .next t ∧ t.rd (F.AUD_CTRL_START n) = (if s.rd (F.AUD_STAT_RUN n) = 1 then 0 else 1) ∧
      t.rd (F.AUD_CTRL_ARM n) = getBits w 1 1 ∧ t.rd (F.AUD_CTRL_STOP n) = 0 ∧ s.sameRegsBut [0xC04C + 0x1000 * n.val] t ∧ s.sameMem t) ∧
  (∀ (s : State) (lvl n : Fin 4) (w : Word), s.accepts lvl (0xC04C + 0x1000 * n.val) (putBits w 2 2 1) 0xF →
    ∃ t : State, exec (.audStop lvl n w) s = .next t ∧ t.rd (F.AUD_CTRL_STOP n) = s.rd (F.AUD_STAT_RUN n) ∧
      t.rd (F.AUD_CTRL_START n) = 0 ∧ t.rd (F.AUD_CTRL_ARM n) = getBits w 1 1 ∧ (t.port n).group = false ∧
      s.sameRegsBut [0xC04C + 0x1000 * n.val, 0xC084] t ∧ s.sameMem t) ∧
  (∀ (s : State) (lvl : Fin 4), s.accepts lvl 0xC084 1 0xF →
    ∃ t : State, exec (.audGroupGo lvl) s = .next t ∧
      (∀ n : Fin 4, (t.port n).group = ((s.port n).group || (s.on (F.AUD_CTRL_ARM n) && s.en .aud n && !s.audRun n))) ∧
      t.rd (F.AUD_GROUP_GO 0) = b2n ((List.range 4).any fun n => (t.port n).group) ∧ s.sameRegsBut [0xC084] t ∧ s.sameMem t) ∧
  (∀ (s : State) (lvl n : Fin 4) (w : Word), s.accepts lvl (0xC048 + 0x1000 * n.val) w 0xF →
    ∃ u : State, exec (.audMuteWrite lvl n w) s = .next (u.afterAudMute n (s.rd (F.AUD_MUTE_PAIRS n))) ∧
      u.rd (F.AUD_MUTE_PAIRS n) = w.toNat % 2 ^ 8 ∧ u.port n = s.port n ∧ s.sameRegsBut [0xC048 + 0x1000 * n.val] u ∧ s.sameMem u) ∧
  (∀ (s : State) (n : Fin 4) (p : Nat), p < 8 →
    (s.rd (F.AUD_STAT_RUN n) = 1 → ∃ t : State, s.zcAsk n p = t ∧ { pair := p, left := true, right := true } ∈ (t.port n).zc ∧
      (t.port n).muteL = (s.port n).muteL ∧ (t.port n).muteR = (s.port n).muteR ∧ s.sameRegsBut [(F.AUD_ROUTE_FADING n p).addr] t) ∧
    (s.rd (F.AUD_STAT_RUN n) = 0 → ∃ t : State, s.zcAsk n p = t ∧ (t.port n).zc = (s.port n).zc ∧
      bit (t.port n).muteL p = bit (s.rd (F.AUD_MUTE_PAIRS n)) p ∧ bit (t.port n).muteR p = bit (s.rd (F.AUD_MUTE_PAIRS n)) p ∧
      s.sameRegsBut [(F.AUD_ROUTE_FADING n p).addr] t))

/-- A block that fails its CRC-32C breaks the chain at stage 2 and drops its object (R402, R424); an unfinished object waits in assembly, a
complete one is placed (R401). A verification ends in the result of its steps (R414, R415); an accepted envelope raises the high-water
mark of its slot and the count (R417); a burn ends in the OTP, and that of a
key update completes its envelope (R419, R421). A window filled with a notice is READY (R422). -/
def Obligations.DatacastEvents : Prop :=
  (∀ (s : State) (h : Fin 128) (b : AssyBlock), (s.en .data = false ∨ s.placed h = false ∨ b.src = 0 ∨
    srcFits b.src (s.ham h).req.bearer (s.ham h).req.id1 = false ∨ (b.bad = true ∧ s.rd F.FEC_OUT_CFG_PASS_BAD = 0)) → exec (.assyBlock h b) s = .next s) ∧
  (∀ (s : State) (h : Fin 128) (b : AssyBlock), s.busUp = true → s.en .data = true → s.placed h = true → (s.ham h).aIn ≠ 0 →
    srcFits b.src (s.ham h).req.bearer (s.ham h).req.id1 = true → (b.bad = true → s.rd F.FEC_OUT_CFG_PASS_BAD = 1) →
    (b.intact = false → ∃ t : State, exec (.assyBlock h b) s = .next t ∧
      (∀ a ∈ t.data.assy, ¬(a.hamper = (h : Nat) ∧ a.src = (b.src : Nat) ∧ a.id = b.id.toNat)) ∧
      t.rd F.DATA_COUNT2_ASSY_DROPS = min (s.rd F.DATA_COUNT2_ASSY_DROPS + 1) 0xFFFF ∧
      t.rd F.DATA_CHAIN_COUNT = min (s.rd F.DATA_CHAIN_COUNT + 1) 0xFFFF ∧ t.rd F.DATA_CHAIN_STAGE = 2 ∧ t.rd F.DATA_CHAIN_HAMPER = h ∧
      s.raises .data C.DATA_CHAIN_BREAK 0 t ∧
      s.sameRegsBut (F.DATA_COUNT2_ASSY_DROPS.addr :: F.DATA_CHAIN_COUNT.addr :: causeRegs .data 0) t ∧ s.sameMem t) ∧
    (b.intact = true → (∀ a ∈ s.data.assy, a.hamper ≠ (h : Nat)) → b.offset = 0 → b.announced = none →
      (s.assySize h < b.bytes.length → ∃ t : State, exec (.assyBlock h b) s = .next t ∧ t.data.assy = s.data.assy ∧
        t.rd F.DATA_COUNT2_ASSY_DROPS = min (s.rd F.DATA_COUNT2_ASSY_DROPS + 1) 0xFFFF ∧
        s.sameRegsBut [F.DATA_COUNT2_ASSY_DROPS.addr] t ∧ s.sameMem t) ∧
      (b.bytes.length ≤ s.assySize h → b.complete = false → ∃ t : State, exec (.assyBlock h b) s = .next t ∧
        t.data.assy = s.data.assy ++ [{ hamper := h, src := b.src, id := b.id.toNat, size := none, data := b.bytes.map BitVec.toNat }] ∧
        (∀ a, t.reg a = s.reg a) ∧ s.sameMem t) ∧
      (b.bytes.length ≤ s.assySize h → b.complete = true → b.bcheck = 1 →
        exec (.assyBlock h b) s = .next (s.placeObj
          ⟨h, b.src, 1, b.bytes.map BitVec.toNat, crc32cBytes (b.bytes.map BitVec.toNat)⟩)))) ∧
  (∀ (s : State) (o : Obj), (s.rd F.STORE_STAT_STATE = 1 → s.placeObj o = { s with data := { s.data with waiting := s.data.waiting ++ [o] } }) ∧
    (s.rd F.STORE_STAT_STATE ≠ 1 → o.isCse = true → s.placeObj o = s.queueEnv o)) ∧
  (∀ (s : State) (h : Fin 128) (src : Fin 5) (id : BitVec 32), s.busUp = true → ∃ t : State, exec (.assyTimeout h src id) s = .next t ∧
    (∀ a ∈ t.data.assy, ¬(a.hamper = (h : Nat) ∧ a.src = (src : Nat) ∧ a.id = id.toNat)) ∧
    (∀ a ∈ s.data.assy, a.hamper ≠ (h : Nat) → a ∈ t.data.assy) ∧ s.sameRegsBut [F.DATA_COUNT2_ASSY_DROPS.addr] t ∧ s.sameMem t) ∧
  (∀ (s : State) (k : Bool), s.data.verify = .idle → exec (.envelopeVerifyDone k) s = .next s ∧ exec .envelopeCommit s = .next s) ∧
  (∀ (s : State) (k : Bool) (now : Nat) (o : Obj) (r : List Obj), s.busUp = true → s.data.verify = .running now → s.data.envs = o :: r →
    (s.judge o now k = 0 → o.type ≠ 1 → s.envBasket o = none → ∃ t : State, exec (.envelopeVerifyDone k) s = .next t ∧
      t.data.verify = .commit o.tag ∧ t.data.envs = o :: r ∧ s.sameMem t ∧ (k = true → ∀ a, t.reg a = s.reg a)) ∧
    (s.judge o now true = 0 → o.type = 1 → s.data.burn = none → o.action = 1 → ∃ t : State, exec (.envelopeVerifyDone true) s = .next t ∧
      t.data.verify = .commit o.tag ∧ t.data.burn = some (.key o.target o.nextGen o.newKey) ∧ t.rd F.DATA_ENV_STAT_OTP_BUSY = 1 ∧
      s.sameRegsBut [F.DATA_ENV_STAT_OTP_BUSY.addr] t ∧ s.sameMem t) ∧
    (s.judge o now true = 11 → exec (.envelopeVerifyDone true) s =
      .next (((s.bump F.DATA_COUNT0_REPEATS).queueObj o true o.isNotice 0).endVerify 11)) ∧
    (∀ n, s.judge o now true = n → 1 ≤ n → n ≠ 11 → exec (.envelopeVerifyDone true) s =
      .next (((s.rejectEnv o n).queueObj o false o.isNotice 0).endVerify n))) ∧
  (∀ (s : State) (o : Obj) (now : Nat), (o.wellFormed = false → s.judge o now true = 1) ∧
    (o.wellFormed = true → s.isRepeat o = true → s.judge o now true = 11) ∧
    (o.wellFormed = true → s.isRepeat o = false → (s.slot o.slot).active = none → s.judge o now true = 2) ∧
    (∀ g key, o.wellFormed = true → s.isRepeat o = false → (s.slot o.slot).active = some (g, key) → (s.slot o.slot).revoked = false →
      (s.on F.TIME_STAT_SET = false → s.judge o now true = 5) ∧
      (s.on F.TIME_STAT_SET = true → now + s.rd F.DATA_CFG_TOL_S < o.notBefore → s.judge o now true = 3) ∧
      (s.on F.TIME_STAT_SET = true → o.notBefore ≤ now + s.rd F.DATA_CFG_TOL_S → o.notAfter + s.rd F.DATA_CFG_TOL_S < now →
        s.judge o now true = 4) ∧
      (s.on F.TIME_STAT_SET = true → o.notBefore ≤ now + s.rd F.DATA_CFG_TOL_S → now ≤ o.notAfter + s.rd F.DATA_CFG_TOL_S →
        o.seq ≤ s.highWater o.slot → s.judge o now true = 6))) ∧
  (∀ (s : State) (t : EnvTag) (o : Obj) (r : List Obj), s.busUp = true → s.data.verify = .commit t → s.data.envs = o :: r → o.type ≠ 1 →
    ∃ u : State, exec .envelopeCommit s =
        .next ((u.queueObj o true o.isNotice (if (s.envBasket o).isSome then s.data.nextNum else 0)).endVerify 0) ∧
      u.rd F.DATA_COUNT0_ACCEPTED = (s.rd F.DATA_COUNT0_ACCEPTED + 1) % 2 ^ 16 ∧ tget 0 u.data.hwm t.slot = t.seq ∧
      (o.isNotice = true → s.raises .data C.DATA_NOTICE 0 u) ∧
      (∀ b, s.envBasket o = some b → ∃ x, u.data.store = s.data.store ++ [x] ∧ x.num = s.data.nextNum ∧ x.basket = b ∧ x.obj = o ∧
        x.env = some t) ∧ s.sameMem u) ∧
  (∀ s : State, s.data.burn = none → exec .otpBurnDone s = .next s) ∧
  (∀ (s : State) (k : Nat) (b : Burn), s.busUp = true → k < 8 → s.data.burn = some b → s.data.verify = .idle →
    ∃ u : State, exec .otpBurnDone s = .next u.startVerify ∧ u.data.burn = none ∧
      u.rd F.DATA_ENV_STAT_OTP_BUSY = 0 ∧ s.raises .data C.DATA_KEY_UPDATE 0 u ∧ s.sameMem u ∧
      (b = .lock k → (u.slot k).lock = true ∧ u.rd (F.DATA_SLOT_LOCK k) = 1) ∧ (b = .admin k → (u.slot k).admin = true) ∧
      (b = .revoke k → (u.slot k).revoked = true) ∧ ∀ g key, b = .key k g key → (g, key) ∈ (u.slot k).keys) ∧
  (∀ (s : State) (t : EnvTag) (o : Obj) (r : List Obj) (k g : Nat) (key : List Nat), s.busUp = true → k < 8 → s.data.burn = some (.key k g key) →
    s.data.verify = .commit t → s.data.envs = o :: r → t.type = 1 →
    ∃ u : State, exec .otpBurnDone s = .next ((((u.acceptEnv t).raise .data C.DATA_KEY_UPDATE).queueObj o true false 0).endVerify 0) ∧
      u.data.burn = none ∧ u.rd F.DATA_ENV_STAT_OTP_BUSY = 0 ∧ (g, key) ∈ (u.slot k).keys ∧ s.sameMem u) ∧
  (∀ s : State, s.busUp = true → (s.rd F.DATA_NTC_INFO_VALID = 0 → exec .noticeWindowFilled s = .next s) ∧
    (s.rd F.DATA_NTC_INFO_VALID = 1 → ∃ t : State, exec .noticeWindowFilled s = .next t ∧ t.rd F.DATA_NTC_STAT_READY = 1 ∧
      s.sameRegsBut [F.DATA_NTC_STAT_READY.addr] t ∧ s.sameMem t))

/-- KEY_PROG starts the burn it names (R419); NTC_ACK acknowledges the notice with that number and goes on to the next (R423); a new window
offset empties the window (R422). -/
def Obligations.DatacastWrites : Prop :=
  (∀ (s : State) (lvl : Fin 4) (w : Word), s.accepts lvl 0x53100 (putBits w 1 0 1) 0xF →
    ∃ t : State, exec (.keyBurnKey lvl w) s = .next t ∧
      t.data.burn = some (.key (getBits w 10 8) 0 ((List.range 16).flatMap fun i => wordBytes (s.rd (F.DATA_KEY_BUF_BYTES i)))) ∧
      t.rd F.DATA_ENV_STAT_OTP_BUSY = 1 ∧ t.data.otp = s.data.otp ∧ s.sameRegsBut [F.DATA_ENV_STAT_OTP_BUSY.addr] t ∧ s.sameMem t) ∧
  (∀ (s : State) (lvl : Fin 4) (w : Word), s.accepts lvl 0x53100 (putBits w 1 0 2) 0xF →
    ∃ t : State, exec (.keyBurnLock lvl w) s = .next t ∧ t.data.burn = some (.lock (getBits w 10 8)) ∧
      t.rd F.DATA_ENV_STAT_OTP_BUSY = 1 ∧ t.data.otp = s.data.otp ∧ s.sameRegsBut [F.DATA_ENV_STAT_OTP_BUSY.addr] t ∧ s.sameMem t) ∧
  (∀ (s : State) (lvl : Fin 4) (w : Word), s.accepts lvl 0x53100 (putBits w 1 0 3) 0xF →
    ∃ t : State, exec (.keyBurnAdmin lvl w) s = .next t ∧ t.data.burn = some (.admin (getBits w 10 8)) ∧
      t.rd F.DATA_ENV_STAT_OTP_BUSY = 1 ∧ t.data.otp = s.data.otp ∧ s.sameRegsBut [F.DATA_ENV_STAT_OTP_BUSY.addr] t ∧ s.sameMem t) ∧
  (∀ (s : State) (lvl : Nat) (w : Word), lvl ≠ 0 → getBits w 31 16 = 0x4F54 → getBits w 1 0 ≠ 0 → s.keyProgReason lvl w = some 4) ∧
  (∀ (s : State) (lvl : Fin 4) (w : Word), s.accepts lvl 0x5308C w 0xF →
    ∃ u : State, exec (.noticeAck lvl w) s = .next (if u.notices.isEmpty then u else u.raise .data C.DATA_NOTICE) ∧
      (∀ x ∈ u.data.store, x.num = w.toNat → x.acked = true) ∧ u.rd F.DATA_NTC_STAT_PENDING = u.notices.length % 2 ^ 16 ∧ s.sameMem u) ∧
  (∀ (s : State) (lvl : Fin 4) (w : Word), s.accepts lvl 0x53088 w 0xF →
    ∃ t : State, exec (.noticeOfsWrite lvl w) s = .next t ∧ t.rd F.DATA_NTC_OFS = w.toNat % 2 ^ 16 ∧
      (s.rd F.DATA_NTC_OFS ≠ w.toNat % 2 ^ 16 → t.rd F.DATA_NTC_STAT_READY = 0) ∧
      (s.rd F.DATA_NTC_OFS = w.toNat % 2 ^ 16 → t.rd F.DATA_NTC_STAT_READY = s.rd F.DATA_NTC_STAT_READY) ∧
      s.sameRegsBut [0x53088, F.DATA_NTC_STAT_READY.addr] t ∧ s.sameMem t)

/-- The mount ends in its state (R404); an object is committed with the next number (R405, R410); a command ends with its code and its
result (R410); a final eMMC failure counts and ends what the command was for, and the eighth in a row fails the store (R403). What the
final failure of an object's write drops is the model's reading (assumption 19). -/
def Obligations.StoreEvents : Prop :=
  (∀ (s : State) (r : MountResult), (s.rd F.STORE_STAT_STATE ≠ 1 ∨ s.en .store = false) → exec (.storeMountDone r) s = .next s) ∧
  (∀ (s : State), s.busUp = true → s.rd F.STORE_STAT_STATE = 1 → s.en .store = true →
    (∀ mib : Fin 16369, s.data.store = [] → s.data.waiting = [] → s.data.torn = false → ∃ t : State,
      exec (.storeMountDone (.mounted mib)) s = .next t ∧ t.rd F.STORE_STAT_STATE = 2 ∧ t.rd F.STORE_CAP_TOTAL_MIB = mib ∧
      t.rd F.STORE_CAP_FREE_MIB = mib ∧ t.data.fails = 0 ∧ t.data.capMib = mib ∧ s.sameMem t) ∧
    (s.data.waiting = [] → ∀ r c, (r = .noDevice ∧ c = 0 ∨ (∃ mib, r = .noJournal mib) ∧ c = 3 ∨ r = .failed ∧ c = 4 ∨ r = .otherKey ∧ c = 5) →
      ∃ t : State, exec (.storeMountDone r) s = .next t ∧ t.rd F.STORE_STAT_STATE = c ∧ s.raises .store C.DATA_STORE 0 t ∧
        (s.on F.STORE_EVENT_VALID = false → t.rd F.STORE_EVENT_CODE = 6) ∧ s.sameMem t)) ∧
  (∀ s : State, s.data.writes = [] → exec .objectCommit s = .next s) ∧
  (∀ (s : State) (b : Nat) (o : Obj) (r : List (Nat × Obj)), s.busUp = true → b < 16 → s.data.writes = (b, o) :: r → s.rd F.STORE_STAT_STATE = 2 →
    s.mgmtDenied storeAccess = none → ∃ t : State, exec .objectCommit s = .next t ∧ t.data.writes = r ∧ t.data.nextNum = s.data.nextNum + 1 ∧ t.data.fails = 0 ∧
      (∃ x, t.data.store = s.data.store ++ [x] ∧ x.num = s.data.nextNum ∧ x.basket = b ∧ x.obj = o ∧ x.env = none ∧ x.time = s.nowSec) ∧
      s.sameMem t) ∧
  (∀ (s : State) (b : Nat) (o : Obj) (r : List (Nat × Obj)), s.busUp = true → s.data.writes = (b, o) :: r → s.rd F.STORE_STAT_STATE = 2 →
    (s.mgmtDenied storeAccess).isSome = true →
    ∃ u : State, exec .objectCommit s = .next (u.mgmtTask storeAccess id) ∧ u.data.writes = r ∧ u.data.store = s.data.store ∧
      (∀ a, u.reg a = s.reg a) ∧ s.sameMem u) ∧
  (∀ (s : State) (k : Bool), s.data.cmd = none → exec (.storeCmdDone k) s = .next s) ∧
  (∀ (s : State) (k : Bool) (c : StoreCmd), s.busUp = true → s.data.cmd = some c → s.en .store = true →
    (c.op = 1 → s.data.store.find? (fun x => decide (x.num = c.arg)) = none → exec (.storeCmdDone k) s = .next (s.endStoreCmd 2)) ∧
    (∀ x, c.op = 1 → s.data.store.find? (fun x => decide (x.num = c.arg)) = some x → ∃ u : State,
      exec (.storeCmdDone true) s = .next (u.endStoreCmd 1) ∧ u.data.window = (x.obj.data.drop c.ofs).take 2048 ∧
      u.rd F.STORE_OBJ_META0_NUMBER = x.num % 2 ^ 32 ∧ u.rd F.STORE_OBJ_META2_LENGTH = x.obj.data.length % 2 ^ 32 ∧
      u.rd F.STORE_OBJ_META3_CRC = x.obj.crc % 2 ^ 32 ∧ u.rd F.STORE_OBJ_META1_CORRUPT = b2n x.corrupt ∧
      s.sameRegsBut [0xB058, 0xB05C, 0xB060, 0xB064, 0xB068] u ∧ s.sameMem u) ∧
    (∀ x, c.op = 2 → s.data.store.find? (fun x => decide (x.basket = c.basket) && decide (c.arg ≤ x.num)) = some x →
      exec (.storeCmdDone k) s = .next ((s.showMeta x).endStoreCmd 1)) ∧
    (∀ x, c.op = 3 → s.data.store.find? (fun x => decide (x.num = c.arg)) = some x → s.writingBlocks x.basket = 0 →
      ∃ u : State, exec (.storeCmdDone k) s = .next (u.endStoreCmd 1) ∧
        u.data.store = s.data.store.filter fun y => !(decide (y.basket = x.basket) && decide (y.num = x.num))) ∧
    (c.op = 4 → c.arg = 1 → s.mgmtDenied storeAccess = none → s.writingBlocks c.basket = 0 → ∃ u : State, exec (.storeCmdDone k) s = .next (u.endStoreCmd 1) ∧
      (∀ x ∈ s.data.store, x.basket = c.basket → x.pending = false → x ∉ u.data.store) ∧
      (∀ x ∈ s.data.store, x.basket ≠ c.basket → x ∈ u.data.store)) ∧
    (c.op = 5 → s.data.writes = [] → ∃ u : State, exec (.storeCmdDone k) s = .next (u.endStoreCmd 1) ∧ u.data.store = [] ∧
      u.data.nextNum = 1 ∧ u.data.baskets = [] ∧ u.rd F.STORE_STAT_STATE = 2 ∧ u.data.hwm = s.data.hwm ∧
      ∀ b, b < 16 → u.rd (F.STORE_BASKET_CFG_EN b) = 0)) ∧
  (∀ (s : State) (c : Nat), c < 8 → ∃ t : State, s.endStoreCmd c = t ∧ t.data.cmd = none ∧ t.rd F.STORE_STAT_BUSY = 0 ∧
    t.rd F.STORE_RESULT_DONE = 1 ∧ t.rd F.STORE_RESULT_CODE = c ∧ s.sameRegsBut [0xB040, 0xB054] t ∧ s.sameMem t) ∧
  (∀ (s : State) (use : EmmcUse), exec (.emmcCommandFail false use) s = .next s) ∧
  (∀ s : State, s.busUp = true → s.data.fails < 7 →
    (∃ t : State, exec (.emmcCommandFail true .other) s = .next t ∧ t.data.fails = s.data.fails + 1 ∧
      t.rd F.STORE_COUNT_EMMC_ERR = min (s.rd F.STORE_COUNT_EMMC_ERR + 1) 0xFFFF ∧ s.raises .store C.DATA_STORE 0 t ∧
      (s.on F.STORE_EVENT_VALID = false → t.rd F.STORE_EVENT_CODE = 4) ∧
      s.sameRegsBut (F.STORE_EVENT_VALID.addr :: F.STORE_COUNT_EMMC_ERR.addr :: causeRegs .store 0) t ∧ s.sameMem t) ∧
    (∃ t : State, exec (.emmcCommandFail true .objectWrite) s = .next t ∧ t.data.writes = s.data.writes.drop 1 ∧
      t.data.fails = s.data.fails + 1 ∧ t.rd F.STORE_COUNT_EMMC_ERR = min (s.rd F.STORE_COUNT_EMMC_ERR + 1) 0xFFFF ∧ s.sameMem t)) ∧
  (∀ s : State, s.busUp = true → 7 ≤ s.data.fails → s.rd F.STORE_STAT_STATE ≠ 4 → s.data.cmd = none → ∃ u : State,
    exec (.emmcCommandFail true .other) s = .next (u.unmounted 4) ∧ u.data.writes = [] ∧ u.data.fails = s.data.fails + 1 ∧ s.sameMem u)

/-- Each command that is accepted starts with the arguments of its registers and sets BUSY (R410); what is refused (R410, R430); a Basket's
configuration is stored and judged (R407, R409). -/
def Obligations.StoreWrites : Prop :=
  (∀ (s : State) (lvl : Fin 4) (w : Word) (op : Nat) (c : Instr),
    (op = 1 ∧ c = .storeRead lvl w ∨ op = 2 ∧ c = .storeNext lvl w ∨ op = 3 ∧ c = .storeDelete lvl w ∨ op = 4 ∧ c = .storeTrim lvl w ∨
      op = 5 ∧ c = .storeFormat lvl w) → s.accepts lvl 0xB048 (putBits w 31 28 op) 0xF →
    ∃ t : State, exec c s = .next t ∧
      t.data.cmd = some { op := op, basket := getBits w 27 24, arg := s.rd F.STORE_ARG, ofs := s.rd F.STORE_ARG_OFS, code := 1 } ∧
      t.rd F.STORE_STAT_BUSY = 1 ∧ t.data.store = s.data.store ∧ s.sameRegsBut [F.STORE_STAT_BUSY.addr] t ∧ s.sameMem t) ∧
  (∀ (s : State) (w : Word), getBits w 31 28 = 1 →
    (s.on F.STORE_STAT_BUSY = true → s.storeCmdReason w = some 4) ∧ (s.rd F.STORE_STAT_STATE ≠ 2 → s.storeCmdReason w = some 4) ∧
    (s.on F.STORE_STAT_BUSY = false → s.rd F.STORE_STAT_STATE = 2 → s.storeCmdReason w = none)) ∧
  (∀ (s : State) (w : Word) (op : Nat), op = getBits w 31 28 →
    ((op = 0 ∨ 6 ≤ op) → s.storeCmdReason w = some 3) ∧ (op = 5 → getBits w 23 16 ≠ 0xA5 → s.storeCmdReason w = some 3) ∧
    (1 ≤ op → op ≤ 5 → op ≠ 3 → (op = 5 → getBits w 23 16 = 0xA5) →
      (s.storeCmdReason w = none ↔ s.on F.STORE_STAT_BUSY = false ∧ (s.rd F.STORE_STAT_STATE = 2 ∨ op = 5 ∧ s.rd F.STORE_STAT_STATE = 3)) ∧
      (s.storeCmdReason w = none ∨ s.storeCmdReason w = some 4))) ∧
  (∀ (s : State) (lvl : Fin 4) (b : Fin 16) (w : Word), s.accepts lvl (0xB080 + 8 * b.val) w 0xF →
    ∃ u : State, exec (.basketCfgWrite lvl b w) s = .next (if u.writingBlocks b = 0 then u.overBasket b else u.showBasket b) ∧
      u.rd (F.STORE_BASKET_CFG_EN b) = getBits w 31 31 ∧ u.rd (F.STORE_BASKET_CFG_SIGNED_ONLY b) = getBits w 30 30 ∧
      u.rd (F.STORE_BASKET_CFG_WRAP b) = getBits w 29 29 ∧ u.rd (F.STORE_BASKET_CFG_QUOTA_MIB b) = w.toNat % 2 ^ 16 ∧
      tget 0 u.data.baskets b = u.reg (0xB080 + 8 * b.val) ∧ s.sameRegsBut [0xB080 + 8 * b.val] u ∧ s.sameMem u) ∧
  (∀ (s : State) (b : Nat), b < 16 → s.quotaBlocks b < s.usedBlocks b → s.on (F.STORE_BASKET_USAGE_OVER b) = false →
    ∃ t : State, s.overBasket b = t ∧ t.rd (F.STORE_BASKET_USAGE_OVER b) = 1 ∧ s.raises .store C.DATA_STORE 0 t ∧
      (s.on F.STORE_EVENT_VALID = false → t.rd F.STORE_EVENT_CODE = 1 ∧ t.rd F.STORE_EVENT_BASKET = b) ∧ t.data.store = s.data.store)

/-- An edge in agreement counts towards qualification, one outside the window of its predecessor is counted bad (R435), a MODE 2 load takes
effect on the next edge (R438). A loss disqualifies the source (R435, R445). The end of a slew, an armed step, the UTC change, the Thermos
table and the alarm (R432, R441, R444, R445, R453). The rounding of R441 is the model's choice (assumption 7). -/
def Obligations.TimeSources : Prop :=
  (∀ (s : State) (r : Bool) (w : Fin 16), (s.busUp = false ∨ s.en .time = false ∨ s.on F.TIME_CFG_PPS_EN = false ∨ s.usesCascade = true ∨ r = s.on F.TIME_CFG_PPS_POL) →
    exec (.ppsEdge r w) s = .next s) ∧
  (∀ s : State, s.ppsLatency 0 = s.rd F.SYS_PIN_FILT0_PPS_FLT * (15625 * 10 ^ 9)) ∧
  (∀ (s : State) (r : Bool) (w : Fin 16) (t : Nat), s.busUp = true → s.en .time = true → s.on F.TIME_CFG_PPS_EN = true → s.usesCascade = false →
    r ≠ s.on F.TIME_CFG_PPS_POL → t = s.time.now - s.ppsLatency w →
    (∀ p : Nat, s.time.prev = some p → p + secUnit + 100000 * nsUnit < t → ∃ v : State, exec (.ppsEdge r w) s = .next v ∧
      v.rd F.TIME_COUNT_PPS_BAD = min (s.rd F.TIME_COUNT_PPS_BAD + 1) 0xFFFF ∧ v.time = s.time ∧
      s.sameRegsBut [F.TIME_COUNT_PPS_BAD.addr] v ∧ s.sameMem v) ∧
    (s.time.prev = none → s.time.set2 = none → exec (.ppsEdge r w) s = .next (s.sourceEdge false t (phaseError t))) ∧
    (∀ (sec unc : Nat), s.time.prev = none → s.time.set2 = some (sec, unc) → ∃ u : State, u.time = { s.time with set2 := none } ∧
      (∀ a, u.reg a = s.reg a) ∧ exec (.ppsEdge r w) s =
        .next ((u.loadUnits (sec * secUnit + s.ppsLatency w) 3 (unc * 1000) false).sourceEdge false (sec * secUnit) 0))) ∧
  (∀ t : Nat, (2 * (t % secUnit) < secUnit → phaseError t = -((t % secUnit / nsUnit : Nat) : Int)) ∧
    (secUnit ≤ 2 * (t % secUnit) → phaseError t = (((secUnit - t % secUnit) / nsUnit : Nat) : Int))) ∧
  (∀ (s : State) (c : Bool) (t : Nat) (e : Int) (k : Nat),
    k = (if s.time.prev.isSome && decide ((e - s.time.prevE).natAbs ≤ 1000) then s.time.run + 1 else 1) → s.time.qual = false →
    k < s.rd F.TIME_CFG_QUAL_EDGES → ∃ u : State, s.sourceEdge c t e = u.timeEval.steer ∧ u.time.prev = some t ∧ u.time.prevE = e ∧
      u.time.run = k ∧ u.time.casc = c ∧ u.rd F.TIME_PHASE_E_NS = toField 32 e ∧ s.sameRegsBut [F.TIME_PHASE_E_NS.addr] u ∧ s.sameMem u) ∧
  (∀ s : State, s.busUp = true → s.en .time = true → s.usesCascade = false → (s.time.prev.isSome = true ∨ s.time.qual = true) → ∃ u : State,
    exec .ppsLoss s = .next u.timeEval.thermosFreq ∧ u.time.prev = none ∧ u.time.run = 0 ∧ u.time.qual = false ∧ u.time.armed = false ∧
    u.rd F.TIME_STAT_STEP_PEND = 0 ∧ s.raises .time C.TIME_REF_LOST 0 u ∧
    s.sameRegsBut (F.TIME_STAT_STEP_PEND.addr :: causeRegs .time 0) u ∧ s.sameMem u) ∧
  (∀ (s : State) (sec : BitVec 48) (unc : Word) (d : Nat), s.busUp = true → s.en .time = true → s.on F.TIME_CFG_CASC_EN = true → s.usesCascade = true →
    ∃ u : State, u.time = { s.time with uncM := unc.toNat } ∧ (∀ a, u.reg a = s.reg a) ∧ exec (.cascadeMarker sec unc d) s =
      .next (u.sourceEdge true (s.time.now - d * nsUnit)
        ((((sec.toNat * secUnit : Nat) : Int) - ((s.time.now - d * nsUnit : Nat) : Int)) / nsUnit))) ∧
  (∀ s : State, s.busUp = true → s.en .time = true → s.rd F.SYS_STRAP_CASC_ROLE ≠ 0 → s.usesCascade = true → (s.time.prev.isSome = true ∨ s.time.qual = true) →
    ∃ u : State, exec .markerLoss s = .next u.timeEval.thermosFreq ∧ u.time.prev = none ∧ u.time.qual = false ∧ s.raises .time C.TIME_REF_LOST 0 u ∧
      s.sameMem u) ∧
  (∀ s : State, (s.rd F.TIME_STAT_SLEWING = 0 → exec .slewEnd s = .next s) ∧
    (s.busUp = true → s.rd F.TIME_STAT_SLEWING = 1 → ∃ t : State, exec .slewEnd s = .next t ∧ t.rd F.TIME_STAT_SLEWING = 0 ∧ t.time.slew = 0 ∧
      t.time.now = (((s.time.now : Int) + s.time.slew) % (timeMod : Int)).toNat ∧ s.sameRegsBut [F.TIME_STAT_SLEWING.addr] t ∧ s.sameMem t)) ∧
  (∀ s : State, (s.time.set2 = none → exec .timeSetDiscard s = .next s) ∧
    (s.busUp = true → s.time.set2.isSome = true → ∃ t : State, exec .timeSetDiscard s = .next t ∧ t.time.set2 = none ∧
      t.rd (F.PAGE_REJECTS .time 0) = min (s.rd (F.PAGE_REJECTS .time 0) + 1) 0xFFFF ∧
      s.sameRegsBut [(F.PAGE_REJECTS .time 0).addr] t ∧ s.sameMem t)) ∧
  (∀ s : State, (s.rd F.TIME_UTC_NEXT_EN = 0 → exec .utcChange s = .next s) ∧
    (s.busUp = true → s.rd F.TIME_UTC_NEXT_EN = 1 → s.rd F.TIME_UTC_AT_LO_SEC + s.rd F.TIME_UTC_AT_HI_SEC * 2 ^ 32 ≤ s.nowSec → ∃ t : State,
      exec .utcChange s = .next t ∧ t.rd F.TIME_UTC_OFS = s.rd F.TIME_UTC_NEXT_OFS ∧ t.rd F.TIME_UTC_NEXT_EN = 0 ∧
      s.raises .time C.TIME_UTC_CHANGE 0 t ∧ s.sameRegsBut (F.TIME_UTC_OFS.addr :: causeRegs .time 0) t ∧ s.sameMem t)) ∧
  (∀ (s : State) (avg : BitVec 24), (s.rd F.TIME_STAT_STATE ≠ 3 → exec (.thermosLearn avg) s = .next s) ∧
    (∀ k : Nat, s.busUp = true → s.rd F.TIME_STAT_STATE = 3 → 24 + 10 * k ≤ s.rd F.PWR_TEMP_SYS_CENTRE → s.rd F.PWR_TEMP_SYS_CENTRE < 34 + 10 * k → k < 16 →
      ∃ t : State, exec (.thermosLearn avg) s = .next t ∧ t.rd (F.TIME_THERMOS_LEARNED k) = 1 ∧
        t.rd (F.TIME_THERMOS_PPB k) = toField 16 (max (-32768) (min 32767 (ofField 16 (s.rd (F.TIME_THERMOS_PPB k)) +
          (ofField 24 avg.toNat - ofField 16 (s.rd (F.TIME_THERMOS_PPB k))) / 8))) ∧
        s.sameRegsBut [(F.TIME_THERMOS_PPB k).addr] t ∧ s.sameMem t)) ∧
  (∀ s : State, (s.time.armed = false → exec .timeStepApply s = .next s) ∧
    (s.busUp = true → s.time.armed = true → exec .timeStepApply s = .next (s.cancelStep.stepTime (s.time.prevE * nsUnit)).timeEval)) ∧
  (∀ (s : State) (d : Int), ∃ u : State, s.stepTime d = u.alarmEval ∧ u.time.now = (((s.time.now : Int) + d) % (timeMod : Int)).toNat ∧
    u.rd F.TIME_COUNT_STEPS = (s.rd F.TIME_COUNT_STEPS + 1) % 2 ^ 16 ∧ s.raises .time C.TIME_STEP 0 u ∧ s.sameMem u) ∧
  (∀ s : State, (s.rd F.TIME_ALARM_HI_EN = 0 → exec .timeAlarm s = .next s) ∧
    (s.busUp = true → s.rd F.TIME_ALARM_HI_EN = 1 → s.rd F.TIME_ALARM_LO_SEC + s.rd F.TIME_ALARM_HI_SEC * 2 ^ 32 ≤ s.nowSec → ∃ t : State,
      exec .timeAlarm s = .next t ∧ t.rd F.TIME_ALARM_HI_EN = 0 ∧ s.raises .time C.TIME_ALARM 0 t ∧
      s.sameRegsBut (F.TIME_ALARM_HI_EN.addr :: causeRegs .time 0) t ∧ s.sameMem t))

/-- Reading NOW_NS latches the seconds for the initiator's level (R433); MODE 1 loads at once, MODE 2 waits for the next edge (R438). RUN
starts the chosen bank, RUN 0 stops with every gate open, SWITCH waits for the cycle boundary (R449); a window start puts its entry into
force unless a backward step holds the old one (R446, R448); an armed step applies first at a cycle boundary (R445). A change of the radio
state that the management controller may not request is abandoned (R119; assumption 87). -/
def Obligations.TimeCommands : Prop :=
  (∀ (s : State) (lvl : Fin 4), s.answers = false → exec (.timeNowRead lvl) s = .next s) ∧
  (∀ (s : State) (lvl : Fin 4), s.answers = true → s.reserved lvl 0x4040 = false →
    (s.mayAccess lvl (artIndex 0x4040) false = true → s.rstBusy .time 0 = false →
      ∃ t : State, exec (.timeNowRead lvl) s = .next t ∧ tget 0 t.time.latch lvl = s.time.now / secUnit ∧ t.time.now = s.time.now ∧
        (∀ a, t.reg a = s.reg a) ∧ s.sameMem t) ∧
    (s.mayAccess lvl (artIndex 0x4040) false = false → exec (.timeNowRead lvl) s = .next (s.refuse lvl 0x4040 false 0))) ∧
  (∀ (s : State) (lvl : Fin 4) (unc : BitVec 16), s.accepts lvl 0x406C (BitVec.ofNat 32 (unc.toNat * 0x100 + 1)) 0xF →
    ∃ u : State, u.time = s.time ∧ s.sameRegsBut [0x406C] u ∧ s.sameMem u ∧ exec (.timeSetNow lvl unc) s = .next (u.loadTime
      (s.rd F.TIME_SET_SEC_LO_SEC_LO + s.rd F.TIME_SET_SEC_HI_SEC_HI * 2 ^ 32) (s.rd F.TIME_SET_NS_NS) 3 (unc.toNat * 1000) false)) ∧
  (∀ (s : State) (sec ns src unc : Nat) (c : Bool), ∃ v : State, s.loadTime sec ns src unc c = v.timeEval ∧
    v.time.now = (sec * secUnit + ns * nsUnit) % timeMod ∧ v.time.slew = 0 ∧ v.time.base = src ∧ v.rd F.TIME_STAT_SET = 1 ∧
    v.rd F.TIME_STAT_COARSE = b2n c ∧ v.rd F.TIME_UNCERT_US = unc % 2 ^ 32 ∧ v.rd F.TIME_STAT_SLEWING = 0 ∧
    v.rd F.TIME_COUNT_STEPS = (s.rd F.TIME_COUNT_STEPS + 1) % 2 ^ 16 ∧ s.raises .time C.TIME_STEP 0 v ∧ s.sameMem v) ∧
  (∀ (s : State) (lvl : Fin 4) (unc : BitVec 16), s.accepts lvl 0x406C (BitVec.ofNat 32 (unc.toNat * 0x100 + 2)) 0xF →
    ∃ t : State, exec (.timeSetAtPps lvl unc) s = .next t ∧
      t.time.set2 = some (s.rd F.TIME_SET_SEC_LO_SEC_LO + s.rd F.TIME_SET_SEC_HI_SEC_HI * 2 ^ 32, unc.toNat) ∧ t.time.now = s.time.now ∧
      s.sameRegsBut [0x406C] t ∧ s.sameMem t) ∧
  (∀ (s : State) (lvl : Fin 4) (bank : Fin 2), s.accepts lvl 0x4090 (BitVec.ofNat 32 (2 ^ 31 + bank.val * 0x100)) 0xF →
    s.rd F.TIME_STAT_ITIN_RUN = 0 →
    ∃ u : State, exec (.itinRun lvl bank) s = .next u.itinShow ∧ u.rd F.TIME_STAT_ITIN_RUN = 1 ∧ u.rd F.TIME_STAT_ITIN_BANK = bank ∧
      u.rd F.TIME_STAT_SWITCH_PEND = 0 ∧ u.rd F.TIME_ITIN_CTRL_RUN = 1 ∧ u.time.hold = none ∧ u.time.now = s.time.now ∧
      s.sameRegsBut [0x4090, 0x404C] u ∧ s.sameMem u) ∧
  (∀ (s : State) (lvl : Fin 4), s.accepts lvl 0x4090 (BitVec.ofNat 32 (s.rd F.TIME_ITIN_CTRL_START_BANK * 0x100)) 0xF →
    (s.rd F.TIME_STAT_ITIN_RUN = 0 → ∃ t : State, exec (.itinStop lvl) s = .next t ∧ t.rd F.TIME_ITIN_CTRL_RUN = 0 ∧
      s.sameRegsBut [0x4090] t ∧ s.sameMem t) ∧
    (s.rd F.TIME_STAT_ITIN_RUN = 1 → ∃ u : State,
      exec (.itinStop lvl) s = .next (((u.setGates 0xFFFF).retarget).wr F.TIME_ITIN_CTRL_SWITCH 0) ∧ u.rd F.TIME_STAT_ITIN_RUN = 0 ∧
      u.rd F.TIME_ITIN_CTRL_RUN = 0 ∧ u.rd F.TIME_STAT_SWITCH_PEND = 0 ∧ u.rd F.TIME_STAT_ITIN_WAIT = 0 ∧ u.rd F.TIME_STAT_ENTRY = 0 ∧
      u.rd F.PWR_STATE_STAT_ITIN_REQ = 0 ∧ s.sameMem u)) ∧
  (∀ (s : State) (lvl : Fin 4), s.accepts lvl 0x4090 (BitVec.ofNat 32 (2 ^ 31 + s.rd F.TIME_ITIN_CTRL_START_BANK * 0x100 + 1)) 0xF →
    s.rd F.TIME_STAT_ITIN_RUN = 1 →
    ∃ t : State, exec (.itinSwitch lvl) s = .next t ∧ t.rd F.TIME_STAT_SWITCH_PEND = 1 ∧ t.rd F.TIME_ITIN_CTRL_SWITCH = 1 ∧
      t.rd F.TIME_STAT_ITIN_BANK = s.rd F.TIME_STAT_ITIN_BANK ∧ t.rd F.TIME_ITIN_CTRL_START_BANK = s.rd F.TIME_ITIN_CTRL_START_BANK ∧
      s.sameRegsBut [0x4090, 0x404C] t ∧ s.sameMem t) ∧
  (∀ s : State, s.rd F.TIME_STAT_ITIN_RUN = 0 → exec .itinWindowStart s = .next s) ∧
  (∀ (s : State) (h : Nat), s.time.armed = false → s.time.hold = some h → s.time.now < h → exec .itinWindowStart s = .next s) ∧
  (∀ s : State, s.busUp = true → s.rd F.TIME_STAT_ITIN_RUN = 1 → s.time.cycle < s.cycleAt s.itinBank s.time.now →
    exec .itinWindowStart s = .next s.applyStep.itinEval) ∧
  (∀ s : State, s.busUp = true → s.time.armed = false → s.rd F.TIME_STAT_ITIN_RUN = 1 → s.time.hold = none →
    (s.rd F.TIME_STAT_SWITCH_PEND = 0 → ∃ u : State, exec .itinWindowStart s = .next u.itinShow ∧
      u.time.cycle = s.cycleAt s.itinBank s.time.now ∧ (∀ a, u.reg a = s.reg a) ∧ s.sameMem u) ∧
    (s.rd F.TIME_STAT_SWITCH_PEND = 1 → s.time.cycle < s.cycleAt s.itinBank s.time.now → ∃ u : State,
      exec .itinWindowStart s = .next u.itinShow ∧ u.rd F.TIME_STAT_ITIN_BANK = 1 - s.rd F.TIME_STAT_ITIN_BANK ∧
      u.rd F.TIME_STAT_SWITCH_PEND = 0 ∧ u.rd F.TIME_ITIN_CTRL_SWITCH = 0 ∧ s.sameRegsBut [0x4090, 0x404C] u ∧ s.sameMem u)) ∧
  (∀ (s : State) (e : Nat), s.entryAt s.itinBank s.time.now = some e → e < 64 →
    s.memT.badItin.contains (64 * s.itinBank + e) = false →
    (s.mgmtDenied stateTask = none → ∃ u : State, s.itinShow = (u.setGates (s.itinGates s.itinBank e)).retarget ∧ u.rd F.TIME_STAT_ENTRY = e ∧ u.rd F.TIME_STAT_ITIN_WAIT = 0 ∧
      u.rd F.PWR_STATE_STAT_ITIN_REQ = s.itinPower s.itinBank e ∧ s.sameRegsBut [0x404C, F.PWR_STATE_STAT_ITIN_REQ.addr] u) ∧
    ((s.mgmtDenied stateTask).isSome = true → s.rd F.PWR_STATE_STAT_ITIN_REQ ≠ s.itinPower s.itinBank e →
      ∃ u : State, s.itinShow = ((u.mgmtTask stateTask id).setGates (s.itinGates s.itinBank e)).retarget ∧ u.rd F.TIME_STAT_ENTRY = e ∧
        s.sameRegsBut [0x404C] u))

/-- The oldest item of a queue becomes a packet with the next SEQ and its CRC-32C, or is refused or policed and the next one carries GAP
(R457 to R461). A tick adds credit up to the cap (R461). A TRIM deletes from the head until the rest fits (R463), its end counts them; the
latency marks clear (R476). -/
def Obligations.QueueAdmission : Prop :=
  (∀ (s : State) (n : Fin 128) (k : Bool), (s.sched.items.find? fun i => decide (i.hamper = (n : Nat))) = none →
    exec (.packetAdmit n k) s = .next s) ∧
  (∀ (s : State) (n : Fin 128) (k : Bool) (i : Item) (p : Packet), s.busUp = true → (s.sched.items.find? fun i => decide (i.hamper = (n : Nat))) = some i →
    (s.queue n).live = true → i.payload.length ≤ 65535 → s.on (F.SCHED_QCFG_GATE_ADMIT n) = false →
    s.on (F.SCHED_QSTAT0_OVER n) = false → p = s.packetOf n i →
    ((s.queue n).used + 4 * p.size ≤ s.quota n → i.ok = true → (s.qRate n = 0 ∨ 32 * p.size ≤ (s.queue n).credit) →
      ∃ u : State, exec (.packetAdmit n k) s = .next (u.publishQueue n) ∧ u.sched.items = s.sched.items.erase i ∧
        (u.queue n).pkts = (s.queue n).pkts ++ [{ p with bad := k }] ∧ (u.queue n).seq = ((s.queue n).seq + 1) % 0x10000 ∧ (u.queue n).gapDue = false ∧
        (u.queue n).credit = (if s.qRate n = 0 then (s.queue n).credit else (s.queue n).credit - 32 * p.size) ∧
        (∀ a, u.reg a = s.reg a) ∧ s.sameMem u) ∧
    (s.quota n < (s.queue n).used + 4 * p.size → ∃ t : State, exec (.packetAdmit n k) s = .next t ∧
      t.rd (F.SCHED_QSTAT1_REFUSED n) = min (s.rd (F.SCHED_QSTAT1_REFUSED n) + 1) 0xFFFF ∧ (t.queue n).pkts = (s.queue n).pkts ∧
      (t.queue n).gapDue = true ∧ t.sched.items = s.sched.items.erase i ∧
      ((s.queue n).refArmed = true → s.raises .sched C.DATA_OUTPUT 0 t) ∧
      s.sameRegsBut ((F.SCHED_QSTAT1_REFUSED n).addr :: F.SCHED_EVENT_VALID.addr :: causeRegs .sched 0) t ∧ s.sameMem t) ∧
    ((s.queue n).used + 4 * p.size ≤ s.quota n → 0 < s.qRate n → (s.queue n).credit < 32 * p.size → ∃ t : State,
      exec (.packetAdmit n k) s = .next t ∧
      t.rd (F.SCHED_QSTAT1_POLICED n) = min (s.rd (F.SCHED_QSTAT1_POLICED n) + 1) 0xFFFF ∧ (t.queue n).pkts = (s.queue n).pkts ∧
      (t.queue n).gapDue = true ∧ ((s.queue n).polArmed = true → s.raises .sched C.DATA_OUTPUT 0 t) ∧
      s.sameRegsBut ((F.SCHED_QSTAT1_REFUSED n).addr :: F.SCHED_EVENT_VALID.addr :: causeRegs .sched 0) t ∧ s.sameMem t)) ∧
  (∀ (s : State) (n : Nat) (i : Item), (s.packetOf n i).seq = (s.queue n).seq ∧ (s.packetOf n i).gap = (s.queue n).gapDue ∧
    (s.packetOf n i).time = s.nowUs ∧ (s.packetOf n i).payload = i.payload ∧ (s.packetOf n i).pub = false ∧
    (s.packetOf n i).sent = !s.toStrm n ∧ (s.packetOf n i).size = i.payload.length + 4 ∧
    (s.packetOf n i).crc = crc32c ((s.packetOf n i).head n ++ i.payload)) ∧
  (∀ (s : State) (n : Fin 128), (((s.queue n).live = false ∨ s.qRate n = 0) → exec (.creditTick n) s = .next s) ∧
    ((s.queue n).live = true → 0 < s.qRate n → s.busUp = true → ∃ t : State, exec (.creditTick n) s = .next t ∧
      (t.queue n).credit = min (s.qCap n) ((s.queue n).credit + s.qRate n) ∧ (t.queue n).pkts = (s.queue n).pkts ∧
      (∀ a, t.reg a = s.reg a) ∧ s.sameMem t)) ∧
  (∀ (s : State) (lvl : Fin 4) (n : Fin 128), s.accepts lvl 0x904C (BitVec.ofNat 32 (0x10000000 + n.val * 0x10000)) 0xF →
    ∃ u : State, exec (.schedTrim lvl n) s = .next (u.overEval n) ∧ u.rd F.SCHED_STAT_BUSY = 1 ∧
      (u.queue n).pkts = (trimList (s.quota n) (s.sendingQ n) (s.queue n).used (s.queue n).pkts).1 ∧
      u.sched.trim = some ((n : Nat), (trimList (s.quota n) (s.sendingQ n) (s.queue n).used (s.queue n).pkts).2) ∧ s.sameMem u) ∧
  (∀ (quota used : Nat) (l : List Packet), (trimList quota false used l).2 + (trimList quota false used l).1.length = l.length ∧
    (trimList quota false used l).1 = l.drop (trimList quota false used l).2) ∧
  (∀ s : State, s.sched.trim = none → exec .schedTrimDone s = .next s) ∧
  (∀ (s : State) (n k : Nat), s.busUp = true → s.sched.trim = some (n, k) → ∃ t : State, exec .schedTrimDone s = .next t ∧ t.sched.trim = none ∧
    t.rd F.SCHED_STAT_BUSY = 0 ∧ t.rd F.SCHED_COUNT_TRIMMED = min (s.rd F.SCHED_COUNT_TRIMMED + k) 0xFFFF ∧
    s.raises .sched C.DATA_OUTPUT 0 t ∧ (s.on F.SCHED_EVENT_VALID = false → t.rd F.SCHED_EVENT_CODE = 7) ∧
    s.sameRegsBut (0x9044 :: 0x9050 :: 0x9054 :: causeRegs .sched 0) t ∧ s.sameMem t) ∧
  (∀ (s : State) (lvl : Fin 4) (n : Fin 128), s.accepts lvl 0x904C (BitVec.ofNat 32 (0x20000000 + n.val * 0x10000)) 0xF →
    ∃ t : State, exec (.schedHwmClear lvl n) s = .next t ∧ t.rd (F.SCHED_QLAT_HWM_US n) = 0 ∧ (t.queue n).latWarned = false ∧
      s.sameRegsBut [(F.SCHED_QLAT_HWM_US n).addr] t ∧ s.sameMem t) ∧
  (∀ (s : State) (lvl : Fin 4), s.accepts lvl 0x904C 0x30000000 0xF →
    ∃ t : State, exec (.schedHwmClearAll lvl) s = .next t ∧
      (∀ n, n < 128 → t.rd (F.SCHED_QLAT_HWM_US n) = 0 ∧ (t.queue n).latWarned = false) ∧ s.sameMem t)

/-- The idle port begins the send of the queue it chooses (R465), while READY lets it (R470). An ended send removes or publishes its packet,
counts it and frees the port (R456, R466, R469), bits [31:28] of a word first (R469); a timeout abandons the send and leaves the packet (R471); the configuration takes effect
at a packet boundary (R472). -/
def Obligations.StreamPort : Prop :=
  (∀ s : State, (s.busUp = false ∨ s.on F.STRM_STAT_SENDING = true ∨ s.en .strm = false ∨ s.radio < 2 ∨ (bit s.sched.cfg 0 = true ∧ s.on F.STRM_STAT_READY = false) ∨
    s.eligible = []) → exec .streamSelect s = .next s) ∧
  (∀ (s : State) (n : Nat) (p : Packet), n < 128 → s.busUp = true → s.on F.STRM_STAT_SENDING = false → s.en .strm = true → 2 ≤ s.radio →
    (bit s.sched.cfg 0 = false ∨ s.on F.STRM_STAT_READY = true) → s.chooseQueue = some n → (s.queue n).next = some p →
    ∃ u : State, exec .streamSelect s = .next (u.latency n p.time) ∧ u.rd F.STRM_STAT_SENDING = 1 ∧ u.rd F.STRM_STAT_QUEUE = n ∧ u.sched.nib = 0 ∧ u.sched.wait = false ∧
      tget 0 u.sched.turn (s.ham n).req.prio = n + 1 ∧ s.sameRegsBut [F.STRM_STAT_SENDING.addr] u ∧ s.sameMem u) ∧
  (∀ (s : State) (n : Nat), s.chooseQueue = some n → n ∈ s.eligible ∧ ∀ m ∈ s.eligible, (s.ham m).req.prio ≤ (s.ham n).req.prio) ∧
  (∀ (s : State) (n t : Nat), s.rd F.SCHED_CFG_LAT_WARN_MS = 0 → n < 128 → ∃ u : State, s.latency n t = u ∧
    u.rd (F.SCHED_QLAT_HWM_US n) = max (s.rd (F.SCHED_QLAT_HWM_US n)) ((s.nowUs + 2 ^ 32 - t) % 2 ^ 32) ∧
    s.sameRegsBut [(F.SCHED_QLAT_HWM_US n).addr] u ∧ s.sameMem u) ∧
  (∀ (s : State) (k : Bool), s.on F.STRM_STAT_SENDING = false → exec (.streamPacketSent k) s = .next s) ∧
  (∀ (s : State) (k : Bool) (n : Nat) (p : Packet), s.busUp = true → s.on F.STRM_STAT_SENDING = true → s.rd F.STRM_STAT_QUEUE = n → (s.queue n).next = some p →
    ∃ u : State, exec (.streamPacketSent k) s =
        .next ((if k || p.bad then (u.publishQueue n).chainBreak 5 n else u.publishQueue n).overEval n) ∧
      (u.queue n).pkts = sentFirst (!s.toReadout n) (s.queue n).pkts ∧ u.rd F.STRM_STAT_SENDING = 0 ∧ u.rd F.STRM_STAT_QUEUE = 0 ∧
      u.rd F.STRM_COUNT_PKTS = (s.rd F.STRM_COUNT_PKTS + 1) % 2 ^ 16 ∧ u.rd F.STRM_WORDS = (s.rd F.STRM_WORDS + p.size) % 2 ^ 32 ∧
      s.sameRegsBut [0xA044, 0xA048, 0xA04C] u ∧ s.sameMem u) ∧
  (∀ (p : Packet) (r : List Packet), p.sent = false → p.drop = false →
    sentFirst true (p :: r) = r ∧ sentFirst false (p :: r) = { p with sent := true } :: r) ∧
  (∀ (ws : List Nat) (i : Nat), i < ws.length → ws.getD i 0 < 2 ^ 32 →
    (List.range 8).foldl (fun v k => v * 16 + (nibbleOf ws (8 * i + k)).data) 0 = ws.getD i 0 ∧
    (∀ k, k < 8 → (nibbleOf ws (8 * i + k)).valid = true ∧ (nibbleOf ws (8 * i + k)).sync = decide (8 * i + k = 0))) ∧
  (∀ s : State, (s.on F.STRM_STAT_SENDING = false ∨ s.sched.wait = true) → s.strmBalls = .low) ∧
  (∀ s : State, s.busUp = true → (∃ t : State, exec .streamReadyLow s = .next t ∧ t.rd F.STRM_STAT_READY = 0 ∧ s.sameRegsBut [0xA044] t ∧ s.sameMem t) ∧
    (∃ t : State, exec .streamReadyHigh s = .next t ∧ t.rd F.STRM_STAT_READY = 1 ∧ s.sameRegsBut [0xA044] t ∧ s.sameMem t)) ∧
  (∀ (s : State) (w : BitVec 16), (s.on F.STRM_STAT_SENDING = false ∨ bit s.sched.cfg 0 = false ∨ s.on F.STRM_STAT_READY = true) →
    exec (.streamReadyTimeout w) s = .next s) ∧
  (∀ (s : State) (w : BitVec 16), s.busUp = true → s.on F.STRM_STAT_SENDING = true → bit s.sched.cfg 0 = true → s.on F.STRM_STAT_READY = false →
    ∃ t : State, exec (.streamReadyTimeout w) s = .next t ∧ t.rd F.STRM_STAT_SENDING = 0 ∧ t.rd F.STRM_STAT_QUEUE = 0 ∧
      t.rd F.STRM_COUNT_ABORTS = min (s.rd F.STRM_COUNT_ABORTS + 1) 0xFFFF ∧
      t.rd F.STRM_WORDS = (s.rd F.STRM_WORDS + w.toNat) % 2 ^ 32 ∧ t.sched.queues = s.sched.queues ∧ s.raises .strm C.DATA_OUTPUT 0 t ∧
      (s.on F.STRM_ERR_VALID = false → t.rd F.STRM_ERR_CODE = 1 ∧ t.rd F.STRM_ERR_QUEUE = s.rd F.STRM_STAT_QUEUE) ∧
      s.sameRegsBut (0xA044 :: 0xA048 :: 0xA04C :: 0xA050 :: causeRegs .strm 0) t ∧ s.sameMem t) ∧
  (∀ s : State, ((s.sched.cfgDue = false ∨ s.on F.STRM_STAT_SENDING = true) → exec .strmCfgApply s = .next s) ∧
    (s.busUp = true → s.sched.cfgDue = true → s.on F.STRM_STAT_SENDING = false → ∃ t : State, exec .strmCfgApply s = .next t ∧
      t.sched.cfg = (s.reg 0xA040).toNat ∧ t.sched.cfgDue = false ∧ (∀ a, t.reg a = s.reg a) ∧ s.sameMem t))

/-- GO clears the results and waits for Receive (R484, R486, R490); a settled point emits or, heard occupied, reads STATUS 2 (R483, R491); the
end of a dwell writes the result of the point and goes on (R484, R490); a mask violation, a loss of lock and ABORT end the command with their reasons (R488); a command that comes too
late ends (R486); the last point completes the command and the radio goes back to Receive (R484). -/
def Obligations.ProbeCommands : Prop :=
  (∀ (s : State) (l : Option Int) (pow : Powers) (r : ProbeReading) (o : List (Fin 4 × Int)) (n : Fin 24), s.rd F.PROBE_CMD_GO = 0 →
    exec (.probeSettleDone l pow) s = .next s ∧ exec (.probeDwellEnd r o pow) s = .next s ∧ (∀ b, exec (.probeMaskViolation b) s = .next s) ∧
    exec (.probeOccupancy n pow) s = .next s ∧ exec .probeTxLate s = .next s ∧ exec .probeLockLoss s = .next s) ∧
  (∀ (s : State) (lvl : Fin 4) (pow : Powers), s.accepts lvl 0x14054 1 0xF →
    ∃ u : State, exec (.probeGo lvl pow) s = .next (u.probeStart pow) ∧ s.sameRegsBut [0x14054] u ∧ s.sameMem u ∧ u.pwr = s.pwr) ∧
  (∀ (s : State) (pow : Powers), ¬(s.radio = 3 ∧ s.pwr.trans = none) → ∃ t : State, s.probeStart pow = t ∧ t.rd F.PROBE_CMD_GO = 1 ∧
    t.rd F.PROBE_STAT_STATE = 1 ∧ t.rd F.PROBE_STAT_POINT = 0 ∧ t.probe.emitted = false ∧
    (∀ p, p < 64 → t.rd (F.PROBE_RESULT0_STATUS p) = 0 ∧ t.rd (F.PROBE_RESULT1_FWD p) = 0) ∧ s.sameMem t) ∧
  (∀ (s : State) (lvl : Fin 4), s.accepts lvl 0x14054 2 0xF →
    (s.rd F.PROBE_STAT_STATE ≠ 0 → ∃ u : State, exec (.probeAbort lvl) s = .next ((u.probeAbort 6).advance) ∧ s.sameRegsBut [0x14054] u ∧
      u.rd F.PROBE_CMD_GO = s.rd F.PROBE_CMD_GO ∧ s.sameMem u) ∧
    (s.rd F.PROBE_STAT_STATE = 0 → ∃ t : State, exec (.probeAbort lvl) s = .next t ∧ t.rd F.PROBE_CMD_GO = 0 ∧ t.rd F.PROBE_CMD_ABORT = 0 ∧
      s.sameRegsBut [0x14054] t ∧ s.sameMem t)) ∧
  (∀ (s : State) (l : Option Int) (pow : Powers), s.busUp = true → s.rd F.PROBE_CMD_GO = 1 → s.rd F.PROBE_STAT_STATE = 2 →
    (∀ x, s.rd F.PROBE_CFG_MODE ≠ 1 → l = some x → ofField 16 (s.rd F.PROBE_OCC_THR_DBM) ≤ x → exec (.probeSettleDone l pow) s =
      .next (((s.wr (F.PROBE_RESULT0_STATUS (s.rd F.PROBE_STAT_POINT)) 2).pointsFrom pow (s.rd F.PROBE_STAT_POINT + 1)).advance)) ∧
    ((s.rd F.PROBE_CFG_MODE = 1 ∨ l = none) → s.pwr.trans = none → ∃ t : State, exec (.probeSettleDone l pow) s = .next t ∧
      t.rd F.PROBE_STAT_STATE = 3 ∧ t.rd F.PROBE_STAT_LOCKED = 1 ∧ t.probe.emitted = true ∧
      (s.rd F.PROBE_CFG_MODE = 2 → s.probe.emitted = false → t.rd F.PROBE_TX_TIME = s.nowUs) ∧
      (s.rd F.PROBE_CFG_MODE ≠ 2 → t.rd F.PROBE_TX_TIME = s.rd F.PROBE_TX_TIME) ∧
      s.sameRegsBut [0x14058, 0x14064] t ∧ s.sameMem t)) ∧
  (∀ (s : State) (r : ProbeReading) (o : List (Fin 4 × Int)) (pow : Powers) (p : Nat), s.busUp = true → s.rd F.PROBE_CMD_GO = 1 →
    s.rd F.PROBE_STAT_STATE = 3 → s.rd F.PROBE_STAT_POINT = p → s.probe.cal = false → ∃ u : State,
      exec (.probeDwellEnd r o pow) s = .next ((u.pointsFrom pow (p + 1)).advance) ∧ u.rd (F.PROBE_RESULT0_STATUS p) = 1 ∧
      u.rd (F.PROBE_RESULT1_FWD p) = r.fwd.toNat ∧
      (s.rd F.PROBE_CFG_MODE = 0 → u.rd (F.PROBE_RESULT0_RL_DB10 p) = r.rl10.val ∧ u.rd (F.PROBE_RESULT0_PHASE p) = r.phase.toNat ∧
        u.rd (F.PROBE_RESULT1_REFL p) = r.refl.toNat) ∧
      s.sameRegsBut [(F.PROBE_RESULT0_STATUS p).addr, (F.PROBE_RESULT1_FWD p).addr] u ∧ s.sameMem u) ∧
  (∀ (s : State) (pow : Powers) (p : Nat), s.rd F.PROBE_SWEEP_POINTS ≤ p → s.pointsFrom pow p = s.probeDone) ∧
  (∀ (s : State) (pow : Powers) (p : Nat), p < s.rd F.PROBE_SWEEP_POINTS → s.occupied pow p = false → s.radio = 4 → ∃ t : State,
    s.pointsFrom pow p = t ∧ t.rd F.PROBE_STAT_STATE = 2 ∧ t.rd F.PROBE_STAT_LOCKED = 0 ∧ t.rd F.PROBE_STAT_POINT = p ∧
    s.sameRegsBut [0x14058, 0x1405C] t ∧ s.sameMem t) ∧
  (∀ s : State, s.radio = 4 → s.pwr.trans = none → s.probe.cal = false → ∃ t : State, s.probeDone = t ∧ t.rd F.PROBE_CMD_GO = 0 ∧
    t.rd F.PROBE_STAT_STATE = 0 ∧ t.rd F.PROBE_STAT_LOCKED = 0 ∧ t.pwr.trans = some .txToRx ∧ t.rd F.PWR_STATE_STAT_BUSY = 1 ∧
    s.raises .probe C.LINK_PROBE_DONE 0 t ∧ s.sameRegsBut (0x14054 :: 0x14058 :: 0x2044 :: causeRegs .probe 0) t ∧ s.sameMem t) ∧
  (∀ (s : State), s.busUp = true → s.rd F.PROBE_CMD_GO = 1 →
    (∀ b : List SpecBin, s.rd F.PROBE_STAT_STATE = 3 → b.any (s.overMask (s.rd F.PROBE_STAT_POINT)) = true →
      exec (.probeMaskViolation b) s = .next ((s.probeAbort 1).advance)) ∧
    (∀ b : List SpecBin, b.any (s.overMask (s.rd F.PROBE_STAT_POINT)) = false → exec (.probeMaskViolation b) s = .next s) ∧
    (2 ≤ s.rd F.PROBE_STAT_STATE → exec .probeLockLoss s = .next ((s.probeAbort 2).advance)) ∧
    ((s.rd F.PROBE_STAT_STATE = 1 ∨ s.rd F.PROBE_STAT_STATE = 2) → s.probe.cal = false → s.pwr.trans = none → s.radio ≠ 4 →
      ∃ u : State, exec .probeTxLate s = .next u.advance ∧ u.rd F.PROBE_CMD_GO = 0 ∧ u.rd F.PROBE_STAT_STATE = 0 ∧
        u.rd F.PROBE_COUNT_TX_LATE = min (s.rd F.PROBE_COUNT_TX_LATE + 1) 0xFFFF ∧ s.raises .probe C.LINK_TX_LATE 0 u ∧
        s.sameRegsBut (0x14054 :: 0x14058 :: 0x14060 :: causeRegs .probe 0) u ∧ s.sameMem u)) ∧
  (∀ (s : State) (r p : Nat), r < 8 → s.rd F.PROBE_CMD_GO = 1 → 2 ≤ s.rd F.PROBE_STAT_STATE → s.rd F.PROBE_STAT_POINT = p → s.radio = 4 →
    s.pwr.trans = none → s.probe.cal = false → ∃ t : State, s.probeAbort r = t ∧ t.rd (F.PROBE_RESULT0_STATUS p) = 3 ∧
      t.rd F.PROBE_STAT_ABORT_REASON = r ∧ t.rd F.PROBE_COUNT_ABORTS = min (s.rd F.PROBE_COUNT_ABORTS + 1) 0xFFFF ∧
      t.rd F.PROBE_CMD_GO = 0 ∧ t.rd F.PROBE_STAT_STATE = 0 ∧ t.pwr.trans = some .txToRx ∧ s.raises .probe C.LINK_TX_ABORT 0 t ∧ s.sameMem t) ∧
  (∀ (s : State) (p : Nat) (b : SpecBin) (o l : Nat), s.binOffset p b = some o → s.maskLimit o = some l →
    (s.overMask p b = true ↔ s.judged p b o = true ∧ -4 * (l : Int) < b.level)) ∧
  (∀ (s : State) (k o l : Nat), k < 8 → s.rd (F.PROBE_MASK_VALID k) = 1 → s.rd (F.PROBE_MASK_OFS_KHZ k) * 1000 ≤ o →
    (∀ m, m < 8 → m ≠ k → s.rd (F.PROBE_MASK_VALID m) = 0) → l = s.rd (F.PROBE_MASK_LIMIT_DB k) → s.maskLimit o = some l) ∧
  (∀ (s : State) (n : Fin 24) (pow : Powers), s.busUp = true → s.rd F.PROBE_CMD_GO = 1 → s.rd F.PROBE_STAT_STATE = 3 →
    s.laneBlocks [(n, 32767)] (s.rd F.PROBE_STAT_POINT) n = true → exec (.probeOccupancy n pow) s =
      .next (((s.wr (F.PROBE_RESULT0_STATUS (s.rd F.PROBE_STAT_POINT)) 2).pointsFrom pow (s.rd F.PROBE_STAT_POINT + 1)).advance))

/-- A trained port with the right peer comes up, a wrong one is a role conflict (R517, R521); a port goes down or trains again (R521, R533).
A tunnel packet retries three times and ends with its result (R524, R525); a slave performs its words and answers (R524); remote causes,
late exports, export requests and the loss of the master (R526, R529, R531, R533). -/
def Obligations.CascadeEvents : Prop :=
  (∀ (s : State) (p : Fin 2) (peer : Fin 4) (rtt : BitVec 12) (bnd : Fin 480) (ch : Bool) (reach : BitVec 4),
    (s.portOn p = false → exec (.linkTrained p peer rtt bnd ch reach) s = .next s) ∧
    (s.busUp = true → s.portOn p = true → s.rd (F.CASC_LINK_STATE p) ≠ 2 → s.peerWant p ≠ some peer.val → ∃ t : State,
      exec (.linkTrained p peer rtt bnd ch reach) s = .next t ∧ t.rd (F.CASC_LINK_STATE p) = 3 ∧ t.rd (F.CASC_LINK_PEER p) = peer ∧
      t.rd F.CASC_STAT_UP = s.rd F.CASC_STAT_UP ∧ s.raises .casc C.LINK_ROLE_CONFLICT 0 t ∧
      s.sameRegsBut ((F.CASC_LINK_STATE p).addr :: causeRegs .casc 0) t ∧ s.sameMem t) ∧
    (s.busUp = true → s.portOn p = true → s.rd (F.CASC_LINK_STATE p) ≠ 2 → s.peerWant p = some peer.val → s.role = 0 → (p : Nat) = 1 → ∃ u : State,
      exec (.linkTrained p peer rtt bnd ch reach) s = .next (u.showReach (reach.toNat / 2 * 2)) ∧ u.rd (F.CASC_LINK_STATE p) = 2 ∧
      bit (u.rd F.CASC_STAT_UP) p = true ∧ u.rd (F.CASC_LINK_RTT_NS p) = rtt.toNat ∧ u.rd (F.CASC_LINK_PEER p) = peer ∧
      s.raises .casc C.LINK_LINK_UP 0 u ∧
      s.sameRegsBut ((F.CASC_LINK_STATE p).addr :: F.CASC_STAT_UP.addr :: causeRegs .casc 0) u ∧ s.sameMem u)) ∧
  (∀ (s : State) (p : Fin 2) (code crc : BitVec 8),
    (s.busUp = true → s.rd (F.CASC_LINK_STATE p) = 2 → ∃ u : State, exec (.linkDown p code crc) s = .next (u.linkDown p) ∧
      u.rd (F.CASC_LINK_CODE_ERR p) = min (s.rd (F.CASC_LINK_CODE_ERR p) + code.toNat) 255 ∧
      u.rd (F.CASC_LINK_CRC_ERR p) = min (s.rd (F.CASC_LINK_CRC_ERR p) + crc.toNat) 255 ∧
      s.sameRegsBut [(F.CASC_LINK_STATE p).addr] u ∧ s.sameMem u) ∧
    (s.busUp = true → s.rd (F.CASC_LINK_STATE p) = 3 → ∃ t : State, exec (.linkDown p code crc) s = .next t ∧
      t.rd (F.CASC_LINK_STATE p) = b2n (s.portOn p) ∧ s.sameRegsBut [(F.CASC_LINK_STATE p).addr] t ∧ s.sameMem t) ∧
    (s.busUp = true → s.rd (F.CASC_LINK_STATE p) = 1 → ∃ t : State, exec (.linkTrainRetry p code crc) s = .next t ∧
      t.rd (F.CASC_LINK_STATE p) = b2n (s.portOn p) ∧
      t.rd (F.CASC_LINK_CODE_ERR p) = min (s.rd (F.CASC_LINK_CODE_ERR p) + code.toNat) 255 ∧
      s.sameRegsBut [(F.CASC_LINK_STATE p).addr] t ∧ s.sameMem t) ∧
    (s.rd (F.CASC_LINK_STATE p) = 2 → exec (.linkTrainRetry p code crc) s = .next s)) ∧
  (∀ (s : State) (p : Nat), p < 2 → s.role = 0 → p = 0 → ∃ t : State, s.linkDown p = t ∧ bit (t.rd F.CASC_STAT_UP) p = false ∧
    t.rd (F.CASC_LINK_STATE p) = b2n (s.portOn p) ∧ s.raises .casc C.LINK_LINK_DOWN 0 t) ∧
  (∀ (s : State) (n : Fin 17) (l : List Word), s.rd F.CASC_TUN_STAT_BUSY = 0 →
    exec .tunnelRetry s = .next s ∧ exec (.tunnelAck n l) s = .next s) ∧
  (∀ s : State, s.busUp = true → s.rd F.CASC_TUN_STAT_BUSY = 1 →
    (s.casc.tries < 3 → ∃ t : State, exec .tunnelRetry s = .next t ∧ t.casc.tries = s.casc.tries + 1 ∧ (∀ a, t.reg a = s.reg a) ∧ s.sameMem t) ∧
    (3 ≤ s.casc.tries → exec .tunnelRetry s = .next (s.tunnelEnd 3 0)) ∧
    (∀ (n : Fin 17) (l : List Word), s.rd F.CASC_TUN_CMD_WRITE = 1 →
      exec (.tunnelAck n l) s = .next (s.tunnelEnd (if n.val = 0 then 1 else 2) n)) ∧
    (∀ (n : Fin 17) (l : List Word), s.rd F.CASC_TUN_CMD_WRITE = 0 → ∃ u : State,
      exec (.tunnelAck n l) s = .next (u.tunnelEnd (if n.val = 0 then 1 else 2) n) ∧
      (∀ k, k ≤ s.rd F.CASC_TUN_CMD_LEN → u.reg (0x15800 + 4 * k) = l.getD k 0) ∧ s.sameMem u)) ∧
  (∀ (s : State) (r n : Nat), r < 8 → n < 32 → ∃ t : State, s.tunnelEnd r n = t ∧ t.rd F.CASC_TUN_STAT_BUSY = 0 ∧ t.rd F.CASC_TUN_CMD_GO = 0 ∧
    t.rd F.CASC_TUN_STAT_RESULT = r ∧ t.rd F.CASC_TUN_STAT_REFUSED = n ∧ (3 ≤ r → s.raises .casc C.LINK_TUNNEL_ERR 0 t) ∧
    s.sameRegsBut (0x15060 :: 0x15068 :: causeRegs .casc 0) t ∧ s.sameMem t) ∧
  (∀ (s : State) (wr : Bool) (a : BitVec 24) (len : Fin 16) (data : List Word) (x : Facts),
    (s.answers = false ∨ s.role = 0 ∨ bit (s.rd F.CASC_STAT_UP) 0 = false) → exec (.tunnelPacketReceived wr a len data x) s = .next s) ∧
  (∀ (s : State) (a : BitVec 24) (x : Facts) (w : Word), s.answers = true → s.role ≠ 0 → bit (s.rd F.CASC_STAT_UP) 0 = true →
    s.boot ≠ .warm →
    (s.accepts 1 a.toNat w x.rfin → (s.busWrite s 1 a.toNat w x).1.boot ≠ .warm → ∃ t : State,
      exec (.tunnelPacketReceived true a 0 [w] x) s = .next t ∧ t.casc.ack = [] ∧
      t.regs = (s.busWrite s 1 a.toNat w x).1.regs ∧ t.mem = (s.busWrite s 1 a.toNat w x).1.mem ∧
      t.casc.ackRefused = b2n (decide ((s.busWrite s 1 a.toNat w x).2 = .refused))) ∧
    ((s.busRead s 1 a.toNat x.hits).1.boot ≠ .warm → ∃ t : State, exec (.tunnelPacketReceived false a 0 [] x) s = .next t ∧
      t.casc.ack = [(s.busRead s 1 a.toNat x.hits).2.word.toNat] ∧
      t.casc.ackRefused = b2n (s.busRead s 1 a.toNat x.hits).2.refused ∧ t.regs = (s.busRead s 1 a.toNat x.hits).1.regs)) ∧
  (∀ (s : State) (d : Fin 4) (g : BitVec 16), (s.role ≠ 0 → exec (.remoteIrqFrame d g []) s = .next s) ∧
    (s.busUp = true → s.role = 0 → d ≠ 0 → s.reaches d = true → (∃ t : State, exec (.remoteIrqFrame d g []) s = .next t ∧
        t.rd (F.CASC_REMOTE_GROUP d) = g.toNat ∧ s.sameRegsBut [(F.CASC_REMOTE_GROUP d).addr] t ∧ s.sameMem t) ∧
      (∀ (k : Fin 8) (b : Bool), s.rd (F.CASC_XREQ_DEV k) = d.val → s.rd (F.CASC_XREQ_STATE k) = 1 → ∃ t : State,
        exec (.remoteIrqFrame d g [(k, b)]) s = .next t ∧ t.rd (F.CASC_XREQ_STATE k) = (if b then 2 else 3) ∧
        s.sameRegsBut [(F.CASC_REMOTE_GROUP d).addr, (F.CASC_XREQ_STATE k).addr] t ∧ s.sameMem t))) ∧
  (∀ (s : State) (k : Fin 8), (s.rd (F.CASC_XREQ_EN k) = 0 → exec (.exportLate k) s = .next s) ∧
    (s.busUp = true → s.rd (F.CASC_XREQ_EN k) = 1 → s.rd (F.CASC_XREQ_STATE k) = 2 → ∃ t : State, exec (.exportLate k) s = .next t ∧
      t.rd (F.CASC_XREQ_LATE k) = min (s.rd (F.CASC_XREQ_LATE k) + 1) 255 ∧ s.sameRegsBut [(F.CASC_XREQ_LATE k).addr] t ∧ s.sameMem t)) ∧
  (∀ (s : State) (k : Fin 8) (en : Bool) (h : Fin 128) (pr : Fin 256) (b : Fin 7) (f : Word) (m : BitVec 4) (br : Fin 5)
    (ofs : BitVec 24), s.busUp = true → s.role ≠ 0 →
    s.on F.CASC_STAT_MASTER_OK = true → ∃ t : State, exec (.exportRequestReceived k en h pr b f m br ofs) s = .next t ∧
      tget 0 t.casc.ofs k = ofField 24 ofs.toNat ∧
      ((k : Nat), ({ en := en, hamper := h, prio := pr, bearer := b, freq := f.toNat, mask := m.toNat, branches := br } : ExpReq)) ∈ t.casc.staged ∧
      t.place.due = true ∧ (∀ a, t.reg a = s.reg a) ∧ s.sameMem t) ∧
  (∀ s : State, (s.role = 0 ∨ s.on F.CASC_STAT_MASTER_OK = false) → exec .masterLost s = .next s) ∧
  (∀ s : State, s.busUp = true → s.role ≠ 0 → s.on F.CASC_STAT_MASTER_OK = true → s.time.casc = false → ∃ t : State, exec .masterLost s = .next t ∧
    t.rd F.CASC_STAT_MASTER_OK = 0 ∧ s.raises .casc C.LINK_MASTER_LOST 0 t ∧
    (∀ k, k < 8 → (s.ham (128 + k)).req.en = true → (k, ExpReq.none) ∈ t.casc.staged ∧ t.place.due = true) ∧
    s.sameRegsBut (F.CASC_STAT_MASTER_OK.addr :: causeRegs .casc 0) t ∧ s.sameMem t)

/-- A packet for a reachable device is sent, one for another ends with RESULT 4 (R525); an entry of XREQ is stored and judged (R529); a
calibration starts a probe command or ends with RESULT 3 where that command cannot run (R532; that it ends so is the model's reading,
assumption 20). -/
def Obligations.CascadeWrites : Prop :=
  (∀ (s : State) (lvl : Fin 4) (w : Word), s.accepts lvl 0x15060 (putBits w 31 31 1) 0xF → s.rd F.CASC_TUN_CMD_GO = 0 →
    (s.reaches (getBits w 17 16) = true → ∃ t : State, exec (.tunnelGo lvl w) s = .next t ∧ t.rd F.CASC_TUN_STAT_BUSY = 1 ∧
      t.rd F.CASC_TUN_CMD_GO = 1 ∧ t.rd F.CASC_TUN_CMD_DEV = getBits w 17 16 ∧ t.rd F.CASC_TUN_CMD_WRITE = getBits w 30 30 ∧
      t.rd F.CASC_TUN_CMD_LEN = getBits w 3 0 ∧ t.casc.tries = 0 ∧ s.sameRegsBut [0x15060, 0x15068] t ∧ s.sameMem t) ∧
    (s.reaches (getBits w 17 16) = false → ∃ u : State, exec (.tunnelGo lvl w) s = .next (u.tunnelEnd 4 0) ∧ u.casc.tries = 0 ∧
      s.sameRegsBut [0x15060] u ∧ s.sameMem u)) ∧
  (∀ (s : State) (lvl : Fin 4) (k : Fin 8) (w : Word), s.accepts lvl (0x150A0 + 4 * k.val) w 0xF →
    ∃ u : State, exec (.xreqWrite lvl k w) s = .next (u.xreqEval []) ∧ u.rd (F.CASC_XREQ_EN k) = getBits w 31 31 ∧
      u.rd (F.CASC_XREQ_STATE k) = 0 ∧ u.rd (F.CASC_XREQ_DEV k) = getBits w 25 24 ∧ u.rd (F.CASC_XREQ_HAMPER k) = getBits w 22 16 ∧
      s.sameRegsBut [0x150A0 + 4 * k.val] u ∧ s.sameMem u) ∧
  (∀ s : State, (∀ k, k < 8 → s.rd (F.CASC_XREQ_EN k) = 0) → s.xreqEval [] = s) ∧
  (∀ (s : State) (lvl i : Fin 4) (x : Facts), s.accepts lvl 0x15070 (BitVec.ofNat 32 (2 ^ 31 + i.val)) x.rfin → s.rd F.CASC_CAL_CTRL_GO = 0 →
    ∃ u : State, exec (.cascCalGo lvl i x) s = .next (match u.probeGoReason with
        | none => u.probeStart x.pow
        | some _ => u.endCal 3) ∧
      u.probe.cal = true ∧ u.rd F.CASC_CAL_CTRL_GO = 1 ∧ u.rd F.CASC_CAL_CTRL_CAL_INPUT = i ∧ s.sameRegsBut [0x15070] u ∧ s.sameMem u) ∧
  (∀ (s : State) (r : Nat), r < 8 → s.probe.cal = true → ∃ t : State, s.endCal r = t ∧ t.rd F.CASC_CAL_STAT_RESULT = r ∧
    t.rd F.CASC_CAL_CTRL_GO = 0 ∧ t.probe.cal = false ∧ s.sameRegsBut [0x15070, 0x15074] t ∧ s.sameMem t)

/-- A corrected word is counted and captured (R498); a read in the cycle of a write gives the new data (R499). A slot marches a free region and scrubs a used one (R501); a clean march goes on to the
next region, a failed one withdraws its region (R504, R505), an access aborts it (R503), and after the restore it is tried again or skipped
(R503). The limits of corrected and uncorrectable words (R507). -/
def Obligations.MemoryTest : Prop :=
  (∀ (s : State) (w : Fin 1638400), (s.memT.single.contains w.val = false → exec (.scrubWriteback w none) s = .next s) ∧
    (s.busUp = true → s.poisoned w = false → s.rd F.MEM_CFG_SCRUB_EN = 1 → ∃ t : State, exec (.scrubWriteback w none) s = .next t ∧
      t.memT.single.contains w.val = false ∧ s.sameRegsBut [] t ∧ s.sameMem t) ∧
    (∀ p : Fin 2, s.poisoned w = true → exec (.scrubWriteback w (some p)) s = .next s) ∧
    (∀ p : Fin 2, s.busUp = true → s.poisoned w = false → ∃ t : State, exec (.scrubWriteback w (some p)) s = .next t ∧
      t.rd F.MEM_COUNT_CORRECTED = min (s.rd F.MEM_COUNT_CORRECTED + 1) 0xFFFF ∧ s.raises .mem C.MEM_CORRECTED 0 t ∧
      tget 0 t.memT.corr (w / 32768) = tget 0 s.memT.corr (w / 32768) + 1 ∧
      (s.on F.MEM_CORR_CAPT_VALID = false → t.rd F.MEM_CORR_CAPT_VALID = 1 ∧ t.rd F.MEM_CORR_CAPT_PORT = p ∧
        t.rd F.MEM_CORR_CAPT_BANK = w / 32768 ∧ t.rd F.MEM_CORR_CAPT_WORD = w % 32768) ∧
      t.memT.single.contains w.val = decide (s.rd F.MEM_CFG_SCRUB_EN = 0) ∧
      s.sameRegsBut (F.MEM_COUNT_CORRECTED.addr :: F.MEM_CORR_CAPT_VALID.addr :: causeRegs .mem 0) t ∧ s.sameMem t)) ∧
  (∀ (s : State) (hits : List MemHit) (port : Fin 2) (w : Fin 1638400) (d : BitVec 64), portAWrite hits w = some d →
    (s.readWord hits port w).2 = false ∧ (s.readWord hits port w).1.half (wordAddr w) = d.setWidth 32 ∧
      (s.readWord hits port w).1.half (wordAddr w + 4) = (d >>> 32).setWidth 32 ∧ (s.readWord hits port w).1.poisoned w = false ∧
      (s.readWord hits port w).1.memT.single.contains w.val = false ∧ ∀ a, (s.readWord hits port w).1.reg a = s.reg a) ∧
  (∀ s : State, (s.testOn = false ∨ s.memT.test.isSome = true) → exec .testSlot s = .next s) ∧
  (∀ (s : State) (r : Nat), s.busUp = true → s.testOn = true → s.memT.test = none → s.skipRegions s.memT.next = r →
    (s.mayAccess 3 80 false = true → (s.mayAccess 3 80 true = true ∨ s.regionUsed r = true) → ∃ u : State,
      exec .testSlot s = .next u.showTest ∧ u.memT.test = some (r, !s.regionUsed r) ∧ u.rd F.MEM_STAT_BANK = r / 64 % 64 ∧
      u.rd F.MEM_STAT_REGION = r % 64 ∧ s.sameRegsBut [F.MEM_STAT_BANK.addr] u ∧ s.sameMem u) ∧
    (s.mayAccess 3 80 false = false → ∃ u : State, u.memT = { s.memT with stop := true } ∧ (∀ a, u.reg a = s.reg a) ∧
      exec .testSlot s = .next (u.refuse 3 (wordAddr (512 * r)) false 0).showTest)) ∧
  (∀ (s : State) (f : Bool), s.memT.test = none → exec (.marchDone f [] []) s = .next s ∧ exec (.marchAbort f) s = .next s ∧
    exec .restoreDone s = .next s) ∧
  (∀ (s : State) (r : Nat), s.memT.test = some (r, true) → s.memT.restoring = false → s.memT.poison = [] →
    s.busUp = true → (∀ w, w ∈ s.memT.single → w / 512 ≠ r) →
    (∃ u : State, exec (.marchDone false [] []) s = .next (u.testNext r) ∧ tget 0 u.memT.aborts r = 0 ∧ u.memT.failed = s.memT.failed ∧
      (∀ a, u.reg a = s.reg a) ∧ s.sameMem u) ∧
    (r < 3072 → ∃ u : State, exec (.marchDone true [] []) s = .next (u.testNext r) ∧ u.memT.failed = true ∧
      bit (u.rd (if r % 64 < 32 then F.MEM_BAD_MAP_LO_REGIONS (r / 64) else F.MEM_BAD_MAP_HI_REGIONS (r / 64))) (r % 32) = true ∧
      u.rd F.MEM_TEST_COUNT1_FAILS = min (s.rd F.MEM_TEST_COUNT1_FAILS + 1) 0xFFFF ∧ s.raises .mem C.MEM_TEST_FAIL 0 u ∧ s.sameMem u)) ∧
  (∀ (s : State) (r : Nat), r < 3199 → ∃ u : State, s.testNext r = u.showTest ∧ u.memT.test = none ∧ u.memT.next = r + 1 ∧
    (∀ a, u.reg a = s.reg a)) ∧
  (∀ s : State, ∃ u : State, s.testNext 3199 = u.showTest ∧ u.memT.next = 0 ∧ u.memT.failed = false ∧
    u.rd F.MEM_TEST_COUNT0_SWEEPS = (s.rd F.MEM_TEST_COUNT0_SWEEPS + 1) % 2 ^ 16 ∧
    (s.memT.failed = false → s.raises .mem C.MEM_TEST_PASS 0 u)) ∧
  (∀ (s : State) (r : Nat), s.memT.test = some (r, true) → s.memT.restoring = false → s.busUp = true → ∃ u : State,
    exec (.marchAbort false) s = .next u.showTest ∧ u.memT.restoring = true ∧ u.memT.test = some (r, true) ∧
    tget 0 u.memT.aborts r = tget 0 s.memT.aborts r + 1 ∧
    u.rd F.MEM_TEST_COUNT0_ABORTS = min (s.rd F.MEM_TEST_COUNT0_ABORTS + 1) 0xFFFF ∧
    s.sameRegsBut [F.MEM_TEST_COUNT0_ABORTS.addr] u ∧ s.sameMem u) ∧
  (∀ (s : State) (r : Nat), s.memT.test = some (r, true) → s.memT.restoring = true → s.memT.restart = false → s.busUp = true →
    (tget 0 s.memT.aborts r < 16 → exec .restoreDone s = .next s.testDrop) ∧
    (16 ≤ tget 0 s.memT.aborts r → ∃ u : State, exec .restoreDone s = .next (u.testNext r) ∧
      u.rd F.MEM_TEST_COUNT1_SKIPPED = min (s.rd F.MEM_TEST_COUNT1_SKIPPED + 1) 0xFFFF ∧ s.raises .mem C.MEM_TEST_SKIP 0 u ∧
      s.sameRegsBut (F.MEM_TEST_COUNT1_SKIPPED.addr :: F.MEM_TEST_CAPT_VALID.addr :: causeRegs .mem 0) u ∧ s.sameMem u)) ∧
  (∀ (s : State) (b : Fin 50),
    (s.busUp = true → tget 0 s.memT.corr b ≤ s.rd F.MEM_CFG_CORR_WARN → ∃ t : State, exec (.corrWindow b) s = .next t ∧ tget 0 t.memT.corr b = 0 ∧
      (∀ a, t.reg a = s.reg a) ∧ s.sameMem t) ∧
    (s.busUp = true → s.rd F.MEM_CFG_CORR_WARN < tget 0 s.memT.corr b → ∃ t : State, exec (.corrWindow b) s = .next t ∧ tget 0 t.memT.corr b = 0 ∧
      s.raises .mem C.MEM_ERR_LIMIT 0 t ∧
      (s.on F.MEM_LIMIT_CAPT_VALID = false → t.rd F.MEM_LIMIT_CAPT_VALID = 1 ∧ t.rd F.MEM_LIMIT_CAPT_KIND = 0 ∧
        t.rd F.MEM_LIMIT_CAPT_BANK = b) ∧
      s.sameRegsBut (F.MEM_LIMIT_CAPT_VALID.addr :: causeRegs .mem 0) t ∧ s.sameMem t)) ∧
  (∀ (s : State) (c : Fin 4), s.busUp = true → ∃ t : State, exec (.uncorrQuietReset c) s = .next t ∧ tget 0 t.memT.uncorr c = 0 ∧
    t.memT.recent = s.memT.recent ∧ (∀ a, t.reg a = s.reg a) ∧ s.sameMem t) ∧
  (∀ (s : State) (p w : Nat) (h : Option Bank49), w < 48 * 32768 → (tget [] s.memT.recent (w / 32768 / 12)).contains w = false →
    s.rd F.MEM_CFG_FENCE_COUNT ≤ tget 0 s.memT.uncorr (w / 32768 / 12) + 1 → ∃ u : State,
      s.noteUncorr p w h = (u.errLimit 1 0 (w / 32768 / 12)).fence [w / 32768 / 12] true 2 ∧
      tget 0 u.memT.uncorr (w / 32768 / 12) = tget 0 s.memT.uncorr (w / 32768 / 12) + 1 ∧
      u.rd F.MEM_COUNT_UNCORR = min (s.rd F.MEM_COUNT_UNCORR + 1) 0xFFFF ∧ s.raises .mem C.MEM_UNCORR 0 u)

/-- A step takes the command at the front of the queue and runs it on the state with the queue's rest. With no command waiting the device
idles for one XO cycle while the XO runs, and stands still otherwise (the model's choice: assumptions 16 and 96). Of a device update `u` and a write `w` in one PER cycle, `perCycle`,
the update runs first, so that the written value remains (R122), but a write that clears runs before it (R10). -/
def Obligations.StepTakesTheFront : Prop :=
  (∀ (c : Instr) (s : State) (rest : List Instr), step { s with pending := c :: rest } = exec c { s with pending := rest }) ∧
  (∀ s : State, s.pending = [] → s.clk.xo = Xo.stable → step s = .next s.tick.lanesCycle.audCycle.strmCycle) ∧
  (∀ s : State, s.tick.lanesCycle.audCycle.strmCycle.mem = s.mem ∧ s.tick.lanesCycle.audCycle.strmCycle.pending = s.pending) ∧
  (∀ s : State, s.pending = [] → s.clk.xo ≠ Xo.stable → step s = .next s) ∧
  (∀ (s : State) (u w : Instr) (rest : List Instr), s.pending = perCycle [u] (some w) ++ rest →
    step s = (if clearsW1c w = true then exec w { s with pending := u :: rest } else exec u { s with pending := w :: rest }))

/-- R101: a write or a read at an address with bit [1] or bit [0] at 1 has no effect but its record in PROT (KIND 2), and a read
returns 0. -/
def Obligations.MisalignedAccess : Prop :=
  ∀ (s : State) (lvl : Fin 4) (a : BitVec 24) (w : Word) (x : Facts) (hits : List MemHit), s.answers = true →
    (bit a.toNat 0 = true ∨ bit a.toNat 1 = true) → ∃ t u : State, exec (.registerWrite lvl a w x) s = .next t ∧
      s.busRead s lvl a.toNat hits = (u, { word := 0, refused := true, bad := false }) ∧
      (∀ v, v = t ∨ v = u → v.rd F.PROT_COUNT_ACCESS = min (s.rd F.PROT_COUNT_ACCESS + 1) 0xFFFF ∧ s.raises .prot C.PROT_ALIGN 0 v ∧
        (s.rd F.PROT_ACCESS_CAPT_VALID = 0 → v.rd F.PROT_ACCESS_CAPT_VALID = 1 ∧ v.rd F.PROT_ACCESS_CAPT_KIND = 2 ∧
          v.rd F.PROT_ACCESS_CAPT_INIT = lvl ∧ v.rd F.PROT_ACCESS_CAPT_ADDR = a.toNat) ∧
        s.sameRegsBut ([0x504C, 0x5048, 0x70] ++ causeRegs .prot 0 ++ causeRegs .sys 0) v ∧ s.sameMem v)

/-- R117: a write or a read that the table refuses has no effect but its record in PROT (KIND 0), and a read returns 0. -/
def Obligations.DeniedAccess : Prop :=
  ∀ (s : State) (lvl : Fin 4) (a : BitVec 24) (w : Word) (x : Facts) (hits : List MemHit), s.answers = true → a.toNat % 4 = 0 →
    s.reserved lvl a.toNat = false →
    (s.mayAccess lvl (artIndex a.toNat) true = false → ∃ t : State, exec (.registerWrite lvl a w x) s = .next t ∧
      (s.rd F.PROT_ACCESS_CAPT_VALID = 0 → t.rd F.PROT_ACCESS_CAPT_VALID = 1 ∧ t.rd F.PROT_ACCESS_CAPT_KIND = 0 ∧
        t.rd F.PROT_ACCESS_CAPT_WRITE = 1 ∧ t.rd F.PROT_ACCESS_CAPT_INIT = lvl ∧ t.rd F.PROT_ACCESS_CAPT_ADDR = a.toNat) ∧
      t.rd F.PROT_COUNT_ACCESS = min (s.rd F.PROT_COUNT_ACCESS + 1) 0xFFFF ∧ s.raises .prot C.PROT_DENIED 0 t ∧
      s.sameRegsBut ([0x504C, 0x5048, 0x70] ++ causeRegs .prot 0 ++ causeRegs .sys 0) t ∧ s.sameMem t) ∧
    (s.mayAccess lvl (artIndex a.toNat) false = false → ∃ t : State,
      s.busRead s lvl a.toNat hits = (t, { word := 0, refused := true, bad := false }) ∧
      (s.rd F.PROT_ACCESS_CAPT_VALID = 0 → t.rd F.PROT_ACCESS_CAPT_VALID = 1 ∧ t.rd F.PROT_ACCESS_CAPT_KIND = 0 ∧
        t.rd F.PROT_ACCESS_CAPT_WRITE = 0 ∧ t.rd F.PROT_ACCESS_CAPT_INIT = lvl ∧ t.rd F.PROT_ACCESS_CAPT_ADDR = a.toNat) ∧
      t.rd F.PROT_COUNT_ACCESS = min (s.rd F.PROT_COUNT_ACCESS + 1) 0xFFFF ∧ s.raises .prot C.PROT_DENIED 0 t ∧
      s.sameRegsBut ([0x504C, 0x5048, 0x70] ++ causeRegs .prot 0 ++ causeRegs .sys 0) t ∧ s.sameMem t)

/-- R491: the first emission of a command in mode 2 records its start, in µs of the time base modulo 2^32; later emissions leave it. -/
def Obligations.ProbeTxTime : Prop :=
  ∀ (s : State) (l : Option Int) (pow : Powers), s.busUp = true → s.rd F.PROBE_CMD_GO = 1 → s.rd F.PROBE_STAT_STATE = 2 → s.rd F.PROBE_CFG_MODE = 2 →
    (∀ x, l = some x → x < ofField 16 (s.rd F.PROBE_OCC_THR_DBM)) → s.pwr.trans = none → ∃ t : State,
      exec (.probeSettleDone l pow) s = .next t ∧ t.rd F.PROBE_STAT_STATE = 3 ∧ t.probe.emitted = true ∧
      (s.probe.emitted = false → t.rd F.PROBE_TX_TIME = s.nowUs) ∧ (s.probe.emitted = true → t.rd F.PROBE_TX_TIME = s.rd F.PROBE_TX_TIME) ∧
      s.nowUs < 2 ^ 32 ∧ s.sameRegsBut [0x14058, 0x14064] t ∧ s.sameMem t

/-- R125: bit i of IRQ.SRC[g] is set exactly while the i-th page of group g, in address order, holds an enabled cause; the register reads
so; a group's bit of IRQ.SUMMARY is set while one of them is. Groups 10, 14 and 15 hold the pages the rule names. -/
def Obligations.IrqSources : Prop :=
  (∀ (s : State) (g : Fin 16) (i : Nat) (t : PageType) (k : Nat), (pagesOfGroup g)[i]? = some (t, k) →
    (bit (s.irqSrc g) i = true ↔ s.rd (F.CAUSE t k) &&& s.rd (F.CAUSE_EN t k) ≠ 0)) ∧
  (∀ (s : State) (g : Fin 16) (i : Nat), (pagesOfGroup g).length ≤ i → bit (s.irqSrc g) i = false) ∧
  (∀ (s : State) (g : Fin 16), (bit s.irqSummary g = true ↔ s.irqSrc g ≠ 0) ∧ s.pageWord 0 .irq 0 (0x100 + 4 * g) = BitVec.ofNat 32 (s.irqSrc g)) ∧
  (∀ (g : Fin 16) (t : PageType) (k : Nat), (t, k) ∈ pagesOfGroup g ↔ t.group = some (g : Nat) ∧ k < t.map.2.1) ∧
  (∀ g : Fin 16, (pagesOfGroup g).Pairwise fun a b => a.1.base a.2 < b.1.base b.2) ∧
  pagesOfGroup 10 = (List.range 8).map (fun i => (PageType.ofdm, i)) ++ (List.range 16).map (fun i => (PageType.ana, i)) ∧
  pagesOfGroup 14 = [(.sched, 0), (.strm, 0), (.store, 0), (.data, 0)] ∧ pagesOfGroup 15 = [(.probe, 0), (.casc, 0)]

/-- R461: a queue's credit is full when it is created; a tick adds RATE_KBPS bits up to the cap of BURST_KIB × 8192 bits; a packet larger
than the cap is policed each time; with RATE_KBPS at 0 no credit is kept and only the quota limits admission. -/
def Obligations.CreditRule : Prop :=
  (∀ (s : State) (n : Nat), n < 128 → ((s.makeQueue n).queue n).credit = (s.ham n).req.rate % 0x10000 * 8192 ∧
    ((s.makeQueue n).queue n).pkts = [] ∧ ((s.makeQueue n).queue n).live = true) ∧
  (∀ (s : State) (n : Fin 128), s.busUp = true → (s.queue n).live = true → 0 < (s.ham n).req.rate / 0x10000 → ∃ t : State, exec (.creditTick n) s = .next t ∧
    (t.queue n).credit = min ((s.ham n).req.rate % 0x10000 * 8192) ((s.queue n).credit + (s.ham n).req.rate / 0x10000) ∧
    (∀ m : Nat, m ≠ n → t.queue m = s.queue m) ∧ (∀ a, t.reg a = s.reg a) ∧ s.sameMem t) ∧
  (∀ (s : State) (n : Fin 128), (s.ham n).req.rate / 0x10000 = 0 → exec (.creditTick n) s = .next s) ∧
  (∀ (s : State) (n : Fin 128) (i : Item), s.busUp = true → (s.sched.items.find? fun i => decide (i.hamper = (n : Nat))) = some i →
    (s.queue n).live = true → i.payload.length ≤ 65535 → s.on (F.SCHED_QCFG_GATE_ADMIT n) = false → s.on (F.SCHED_QSTAT0_OVER n) = false →
    (s.queue n).used + 4 * (s.packetOf n i).size ≤ s.quota n →
    (0 < (s.ham n).req.rate / 0x10000 → (s.queue n).credit ≤ s.qCap n → s.qCap n < 32 * (s.packetOf n i).size → ∃ t : State,
      exec (.packetAdmit n false) s = .next t ∧ (t.queue n).pkts = (s.queue n).pkts ∧ (t.queue n).credit = (s.queue n).credit ∧
      t.rd (F.SCHED_QSTAT1_POLICED n) = min (s.rd (F.SCHED_QSTAT1_POLICED n) + 1) 0xFFFF) ∧
    ((s.ham n).req.rate / 0x10000 = 0 → i.ok = true → ∃ u : State, exec (.packetAdmit n false) s = .next (u.publishQueue n) ∧
      (u.queue n).pkts = (s.queue n).pkts ++ [s.packetOf n i] ∧ (u.queue n).credit = (s.queue n).credit))

/-- Right after power-on the device is held in reset with its XO stopped, no command waits, no byte of memory is listed and every register
reads its reset word; the words of one register of each kind, and the Access Rights Table. (That a byte of memory nothing has written reads 0 is
the model's choice, assumption 21.) -/
def Obligations.ResetState : Prop :=
  State.reset.boot = Boot.held ∧ State.reset.clk.xo = Xo.stopped ∧ State.reset.pins.porHeld = true ∧ State.reset.pending = [] ∧
  State.reset.mem = [] ∧ State.reset.sched.items = [] ∧ State.reset.sched.queues = [] ∧ State.reset.data.envs = [] ∧ State.reset.twi.ibr = [] ∧
  (∀ a, State.reset.reg a = resetWord a) ∧
  (∀ (t : PageType) (i : Fin 24), i.val < t.map.2.1 → t ≠ .hamper → t ≠ .qw → State.reset.en t i = true ∧ State.reset.isExpert t i = false ∧
    State.reset.rd (F.CAUSE t i) = 0 ∧ State.reset.rd (F.LOCK t i) = 0) ∧
  (∀ k : Fin 81, State.reset.art k = if k.val = 3 ∨ k.val = 7 ∨ k.val = 77 then 0xFF else 0xDF) ∧
  State.reset.reg 0x1040 = 1 ∧ State.reset.reg 0x2044 = 0x101 ∧ State.reset.rd F.IRQ_GROUP_EN_EN = 0xFFFF ∧
  State.reset.reg 0x4050 = 0xFFFFFFFF ∧ State.reset.reg 0x8040 = 0x02006428 ∧ State.reset.reg 0x9044 = 0xFFFF ∧
  State.reset.reg 0xA040 = 0x03E80001 ∧ (∀ i : Fin 4, State.reset.reg (0xC040 + 0x1000 * i) = 0x80101000) ∧
  (∀ i : Fin 24, State.reset.reg (0x20414 + 0x1000 * i) = 1) ∧ (∀ i : Fin 8, State.reset.reg (0x38048 + 0x1000 * i) = 0x3C641E03) ∧
  State.reset.reg 0x52080 = 0xC5140F0A

/-- Right after reset the registers and the memory are in their one canonical form. -/
def Obligations.ResetCanonical : Prop := State.reset.canonical

/-- From every state whose registers and memory are in canonical form (addresses rise strictly, nothing listed reads as its default), a step,
whatever its command, leads to a state whose registers and memory are, and never faults or refuses. -/
def Obligations.StepKeepsCanonical : Prop :=
  ∀ s : State, s.canonical → ∃ t : State, step s = .next t ∧ t.canonical

/-- Each event of a cluster acts where the cluster's POWER code asks for it, and changes nothing elsewhere: a state without the XO, or
a cluster in another phase, is left as it was. What a fence does is `Obligations.ClusterPower`'s clause. -/
def Obligations.ClusterEventsComplete : Prop :=
  (∀ (s : State) (c : Fin 4), ∃ t, exec (.clusterPowerUpDone c) s = .next t ∧
    t.cpow c = (if s.cpow c = 1 ∧ s.clk.xo = Xo.stable then (if (s.clu c).unfencing || (s.clu c).testDue then 2 else 3) else s.cpow c) ∧
    (∀ k : Fin 4, k ≠ c → t.cpow k = s.cpow k) ∧ s.sameRegsBut [(F.CLUS_STAT_POWER c).addr] t ∧ s.sameMem t) ∧
  (∀ (s : State) (c : Fin 4), ∃ t, exec (.bankInitDone c) s = .next t ∧
    (t.clu c).bankReady = (decide (s.cpow c = 3 ∧ s.clk.xo = Xo.stable) || (s.clu c).bankReady) ∧
    (∀ a : Nat, t.byte a = if s.cpow c = 3 ∧ s.clk.xo = Xo.stable ∧ bankAddr (12 * c) ≤ a ∧ a < bankAddr (12 * c + 12) then 0 else s.byte a) ∧
    s.sameRegsBut [] t) ∧
  (∀ (s : State) (c : Fin 4), (s.clu c).unfencing = false → (∀ n : Nat, n < 24 → (s.lane n).due = false) →
    ∃ t, exec (.clusterClockStart c) s = .next t ∧
      t.cpow c = (if s.cpow c = 3 ∧ (s.clu c).bankReady = true ∧ s.rootOk = true then 4 else s.cpow c) ∧
      (∀ k : Fin 4, k ≠ c → t.cpow k = s.cpow k) ∧ s.sameRegsBut [(F.CLUS_STAT_POWER c).addr] t ∧ s.sameMem t) ∧
  (∀ (s : State) (c : Fin 4), ∃ t, exec (.fencePowerOff c) s = .next t ∧
    t.cpow c = (if s.busUp = true ∧ s.cpow c = 5 then 6 else s.cpow c) ∧
    (∀ k : Fin 4, k ≠ c → t.cpow k = s.cpow k) ∧ s.sameRegsBut [(F.CLUS_STAT_POWER c).addr] t ∧ s.sameMem t) ∧
  (∀ (s : State) (c : Fin 4), exec (.clusterClockStopped c) s =
    .next (if s.cpow c = 4 ∧ s.rootOk = true then s.faultFence c.val 3 else s)) ∧
  (∀ (s : State) (c : Fin 4) (pass : Bool), ∃ t, exec (.selftestDone c pass) s = .next t ∧
    (s.cpow c = 2 → s.clk.xo = Xo.stable → t.rd (F.CLUS_SELFTEST_VALID c) = 1 ∧ t.rd (F.CLUS_SELFTEST_PASS c) = b2n pass ∧
      (pass = true → t.cpow c = 3) ∧
      (pass = false → s.mgmtDenied fenceTask = none → bit (t.rd F.PWR_FENCE_FAULT) c = true ∧ bit (t.rd F.PWR_FENCE_FENCED) c = true ∧ t.rd (F.CLUS_STAT_FAULT_WHY c) = 1)) ∧
    (s.cpow c ≠ 2 ∨ s.clk.xo ≠ Xo.stable → t = s)) ∧
  (∀ (s : State) (lvl : Fin 4) (mask : BitVec 4),
    s.accepts lvl 0x2064 (putBits (fieldWord F.PWR_CLUS_CTRL_UNFENCE mask.toNat) 0 0 (s.rd F.PWR_CLUS_CTRL_IDLE_OFF)) 0xF →
    ∃ u, exec (.unfenceRequest lvl mask) s =
        .next (u.each ((List.range 4).filter fun c => bit mask.toNat c) State.unfenceReq).clusEvalAll ∧
      u.rd F.PWR_CLUS_CTRL_UNFENCE = 0 ∧ u.rd F.PWR_CLUS_CTRL_IDLE_OFF = s.rd F.PWR_CLUS_CTRL_IDLE_OFF ∧
      s.sameRegsBut [0x2064] u ∧ s.sameMem u) ∧
  (∀ (s : State) (c : Fin 4), ∃ t : State, s.unfenceReq c = t ∧ s.sameMem t ∧
    (bit (s.rd F.PWR_FENCE_FAULT) c = false → bit (s.rd F.PWR_FENCE_THERM) c = false → t = s))

/-- A store command that is accepted starts, one statement for each of the five; the events of the store act where the store waits for
them, and leave the machine as it was elsewhere. What ends a command is `Obligations.StoreEvents`'s clause. -/
def Obligations.StoreCommandsComplete : Prop :=
  (∀ (s : State) (lvl : Fin 4) (w : Word), s.accepts lvl 0xB048 (putBits w 31 28 1) 0xF →
    ∃ t : State, exec (.storeRead lvl w) s = .next t ∧
      t.data = { s.data with cmd := some { op := 1, basket := getBits w 27 24, arg := s.rd F.STORE_ARG, ofs := s.rd F.STORE_ARG_OFS, code := 1 } } ∧
      t.rd F.STORE_STAT_BUSY = 1 ∧ s.sameRegsBut [F.STORE_STAT_BUSY.addr] t ∧ s.sameMem t) ∧
  (∀ (s : State) (lvl : Fin 4) (w : Word), s.accepts lvl 0xB048 (putBits w 31 28 2) 0xF →
    ∃ t : State, exec (.storeNext lvl w) s = .next t ∧
      t.data = { s.data with cmd := some { op := 2, basket := getBits w 27 24, arg := s.rd F.STORE_ARG, ofs := s.rd F.STORE_ARG_OFS, code := 1 } } ∧
      t.rd F.STORE_STAT_BUSY = 1 ∧ s.sameRegsBut [F.STORE_STAT_BUSY.addr] t ∧ s.sameMem t) ∧
  (∀ (s : State) (lvl : Fin 4) (w : Word), s.accepts lvl 0xB048 (putBits w 31 28 3) 0xF →
    ∃ t : State, exec (.storeDelete lvl w) s = .next t ∧
      t.data = { s.data with cmd := some { op := 3, basket := getBits w 27 24, arg := s.rd F.STORE_ARG, ofs := s.rd F.STORE_ARG_OFS, code := 1 } } ∧
      t.rd F.STORE_STAT_BUSY = 1 ∧ s.sameRegsBut [F.STORE_STAT_BUSY.addr] t ∧ s.sameMem t) ∧
  (∀ (s : State) (lvl : Fin 4) (w : Word), s.accepts lvl 0xB048 (putBits w 31 28 4) 0xF →
    ∃ t : State, exec (.storeTrim lvl w) s = .next t ∧
      t.data = { s.data with cmd := some { op := 4, basket := getBits w 27 24, arg := s.rd F.STORE_ARG, ofs := s.rd F.STORE_ARG_OFS, code := 1 } } ∧
      t.rd F.STORE_STAT_BUSY = 1 ∧ s.sameRegsBut [F.STORE_STAT_BUSY.addr] t ∧ s.sameMem t) ∧
  (∀ (s : State) (lvl : Fin 4) (w : Word), s.accepts lvl 0xB048 (putBits w 31 28 5) 0xF →
    ∃ t : State, exec (.storeFormat lvl w) s = .next t ∧
      t.data = { s.data with cmd := some { op := 5, basket := getBits w 27 24, arg := s.rd F.STORE_ARG, ofs := s.rd F.STORE_ARG_OFS, code := 1 } } ∧
      t.rd F.STORE_STAT_BUSY = 1 ∧ s.sameRegsBut [F.STORE_STAT_BUSY.addr] t ∧ s.sameMem t) ∧
  (∀ (s : State) (intact : Bool), (s.busUp = false ∨ s.data.cmd = none ∨ s.en .store = false) → exec (.storeCmdDone intact) s = .next s) ∧
  (∀ (s : State) (intact : Bool) (c : StoreCmd), s.busUp = true → s.en .store = true → s.data.cmd = some c → c.op = 2 →
    ∃ t : State, exec (.storeCmdDone intact) s = .next t ∧ t.data.cmd = none ∧ t.rd F.STORE_STAT_BUSY = 0 ∧ t.rd F.STORE_RESULT_DONE = 1 ∧
      t.rd F.STORE_RESULT_CODE = (if s.data.store.any (fun x => decide (x.basket = c.basket) && decide (c.arg ≤ x.num)) then 1 else 2) ∧
      t.data.store = s.data.store ∧ s.sameMem t) ∧
  (∀ (s : State) (intact : Bool) (c : StoreCmd), s.busUp = true → s.en .store = true → s.data.cmd = some c → c.op = 5 →
    s.data.writes = [] → ∃ t : State, exec (.storeCmdDone intact) s = .next t ∧ t.data.cmd = none ∧ t.rd F.STORE_STAT_BUSY = 0 ∧
      t.rd F.STORE_RESULT_CODE = 1 ∧ t.data.store = [] ∧ t.data.nextNum = 1 ∧ t.rd F.STORE_STAT_STATE = 2 ∧ t.data.hwm = s.data.hwm) ∧
  (∀ s : State, (s.busUp = false ∨ s.data.writes = [] ∨ s.rd F.STORE_STAT_STATE ≠ 2) → exec .objectCommit s = .next s) ∧
  (∀ (s : State) (b : Nat) (o : Obj) (r : List (Nat × Obj)), s.busUp = true → s.data.writes = (b, o) :: r → s.rd F.STORE_STAT_STATE = 2 →
    s.mgmtDenied storeAccess = none → ∃ t : State, exec .objectCommit s = .next t ∧ t.data.writes = r ∧
      t.data.nextNum = s.data.nextNum + 1 ∧ s.sameMem t) ∧
  (∀ (s : State) (r : MountResult), (s.busUp = false ∨ s.rd F.STORE_STAT_STATE ≠ 1 ∨ s.en .store = false) →
    exec (.storeMountDone r) s = .next s) ∧
  (∀ (s : State) (r : MountResult), s.busUp = true → s.rd F.STORE_STAT_STATE = 1 → s.en .store = true → s.data.waiting = [] →
    ∃ t : State, exec (.storeMountDone r) s = .next t ∧ s.sameMem t ∧
      t.rd F.STORE_STAT_STATE = (match r with
        | .mounted _ => 2
        | .noDevice => 0
        | .noJournal _ => 3
        | .failed => 4
        | .otherKey => 5)) ∧
  (∀ (s : State) (final : Bool) (use : EmmcUse), (s.busUp = false ∨ final = false) → exec (.emmcCommandFail final use) s = .next s) ∧
  (∀ s : State, s.busUp = true → s.data.fails < 7 →
    (∃ t : State, exec (.emmcCommandFail true .other) s = .next t ∧ t.data = { s.data with fails := s.data.fails + 1 } ∧
      t.rd F.STORE_COUNT_EMMC_ERR = min (s.rd F.STORE_COUNT_EMMC_ERR + 1) 0xFFFF) ∧
    (∃ t : State, exec (.emmcCommandFail true .objectWrite) s = .next t ∧
      t.data = { s.data with fails := s.data.fails + 1, writes := s.data.writes.drop 1 } ∧
      t.rd F.STORE_COUNT_EMMC_ERR = min (s.rd F.STORE_COUNT_EMMC_ERR + 1) 0xFFFF) ∧
    (∀ c : StoreCmd, s.data.cmd = some c → ∃ t : State, exec (.emmcCommandFail true .storeCmd) s = .next t ∧
      t.data = { s.data with fails := s.data.fails + 1, cmd := none } ∧ t.rd F.STORE_RESULT_CODE = 4 ∧ t.rd F.STORE_STAT_BUSY = 0))

/-- Where the domains but AON have stopped (cold reset, boot before the XO, a failed XO, Sleep), what their blocks would do does not
happen (R51, R72); where the clocks that follow the root PLL have stopped, the engines do nothing (R56, R62). -/
def Obligations.StoppedDomains : Prop :=
  (∀ s : State, s.busUp = false →
    exec .patchImageReadDone s = .next s ∧
    exec .emmcReadyTimeout s = .next s ∧
    (∀ (ok : Bool) (ver : BitVec 16), exec (.patchVerifyDone ok ver) s = .next s) ∧
    (∀ (ok : Bool) (o : OtpRead), exec (.warmBootDone ok o) s = .next s) ∧
    (∀ (c : Fin 4), exec (.fencePowerOff c) s = .next s) ∧
    exec .hostCfgApply s = .next s ∧
    exec .ctlBusNotFree s = .next s ∧
    (∀ (ibr : Bool) (wrote : Fin 33) (rx : List (BitVec 8)), exec (.arbLost ibr wrote rx) s = .next s) ∧
    (∀ (addr : Bool) (wrote : Fin 33), exec (.ctlNack addr wrote) s = .next s) ∧
    (∀ (wrote : Fin 33) (rx : List (BitVec 8)), exec (.ctlSclHeld wrote rx) s = .next s) ∧
    (∀ (rx : List (BitVec 8)), exec (.ctlDone rx) s = .next s) ∧
    (∀ (pulses : Fin 10) (freed : Bool), exec (.recoveryAttemptDone pulses freed) s = .next s) ∧
    exec .recoveryRetry s = .next s ∧
    (∀ (ack : Bool) (extra : BitVec 8), exec (.ibrSend ack extra) s = .next s) ∧
    exec .ibrSclTimeout s = .next s ∧
    exec .ibrRetry s = .next s ∧
    (∀ (i : Fin 4) (rms4 : Int), exec (.agcWindowEnd i rms4) s = .next s) ∧
    (∀ (i : Fin 4) (rms4 : Int), exec (.agcStepSlot i rms4) s = .next s) ∧
    (∀ (i : Fin 4), exec (.filtSettleEnd i) s = .next s) ∧
    (∀ (i : Fin 4) (mv : Nat), exec (.antSenseSample i mv) s = .next s) ∧
    (∀ (i : Fin 4), exec (.antRetry i) s = .next s) ∧
    (∀ (i : Fin 4), exec (.antBlankEnd i) s = .next s) ∧
    exec .passPublish s = .next s ∧
    (∀ (n : Fin 128), exec (.qualityTrigger n) s = .next s) ∧
    (∀ (u : Fin 2) (r : LdpcResult), exec (.ldpcBlockDone u r) s = .next s) ∧
    (∀ (u : Fin 2) (who : Option (Fin 128)), exec (.poolWait u who) s = .next s) ∧
    (∀ (n : Fin 128), exec (.foundTimeout n) s = .next s) ∧
    (∀ (w : Fin 128) (bearer : Fin 7) (freq : Word), exec (.badHoldExpiry w bearer freq) s = .next s) ∧
    (∀ (n : Fin 128) (win : AlignWin), exec (.alignWindow n win) s = .next s) ∧
    (∀ (n : Fin 128), exec (.blendDone n) s = .next s) ∧
    (∀ (n : Fin 128), exec (.standingDelayRemoved n) s = .next s) ∧
    (∀ (n : Fin 4) (drop : Bool), exec (.audSlip n drop) s = .next s) ∧
    (∀ (n : Fin 4) (p : Fin 8) (right : Bool), exec (.zcChange n p right) s = .next s) ∧
    (∀ (n : Fin 4) (p : Fin 8), exec (.zcTimeout n p) s = .next s) ∧
    (∀ (h : Fin 128) (b : AssyBlock), exec (.assyBlock h b) s = .next s) ∧
    (∀ (h : Fin 128) (src : Fin 5) (id : BitVec 32), exec (.assyTimeout h src id) s = .next s) ∧
    (∀ (final : Bool) (use : EmmcUse), exec (.emmcCommandFail final use) s = .next s) ∧
    (∀ (r : MountResult), exec (.storeMountDone r) s = .next s) ∧
    exec .objectCommit s = .next s ∧
    (∀ (intact : Bool), exec (.storeCmdDone intact) s = .next s) ∧
    (∀ (intact : Bool), exec (.envelopeVerifyDone intact) s = .next s) ∧
    exec .envelopeCommit s = .next s ∧
    exec .otpBurnDone s = .next s ∧
    exec .noticeWindowFilled s = .next s ∧
    exec .ppsLoss s = .next s ∧
    exec .timeSetDiscard s = .next s ∧
    exec .utcChange s = .next s ∧
    (∀ (avg : BitVec 24), exec (.thermosLearn avg) s = .next s) ∧
    exec .timeStepApply s = .next s ∧
    exec .itinWindowStart s = .next s ∧
    exec .timeAlarm s = .next s ∧
    (∀ (sec : BitVec 48) (uncert : BitVec 32) (delayNs : Nat), exec (.cascadeMarker sec uncert delayNs) s = .next s) ∧
    (∀ (n : Fin 128) (broken : Bool), exec (.packetAdmit n broken) s = .next s) ∧
    (∀ (n : Fin 128), exec (.creditTick n) s = .next s) ∧
    exec .schedTrimDone s = .next s ∧
    (∀ (broken : Bool), exec (.streamPacketSent broken) s = .next s) ∧
    (∀ (words : BitVec 16), exec (.streamReadyTimeout words) s = .next s) ∧
    exec .strmCfgApply s = .next s ∧
    (∀ (listen : Option Int) (pow : Powers), exec (.probeSettleDone listen pow) s = .next s) ∧
    (∀ (r : ProbeReading) (onsets : List (Fin 4 × Int)) (pow : Powers), exec (.probeDwellEnd r onsets pow) s = .next s) ∧
    (∀ (bins : List SpecBin), exec (.probeMaskViolation bins) s = .next s) ∧
    (∀ (n : Fin 24) (pow : Powers), exec (.probeOccupancy n pow) s = .next s) ∧
    exec .probeTxLate s = .next s ∧
    exec .probeLockLoss s = .next s ∧
    (∀ (w : Fin 1638400) (reader : Option (Fin 2)), exec (.scrubWriteback w reader) s = .next s) ∧
    exec .testSlot s = .next s ∧
    (∀ (fail : Bool) (corr : List (Fin 512)) (bad : List (Fin 512 × BitVec 64 × Option Bank49)), exec (.marchDone fail corr bad) s = .next s) ∧
    (∀ (fail : Bool), exec (.marchAbort fail) s = .next s) ∧
    exec .restoreDone s = .next s ∧
    (∀ (b : Fin 50), exec (.corrWindow b) s = .next s) ∧
    (∀ (c : Fin 4), exec (.uncorrQuietReset c) s = .next s) ∧
    (∀ (p : Fin 2) (peer : Fin 4) (rtt : BitVec 12) (bnd : Fin 480) (chain : Bool) (reach : BitVec 4), exec (.linkTrained p peer rtt bnd chain reach) s = .next s) ∧
    (∀ (p : Fin 2) (code : BitVec 8) (crc : BitVec 8), exec (.linkDown p code crc) s = .next s) ∧
    (∀ (p : Fin 2) (code : BitVec 8) (crc : BitVec 8), exec (.linkTrainRetry p code crc) s = .next s) ∧
    exec .tunnelRetry s = .next s ∧
    (∀ (refused : Fin 17) (data : List Word), exec (.tunnelAck refused data) s = .next s) ∧
    (∀ (d : Fin 4) (group : BitVec 16) (xs : List (Fin 8 × Bool)), exec (.remoteIrqFrame d group xs) s = .next s) ∧
    (∀ (k : Fin 8), exec (.exportLate k) s = .next s) ∧
    exec .masterLost s = .next s ∧
    (∀ (n : Fin 128), exec (.holdoffExpiry n) s = .next s) ∧
    exec .markerLoss s = .next s ∧
    exec .slewEnd s = .next s ∧
    (∀ (k : Fin 8) (en : Bool) (hamper : Fin 128) (prio : Fin 256) (bearer : Fin 7) (freq : Word) (mask : BitVec 4) (branches : Fin 5) (ofs : BitVec 24), exec (.exportRequestReceived k en hamper prio bearer freq mask branches ofs) s = .next s)) ∧
  (∀ s : State, s.rootOk = false →
    (∀ (w : Fin 128) (r : MeasResult), exec (.measureDone w r) s = .next s) ∧
    (∀ (w : Fin 128) (r : MeasResult), exec (.verifyDone w r) s = .next s) ∧
    (∀ (w : Fin 128) (r : MeasResult) (entries : List BeaconEntry), exec (.beaconPeriod w r entries) s = .next s) ∧
    (∀ (n : Fin 24) (trim : Int), exec (.trimRequest n trim) s = .next s) ∧
    (∀ (n : Fin 24) (sat : Bool), exec (.satWindow n sat) s = .next s) ∧
    (∀ (e : Fin 16) (w : AnaWin), exec (.anaWindow e w) s = .next s) ∧
    (∀ (e : Fin 16), exec (.anaAcqTimeout e) s = .next s) ∧
    (∀ (e : Fin 16) (adj4 : Int), exec (.anaBwDecision e adj4) s = .next s) ∧
    (∀ (e : Fin 16) (b : RdsBlock), exec (.rdsBlock e b) s = .next s) ∧
    (∀ (e : Fin 8) (y : OfdmSym), exec (.ofdmSymbol e y) s = .next s) ∧
    (∀ (e : Fin 8) (f : OfdmFrame), exec (.ofdmFrame e f) s = .next s) ∧
    (∀ (e : Fin 8), exec (.ofdmAcqTimeout e) s = .next s) ∧
    (∀ (e : Fin 8) (f : Fib), exec (.fibDecoded e f) s = .next s) ∧
    (∀ (e : Fin 8) (f : LogicalFrame), exec (.logicalFrameDecoded e f) s = .next s) ∧
    (∀ (e : Fin 8) (f : Superframe), exec (.superframeDecoded e f) s = .next s) ∧
    (∀ (e : Fin 8) (subs : List (Fin 64)) (gone : List (Fin 128)), exec (.reconfigApply e subs gone) s = .next s) ∧
    (∀ (e : Fin 8) (f : DrmFrame), exec (.drmFrameDecoded e f) s = .next s) ∧
    (∀ (e : Fin 8) (f : T2L1), exec (.t2L1Decoded e f) s = .next s) ∧
    (∀ (e : Fin 8) (who : Option (Fin 128)) (plp : BitVec 8) (common : Bool), exec (.ldpcBlockArrive e who plp common) s = .next s) ∧
    (∀ (u : Fin 4) (c : CifPair), exec (.cifCombine u c) s = .next s) ∧
    exec .berWindow s = .next s)

/-- Sample arithmetic: the phase advances by FTW modulo 2^48 (R213); integrators and combs wrap modulo 2^42, each taking what the one
before gives (R216); S is 5 x log2 K rounded up (R217); a saturating stage marks what it clips (R230); the output word (R209); the
lines keep their newest 128 and 528 samples (R219, R225); what a restart keeps (R216, R229); what a lane with no input gives (R231).
Roundings go halves upward and the tables are free values: the model's choices of assumptions 5 and 96. -/
def Obligations.LaneDataPath : Prop :=
  (∀ (d : DspSt) (ftw : Nat) (x : Int), (d.mix ftw x).1 = { d with phase := (d.phase + ftw) % 2 ^ 48 } ∧
    (d.mix ftw x).2 = (clip 12 (roundShift 17 (x * ncoCos (d.phase / 2 ^ 28))), clip 12 (roundShift 17 (-(x * ncoSin (d.phase / 2 ^ 28)))))) ∧
  (∀ p : Nat, -(2 ^ 17 - 1 : Int) ≤ ncoCos p ∧ ncoCos p ≤ 2 ^ 17 - 1 ∧ -(2 ^ 17 - 1 : Int) ≤ ncoSin p ∧ ncoSin p ≤ 2 ^ 17 - 1 ∧
    wave (p + 2 ^ 19) = (-(wave p).1, -(wave p).2) ∧ wave (p + 2 ^ 20) = wave p) ∧
  (∀ (l : List Nat) (a : Nat) (x : Int), integrate [] x = [] ∧
    integrate (a :: l) x = (a + (x % 2 ^ 42).toNat) % 2 ^ 42 :: integrate l (((a + (x % 2 ^ 42).toNat) % 2 ^ 42 : Nat) : Int)) ∧
  (∀ (l : List Nat) (y z : Nat), comb [] y = ([], y) ∧ (comb (z :: l) y).1 = y :: (comb l ((y + 2 ^ 42 - z) % 2 ^ 42)).1 ∧
    (comb (z :: l) y).2 = (comb l ((y + 2 ^ 42 - z) % 2 ^ 42)).2) ∧
  (∀ (d : DspSt) (k : Nat) (x : Smp), (d.cic k x).1.intI = integrate d.intI x.i ∧ (d.cic k x).1.intQ = integrate d.intQ x.q ∧
    ((d.cic k x).2 = none ↔ d.count + 1 < k) ∧
    (d.count + 1 < k → (d.cic k x).1.count = d.count + 1 ∧ (d.cic k x).1.combI = d.combI ∧ (d.cic k x).1.combQ = d.combQ) ∧
    (k ≤ d.count + 1 → (d.cic k x).1.count = 0 ∧ (d.cic k x).1.combI = (comb d.combI ((integrate d.intI x.i).getLast?.getD 0)).1 ∧
      (∀ y : Smp, (d.cic k x).2 = some y → y.sat = false ∧
        y.i = roundShift (cicShift k - 12) (ofField 42 (comb d.combI ((integrate d.intI x.i).getLast?.getD 0)).2)))) ∧
  (∀ k : Nat, 8 ≤ k → k ≤ 64 → k ^ 5 ≤ 2 ^ cicShift k ∧ 2 ^ (cicShift k - 1) < k ^ 5) ∧
  (∀ (x : Smp) (n : Nat), 0 < n → -(2 ^ (n - 1) : Int) ≤ (x.clip n).i ∧ (x.clip n).i < 2 ^ (n - 1) ∧ -(2 ^ (n - 1) : Int) ≤ (x.clip n).q ∧
    (x.clip n).q < 2 ^ (n - 1) ∧ (x.clip n).mark = x.mark ∧ (x.clip n).event = x.event ∧
    ((x.clip n).sat = false ↔ x.sat = false ∧ (x.clip n).i = x.i ∧ (x.clip n).q = x.q) ∧
    (-(2 ^ (n - 1) : Int) ≤ x.i → x.i < 2 ^ (n - 1) → (x.clip n).i = x.i)) ∧
  (∀ (x : Smp) (v : Bool), x.word v / 2 ^ 22 = toField 18 x.i ∧ x.word v / 16 % 2 ^ 18 = toField 18 x.q ∧ bit (x.word v) 3 = v ∧
    bit (x.word v) 2 = x.sat ∧ bit (x.word v) 1 = x.event ∧ bit (x.word v) 0 = x.mark ∧ x.word v < 2 ^ 40) ∧
  (∀ (b : HbSt) (x : Smp), ((b.push x).2 = none ↔ b.odd = false) ∧ (b.push x).1.line = (x :: b.line).take 31 ∧
    ∀ y : Smp, (b.push x).2 = some y → y.event = (b.event || x.event) ∧
      (y.mark = true ↔ (x :: b.line).length < 31 ∨ ∃ z, z ∈ (x :: b.line).take 31 ∧ z.mark = true)) ∧
  (∀ (d : DspSt) (f2 : Bool) (bank : BankSt) (x : Smp), (d.fir f2 bank x).1.line = (x :: d.line).take 128 ∧
    ((d.fir f2 bank x).2 = none ↔ f2 = true ∧ d.odd = false) ∧
    ∀ y : Smp, (d.fir f2 bank x).2 = some y → y.event = (d.event || x.event) ∧
      (y.mark = true ↔ 0 < d.swapLeft ∨ (x :: d.line).length < 128 ∨ ∃ z, z ∈ (x :: d.line).take 128 ∧ z.mark = true)) ∧
  (∀ (d : DspSt) (h : Nat), (d.restart h).phase = d.phase ∧ (d.restart h).intI = d.intI ∧ (d.restart h).intQ = d.intQ ∧
    (d.restart h).combI = DspSt.init.combI ∧ (d.restart h).combQ = DspSt.init.combQ ∧ (d.restart h).line = [] ∧ (d.restart h).hist = [] ∧
    (d.restart h).hb = List.replicate h { line := [], odd := false, event := false }) ∧
  (∀ (d : DspSt) (c : Chain), (d.begin c .fir).line = d.line ∧ (d.begin c .fir).event = true ∧
    (d.begin c .fir).swapLeft = (if c.f2 then 64 else 128) ∧ (d.begin c .output).hist = d.hist ∧ (d.begin c .output).jumped = true ∧
    (d.begin c .input).due = true) ∧
  (∀ (d : DspSt) (c : Chain) (delay : Nat) (invalid : Bool), (d.emit c delay invalid).fresh = true ∧
    bit (d.emit c delay invalid).word 3 = invalid ∧ (invalid = true → bit (d.emit c delay invalid).word 0 = true) ∧
    (d.jumped = true → bit (d.emit c delay invalid).word 1 = true) ∧
    (0 < d.jumpLeft ∨ 0 < d.extraLeft → bit (d.emit c delay invalid).word 0 = true)) ∧
  (∀ (s : State) (n : Nat), n < 24 → ∃ t : State, s.laneCycle n = t ∧ (∀ m : Nat, m ≠ n → t.lane m = s.lane m) ∧ s.sameRegsBut [] t ∧
    s.sameMem t ∧ t.pending = s.pending ∧ (t.lane n).chain = (s.lane n).chain ∧ (t.lane n).bank0 = (s.lane n).bank0 ∧
    (t.lane n).bank1 = (s.lane n).bank1 ∧ (t.lane n).runMarked = (s.lane n).runMarked)

/-- The Reset column of R39 for the balls that it gives a state, with assumption 103 for how long it holds; REFCLK_OUT (R41);
FILT_SEL held in Sleep (R39, R205); INT_N low when asserted (R123); a Stream Port without a packet (R469); the tie of a strap (R35). -/
def Obligations.SignalBalls : Prop :=
  (∀ s : State, s.ballsReset = true → (∀ i : Fin 4, s.ball (.filtA i) = .low ∧ s.ball (.filtB i) = .low ∧ s.ball (.antPwr i) = .low ∧
      s.ball (.antSense i) = .z) ∧ s.ball .twi = .z ∧ s.ball .alertN = .z ∧ s.ball .gpio = .pullDown ∧ s.ball .qspiCs = .pullUp ∧
    s.ball .qspiIo = .pullUp ∧ s.ball .ppsIn = .pullDown ∧ s.ball .resetN = .pullUp ∧ s.ball .strmReady = .pullDown ∧ s.ball .audMclk = .low ∧
    s.ball .emmcClk = .low ∧ s.ball .emmcData = .pullUp ∧ s.ball .emmcRst = .low ∧ (∀ p : Fin 2, s.ball (.trcTx p) = .idle) ∧
    ∀ n : Fin 4, s.ball (.audBclk n) = .z ∧ s.ball (.audFsync n) = .z ∧ s.ball (.audDout n) = .z) ∧
  (∀ s : State, s.ball .refclkOut = .clock 49152000 ↔
    s.clk.xo = Xo.stable ∧ s.pins.gpioSleep = false ∧ s.role = 0 ∧ s.on F.CASC_CFG_REFCLK_EN = true) ∧
  (∀ s : State, s.ball .refclkOut = .clock 49152000 ∨ s.ball .refclkOut = .low) ∧
  (∀ (s : State) (i : Fin 4), s.ballsReset = false → s.pins.gpioSleep = false →
    (s.ball (.filtA i) = .high ↔ s.rd (F.RFIN_FILT_CTRL_CODE i) % 2 = 1) ∧ (s.ball (.filtB i) = .high ↔ s.rd (F.RFIN_FILT_CTRL_CODE i) / 2 % 2 = 1) ∧
    (s.ball (.antPwr i) = .high ↔ s.on (F.RFIN_ANT_STAT_PWR i) = true)) ∧
  (∀ (s : State) (i : Fin 4), s.clk.xo = Xo.stable → s.pwr.trans = some .standbyToSleep → s.pwr.wakePend = 0 → ∀ pow ok,
    ∃ t : State, exec (.stateTransitionDone pow ok) s = .next t ∧ t.radio = 0 ∧ t.filtPins i = s.rd (F.RFIN_FILT_CTRL_CODE i)) ∧
  (∀ s : State, (s.ball .intN = .low ↔ s.intPin = true) ∧ (s.intPin = false → s.on F.IRQ_INT_CFG_MODE = false → s.ball .intN = .z)) ∧
  (∀ s : State, s.ball .alertN = .low → s.alertPin = true) ∧
  (∀ s : State, s.rd F.STRM_STAT_RUN = 0 → s.rd F.STRM_STAT_SENDING = 0 → s.ball .strmClk = .low) ∧
  (∀ s : State, (s.ball .strap = .pullDown ↔ s.pins.strapPull = true) ∧
    (∀ r1 r0 a1 a0 b t : StrapTie, s.boot = .held → s.pins.porHeld = false → s.pins.testEn = false →
      ∃ u : State, exec (.strapSample r1 r0 a1 a0 b t) s = .next u ∧ u.ball .strap = .input ∧
        (t ≠ .vddIo33 → u.rd F.SYS_STRAP_TWI_ADDR = 2 * b2n (decide (a1 = .vddIo33)) + b2n (decide (a0 = .vddIo33)) ∧
          u.rd F.SYS_STRAP_CASC_ROLE = 2 * b2n (decide (r1 = .vddIo33)) + b2n (decide (r0 = .vddIo33)))))

/-- What each event and command of a filter, an antenna supply, a lane and an analogue engine answers: the next state itself, on every
state that meets the conditions under which the spec lets it act. -/
def Obligations.RadioCommandsComplete : Prop :=
  (∀ (s : State) (i : Fin 4) (code zone : Nat), s.rootOk = true → (s.rfi i).filtDue = some (code, zone) → code < 4 →
    zone = s.rd (F.RFIN_FILT_CTRL_ZONE2 i) →
    ∃ t : State, exec (.filtSelChange i) s = .next t ∧ t.rd (F.RFIN_FILT_CTRL_CODE i) = code ∧ t.rd (F.RFIN_FILT_CTRL_ZONE2 i) = zone ∧
      (t.rfi i).filtDue = none ∧
      (t.rfi i).settling = ((s.rfi i).settling || (decide (code ≠ s.rd (F.RFIN_FILT_CTRL_CODE i)) && decide (0 < s.rd (F.RFIN_FILT_CTRL_SETTLE i)))) ∧
      s.sameRegsBut [(F.RFIN_FILT_CTRL_CODE i).addr] t ∧ s.sameMem t) ∧
  (∀ (s : State) (i : Fin 4), s.busUp = true →
    ∃ t : State, exec (.filtSettleEnd i) s = .next t ∧ (t.rfi i).settling = false ∧ t.lanes = s.lanes ∧ s.sameRegsBut [] t ∧ s.sameMem t) ∧
  (∀ (s : State) (i : Fin 4) (mv : Nat), s.busUp = true → s.rd (F.RFIN_ANT_STAT_PWR i) = 1 →
    ∃ t : State, exec (.antSenseSample i mv) s = .next t ∧ t.rd (F.RFIN_ANT_STAT_SENSE_MV i) = min mv 1200 ∧ s.sameMem t ∧
      ((s.rfi i).blank = true → s.sameRegsBut [(F.RFIN_ANT_STAT_SENSE_MV i).addr] t) ∧
      ((s.rfi i).blank = false → s.rd (F.RFIN_ANT_THR_SHORT_MV i) < min mv 1200 → 1 ≤ (s.rfi i).shortRun →
        t.rd (F.RFIN_ANT_STAT_FAULT i) = (if 0 < s.rd (F.RFIN_ANT_STAT_RETRY_LEFT i) then 2 else 3) ∧
        t.rd (F.RFIN_ANT_STAT_PWR i) = 0 ∧ (t.rfi i).retryDue = decide (0 < s.rd (F.RFIN_ANT_STAT_RETRY_LEFT i)))) ∧
  (∀ (s : State) (i : Fin 4), s.busUp = true → (s.rfi i).retryDue = true →
    ∃ t : State, exec (.antRetry i) s = .next t ∧ (t.rfi i).retryDue = false ∧ (t.rfi i).retrying = true ∧
      t.rd (F.RFIN_ANT_STAT_RETRY_LEFT i) = s.rd (F.RFIN_ANT_STAT_RETRY_LEFT i) - 1 ∧
      (s.rd (F.RFIN_ANT_STAT_FAULT i) = 2 → s.en .rfin i = true → s.rd (F.RFIN_ANT_CTRL_MODE i) = 1 → t.rd (F.RFIN_ANT_STAT_PWR i) = 1) ∧
      s.sameRegsBut [(F.RFIN_ANT_STAT_RETRY_LEFT i).addr] t ∧ s.sameMem t) ∧
  (∀ (s : State) (i : Fin 4), s.busUp = true →
    ∃ t : State, exec (.antBlankEnd i) s = .next t ∧ (t.rfi i).blank = false ∧ t.lanes = s.lanes ∧ s.sameRegsBut [] t ∧ s.sameMem t) ∧
  (∀ (s : State) (lvl i : Fin 4) (w : Word), s.accepts lvl (0x100A0 + 0x1000 * i.val) (putBits w 2 2 1) 0xF →
    ∃ t : State, exec (.antRearm lvl i w) s = .next t ∧ t.rd (F.RFIN_ANT_CTRL_REARM i) = 0 ∧
      t.rd (F.RFIN_ANT_CTRL_RETRIES i) = getBits w 19 16 ∧ t.rd (F.RFIN_ANT_STAT_RETRY_LEFT i) = getBits w 19 16 ∧
      t.rd (F.RFIN_ANT_STAT_FAULT i) = 0 ∧ s.sameMem t) ∧
  (∀ (s : State) (n : Fin 24), s.rootOk = true → s.clusOn (n / 6) = true → s.laneExpert n = false → (s.lane n).due = true →
    s.rd (F.LANE_ASSIGN_PRESET n) ≠ 0 → s.rate (s.rd (F.LANE_ASSIGN_INPUT n)) ≠ 0 →
    ∃ t : State, exec (.laneApply n) s = .next t ∧ (t.lane n).run = true ∧ (t.lane n).due = false ∧
      (t.lane n).preset = s.rd (F.LANE_ASSIGN_PRESET n) ∧ (t.lane n).chain.input = s.rd (F.LANE_ASSIGN_INPUT n) ∧
      (s.rd (F.LANE_ASSIGN_ENG_VALID n) = 1 → (t.lane n).engine = s.engineKey n) ∧ s.sameMem t) ∧
  (∀ (s : State) (lvl : Fin 4) (n : Fin 24), s.accepts lvl (0x20428 + 0x1000 * n.val) 1 0xF →
    ∃ t : State, exec (.laneXApply lvl n) s = .next t ∧ t.rd (F.LANE_X_APPLY_APPLY n) = 1 ∧
      t.rd (F.LANE_X_APPLY_SWAP n) = s.rd (F.LANE_X_APPLY_SWAP n) ∧ s.sameRegsBut [0x20428 + 0x1000 * n.val] t ∧ s.sameMem t) ∧
  (∀ (s : State) (lvl : Fin 4) (n : Fin 24), s.accepts lvl (0x20428 + 0x1000 * n.val) 2 0xF →
    ∃ t : State, exec (.laneSwap lvl n) s = .next t ∧ t.rd (F.LANE_X_APPLY_SWAP n) = 1 ∧
      t.rd (F.LANE_X_APPLY_APPLY n) = s.rd (F.LANE_X_APPLY_APPLY n) ∧ s.sameRegsBut [0x20428 + 0x1000 * n.val] t ∧ s.sameMem t) ∧
  (∀ (s : State) (n : Fin 24), s.rootOk = true → s.clusOn (n / 6) = true →
    ((s.lane n).swapDue = true ∨ s.rd (F.LANE_X_APPLY_SWAP n) = 1) →
    ∃ t : State, exec (.bankSwap n) s = .next t ∧ t.rd (F.LANE_STAT_ACTIVE_BANK n) = 1 - s.rd (F.LANE_STAT_ACTIVE_BANK n) ∧
      (t.lane n).swapDue = false ∧ t.rd (F.LANE_X_APPLY_SWAP n) = 0 ∧
      (s.en .lane n = true → bit (t.rd (F.CAUSE .lane n)) C.LANE_BANK_SWAPPED = true) ∧ s.sameMem t) ∧
  (∀ (s : State) (n : Fin 24), s.rootOk = true → s.clusOn (n / 6) = true → (s.lane n).delayDue = true →
    ∃ t : State, exec (.delayJump n) s = .next t ∧ t.rd (F.LANE_DELAY_NOW n) = s.rd (F.LANE_DELAY_TARGET n) ∧ (t.lane n).delayDue = false ∧
      s.raises .lane C.LANE_DELAY_SET n t ∧
      s.sameRegsBut ((0x20048 + 0x1000 * n.val) :: (0x20050 + 0x1000 * n.val) :: causeRegs .lane n) t ∧ s.sameMem t) ∧
  (∀ (s : State) (n : Fin 24), s.rootOk = true → s.clusOn (n / 6) = true → s.rd (F.LANE_STAT_SLEWING n) = 1 →
    s.rd (F.LANE_DELAY_NOW n) < s.rd (F.LANE_DELAY_TARGET n) →
    ∃ t : State, exec (.delaySlewStep n) s = .next t ∧ t.rd (F.LANE_DELAY_NOW n) = s.rd (F.LANE_DELAY_NOW n) + 1 ∧
      t.rd (F.LANE_STAT_SLEWING n) = (if s.rd (F.LANE_DELAY_NOW n) + 1 = s.rd (F.LANE_DELAY_TARGET n) then 0 else 1) ∧
      s.sameRegsBut ((0x20048 + 0x1000 * n.val) :: (0x20050 + 0x1000 * n.val) :: causeRegs .lane n) t ∧ s.sameMem t) ∧
  (∀ (s : State) (n : Fin 24) (who : DelayWriter) (target : BitVec 14), (∀ lvl : Fin 4, who ≠ .host lvl) → s.rootOk = true →
    ∃ t : State, exec (.delayTargetWrite n who false target) s = .next t ∧ t.rd (F.LANE_DELAY_TARGET n) = target.toNat ∧
      t.rd (F.LANE_DELAY_MODE n) = 0 ∧ (t.lane n).delayDue = true ∧ t.rd (F.LANE_STAT_SLEWING n) = 0 ∧
      t.rd (F.LANE_DELAY_NOW n) = s.rd (F.LANE_DELAY_NOW n) ∧ s.sameMem t) ∧
  (∀ (s : State) (n : Fin 24) (trim lim : Int), s.rootOk = true → s.laneRunning n = true → 1 ≤ (s.lane n).engine → (s.lane n).engine < 17 →
    (s.ofdmS ((s.lane n).engine - 1)).trimmed = false → (s.lane n).chain.hold = false → lim = ((s.lane n).chain.ratio / 1000 : Nat) →
    ∃ t : State, exec (.trimRequest n trim) s = .next t ∧ t.rd (F.LANE_TRIM n) = toField 32 (max (-lim) (min lim trim)) ∧
      (t.ofdmS ((s.lane n).engine - 1)).trimmed = true ∧ s.sameMem t) ∧
  (∀ (s : State) (n : Fin 24), s.rootOk = true → (s.lane n).runMarked = true → s.laneInterval n = false →
    (s.lane n).dsp.unsettled (s.lane n).chain (s.rd (F.LANE_DELAY_NOW n)) = false →
    ∃ t : State, exec (.settled n) s = .next t ∧ (t.lane n).runMarked = false ∧
      ((s.lane n).runSettles = true → s.raises .lane C.LANE_SETTLED n t) ∧ s.sameRegsBut (causeRegs .lane n) t ∧ s.sameMem t) ∧
  (∀ (s : State) (n : Fin 24) (sat : Bool), s.rootOk = true →
    ∃ t : State, exec (.satWindow n sat) s = .next t ∧
      bit (t.rd (F.CAUSE_RAW .lane n)) C.LANE_SATURATED = ((sat && s.laneRunning n) || (s.lane n).dsp.satSeen) ∧
      t.rd (F.LANE_COUNT_SAT_EVENTS n) = (if ((sat && s.laneRunning n) || (s.lane n).dsp.satSeen) = true then min (s.rd (F.LANE_COUNT_SAT_EVENTS n) + 1) 0xFFFF
        else s.rd (F.LANE_COUNT_SAT_EVENTS n)) ∧
      (t.lane n).dsp.satSeen = false ∧
      s.sameRegsBut ((0x2005C + 0x1000 * n.val) :: (F.CAUSE_RAW .lane n).addr :: causeRegs .lane n) t ∧ s.sameMem t) ∧
  (∀ (s : State) (e : Fin 16) (w : AnaWin), s.rootOk = true → s.engState (17 + e) = 1 → w.counted = true → (s.anaS e).det = 0 →
    ∃ t : State, exec (.anaWindow e w) s = .next t ∧ t.engState (17 + e) = 1 ∧ t.rd (F.ANA_LEVEL_LEVEL_DBM e) = toField 16 w.level4 ∧
      t.rd (F.ANA_LEVEL_ADJ_DBC e) = toField 16 w.adj4 ∧ t.rd (F.ANA_QUAL_CNR e) = toField 16 w.cnr4 ∧
      (t.anaS e).det = (if 4 * (s.rd (F.ANA_ACQ_CFG_DET_SNR e) : Int) ≤ w.cnr4 then 1 else 0) ∧ s.sameMem t) ∧
  (∀ (s : State) (e : Fin 16), s.rootOk = true → s.engState (17 + e) = 1 → (s.anaS e).timedOut = false →
    ∃ t : State, exec (.anaAcqTimeout e) s = .next t ∧ s.raises .ana C.ACQ_TIMEOUT e t ∧ (t.anaS e).timedOut = true ∧
      s.sameRegsBut (causeRegs .ana e) t ∧ s.sameMem t) ∧
  (∀ (s : State) (e : Fin 16) (adj4 : Int), s.rootOk = true → 2 ≤ s.engState (17 + e) →
    ∃ t : State, exec (.anaBwDecision e adj4) s = .next t ∧ t.rd (F.ANA_LEVEL_ADJ_DBC e) = toField 16 adj4 ∧
      (s.isAm e = false → s.rd (F.ANA_FM_CFG_BW_AUTO e) = 0 →
        (t.anaS e).bwDue.getD (t.rd (F.ANA_STAT_BW_IN_USE e)) = s.rd (F.ANA_FM_CFG_BW_FIX e)) ∧ s.sameMem t) ∧
  (∀ (s : State) (e : Fin 16) (b : RdsBlock), s.rootOk = true → s.rdsOn e b.stream = true → s.rd (F.ANA_ASSIGN_MODE e) = 1 →
    2 ≤ s.engState (17 + e) → b.burst = 0 → (tget RdsStream.init (s.anaS e).rds b.stream).sync = false →
    ((tget RdsStream.init (s.anaS e).rds b.stream).seek.all fun c => !decide (c.bit + 26 = b.bit)) = true →
    ∃ t : State, exec (.rdsBlock e b) s = .next t ∧ (tget RdsStream.init (t.anaS e).rds b.stream).sync = false ∧
      ({ bit := b.bit, slot := rdsSlot b.offset, info := b.info.toNat, cPrime := decide (b.offset = .cPrime), start := b.start.toNat } : RdsSeek) ∈
        (tget RdsStream.init (t.anaS e).rds b.stream).seek ∧ s.sameRegsBut [] t ∧ s.sameMem t)
end

