-- ==== Sys2Proof/Laws/Sparse.lean ====
section
/-! SUPPORT. Tables: what a read finds after a write, and that every write keeps the canonical form. -/
namespace Sys2Proof.Machine

variable {α : Type}

theorem tget_tins_same (d v : α) (k : Nat) (m : List (Nat × α)) : tget d (tins k v m) k = v := by
  induction m with
  | nil => simp [tins, tget]
  | cons p r ih =>
    obtain ⟨k', v'⟩ := p
    by_cases h1 : k < k'
    · simp [tins, h1, tget]
    · by_cases h2 : k = k'
      · simp [tins, h2, tget]
      · simp [tins, h1, h2, tget, Ne.symm h2, ih]

theorem tget_tins_ne (d v : α) {k j : Nat} (h : j ≠ k) (m : List (Nat × α)) : tget d (tins k v m) j = tget d m j := by
  induction m with
  | nil => simp [tins, tget, Ne.symm h]
  | cons p r ih =>
    obtain ⟨k', v'⟩ := p
    by_cases h1 : k < k'
    · simp [tins, h1, tget, Ne.symm h]
    · by_cases h2 : k = k'
      · subst h2
        simp [tins, tget, Ne.symm h]
      · simp [tins, h1, h2, tget, ih]

theorem tget_tdel_same (d : α) (k : Nat) (m : List (Nat × α)) : tget d (tdel k m) k = d := by
  induction m with
  | nil => rfl
  | cons p r ih =>
    obtain ⟨k', v'⟩ := p
    by_cases h : k' = k <;> simp [tdel, tget, h, ih]

theorem tget_tdel_ne (d : α) {k j : Nat} (h : j ≠ k) (m : List (Nat × α)) : tget d (tdel k m) j = tget d m j := by
  induction m with
  | nil => rfl
  | cons p r ih =>
    obtain ⟨k', v'⟩ := p
    by_cases h1 : k' = k
    · subst h1
      simp [tdel, tget, Ne.symm h, ih]
    · simp [tdel, tget, h1, ih]

variable [DecidableEq α]

/-- A read of the key just written finds the value written. -/
@[simp] theorem tget_tput_same (d v : α) (k : Nat) (m : List (Nat × α)) : tget d (tput d m k v) k = v := by
  unfold tput
  split
  · next h => rw [h, tget_tdel_same]
  · exact tget_tins_same d v k m

/-- A write leaves every other key alone, whatever the other key reads as when unlisted. -/
theorem tget_tput_ne (d e v : α) {k j : Nat} (h : j ≠ k) (m : List (Nat × α)) : tget e (tput d m k v) j = tget e m j := by
  unfold tput
  split
  · exact tget_tdel_ne e h m
  · exact tget_tins_ne e v h m

theorem twfFrom_mono (d : Nat → α) {lo lo' : Nat} (h : lo ≤ lo') (m : List (Nat × α)) (hw : twfFrom d lo' m = true) :
    twfFrom d lo m = true := by
  cases m with
  | nil => rfl
  | cons p r =>
    obtain ⟨k, v⟩ := p
    simp only [twfFrom, Bool.and_eq_true, decide_eq_true_eq] at hw ⊢
    exact ⟨⟨by omega, hw.1.2⟩, hw.2⟩

theorem tdel_eq_of_twfFrom (d : Nat → α) {k lo : Nat} (hk : k < lo) (m : List (Nat × α)) (hw : twfFrom d lo m = true) :
    tdel k m = m := by
  induction m generalizing lo with
  | nil => rfl
  | cons p r ih =>
    obtain ⟨k', v'⟩ := p
    simp only [twfFrom, Bool.and_eq_true, decide_eq_true_eq] at hw
    have h : k' ≠ k := by omega
    simp [tdel, h, ih (lo := k' + 1) (by omega) hw.2]

theorem twfFrom_tdel (d : Nat → α) (k lo : Nat) (m : List (Nat × α)) (hw : twfFrom d lo m = true) :
    twfFrom d lo (tdel k m) = true := by
  induction m generalizing lo with
  | nil => rfl
  | cons p r ih =>
    obtain ⟨k', v'⟩ := p
    simp only [twfFrom, Bool.and_eq_true, decide_eq_true_eq] at hw
    by_cases h : k' = k
    · simp only [tdel, h, if_true]
      exact ih lo (twfFrom_mono d (by omega) r hw.2)
    · simp only [tdel, h, if_false, twfFrom, Bool.and_eq_true, decide_eq_true_eq]
      exact ⟨hw.1, ih (k' + 1) hw.2⟩

theorem twfFrom_tins (d : Nat → α) {k lo : Nat} {v : α} (hk : lo ≤ k) (hv : v ≠ d k) (m : List (Nat × α))
    (hw : twfFrom d lo m = true) : twfFrom d lo (tins k v m) = true := by
  induction m generalizing lo with
  | nil => simp [tins, twfFrom, hk, hv]
  | cons p r ih =>
    obtain ⟨k', v'⟩ := p
    have hw' := hw
    simp only [twfFrom, Bool.and_eq_true, decide_eq_true_eq] at hw
    by_cases h1 : k < k'
    · simp only [tins, h1, if_true, twfFrom, Bool.and_eq_true, decide_eq_true_eq]
      exact ⟨⟨hk, hv⟩, ⟨by omega, hw.1.2⟩, hw.2⟩
    · by_cases h2 : k = k'
      · subst h2
        simp only [tins, Nat.lt_irrefl, if_false, if_true, twfFrom, Bool.and_eq_true, decide_eq_true_eq]
        exact ⟨⟨hk, hv⟩, hw.2⟩
      · simp only [tins, h1, h2, if_false, twfFrom, Bool.and_eq_true, decide_eq_true_eq]
        exact ⟨hw.1, ih (by omega) hw.2⟩

/-- Writing a table keeps its canonical form. -/
theorem twf_tput (d : Nat → α) (m : List (Nat × α)) (k : Nat) (v : α) (hw : twf d m = true) :
    twf d (tput (d k) m k v) = true := by
  unfold tput
  split
  · exact twfFrom_tdel d k 0 m hw
  · next h => exact twfFrom_tins d (Nat.zero_le k) h m hw

theorem twfFrom_filter (d : Nat → α) (p : Nat × α → Bool) (lo : Nat) (m : List (Nat × α)) (hw : twfFrom d lo m = true) :
    twfFrom d lo (m.filter p) = true := by
  induction m generalizing lo with
  | nil => rfl
  | cons q r ih =>
    obtain ⟨k, v⟩ := q
    simp only [twfFrom, Bool.and_eq_true, decide_eq_true_eq] at hw
    by_cases h : p (k, v) = true
    · rw [List.filter_cons_of_pos h]
      simp only [twfFrom, Bool.and_eq_true, decide_eq_true_eq]
      exact ⟨hw.1, ih (k + 1) hw.2⟩
    · rw [List.filter_cons_of_neg h]
      exact ih lo (twfFrom_mono d (by omega) r hw.2)

/-- Dropping entries keeps the canonical form. -/
theorem twf_filter (d : Nat → α) (p : Nat × α → Bool) (m : List (Nat × α)) (hw : twf d m = true) : twf d (m.filter p) = true :=
  twfFrom_filter d p 0 m hw

end Sys2Proof.Machine
end

