-- ==== Sys2Proof/Laws/State.lean ====
section
/-! SUPPORT. The fields of State under each update operation: what an operation does not name stays as it was. -/
namespace Sys2Proof.Machine
open Sys2Proof

/-! ### Register words -/

@[simp] theorem State.setReg_mem (s : State) (a : Nat) (v : Word) : (s.setReg a v).mem = s.mem := (rfl)
@[simp] theorem State.setReg_boot (s : State) (a : Nat) (v : Word) : (s.setReg a v).boot = s.boot := (rfl)
@[simp] theorem State.setReg_pins (s : State) (a : Nat) (v : Word) : (s.setReg a v).pins = s.pins := (rfl)
@[simp] theorem State.setReg_clk (s : State) (a : Nat) (v : Word) : (s.setReg a v).clk = s.clk := (rfl)
@[simp] theorem State.setReg_pwr (s : State) (a : Nat) (v : Word) : (s.setReg a v).pwr = s.pwr := (rfl)
@[simp] theorem State.setReg_rf (s : State) (a : Nat) (v : Word) : (s.setReg a v).rf = s.rf := (rfl)
@[simp] theorem State.setReg_lanes (s : State) (a : Nat) (v : Word) : (s.setReg a v).lanes = s.lanes := (rfl)
@[simp] theorem State.setReg_twi (s : State) (a : Nat) (v : Word) : (s.setReg a v).twi = s.twi := (rfl)
@[simp] theorem State.setReg_intGap (s : State) (a : Nat) (v : Word) : (s.setReg a v).intGap = s.intGap := (rfl)
@[simp] theorem State.setReg_place (s : State) (a : Nat) (v : Word) : (s.setReg a v).place = s.place := (rfl)
@[simp] theorem State.setReg_time (s : State) (a : Nat) (v : Word) : (s.setReg a v).time = s.time := (rfl)
@[simp] theorem State.setReg_sched (s : State) (a : Nat) (v : Word) : (s.setReg a v).sched = s.sched := (rfl)
@[simp] theorem State.setReg_ana (s : State) (a : Nat) (v : Word) : (s.setReg a v).ana = s.ana := (rfl)
@[simp] theorem State.setReg_ofdm (s : State) (a : Nat) (v : Word) : (s.setReg a v).ofdm = s.ofdm := (rfl)
@[simp] theorem State.setReg_fec (s : State) (a : Nat) (v : Word) : (s.setReg a v).fec = s.fec := (rfl)
@[simp] theorem State.setReg_watch (s : State) (a : Nat) (v : Word) : (s.setReg a v).watch = s.watch := (rfl)
@[simp] theorem State.setReg_follow (s : State) (a : Nat) (v : Word) : (s.setReg a v).follow = s.follow := (rfl)
@[simp] theorem State.setReg_adec (s : State) (a : Nat) (v : Word) : (s.setReg a v).adec = s.adec := (rfl)
@[simp] theorem State.setReg_aud (s : State) (a : Nat) (v : Word) : (s.setReg a v).aud = s.aud := (rfl)
@[simp] theorem State.setReg_data (s : State) (a : Nat) (v : Word) : (s.setReg a v).data = s.data := (rfl)
@[simp] theorem State.setReg_probe (s : State) (a : Nat) (v : Word) : (s.setReg a v).probe = s.probe := (rfl)
@[simp] theorem State.setReg_memT (s : State) (a : Nat) (v : Word) : (s.setReg a v).memT = s.memT := (rfl)
@[simp] theorem State.setReg_casc (s : State) (a : Nat) (v : Word) : (s.setReg a v).casc = s.casc := (rfl)
@[simp] theorem State.setReg_host (s : State) (a : Nat) (v : Word) : (s.setReg a v).host = s.host := (rfl)
@[simp] theorem State.setReg_free (s : State) (a : Nat) (v : Word) : (s.setReg a v).free = s.free := (rfl)
@[simp] theorem State.setReg_pending (s : State) (a : Nat) (v : Word) : (s.setReg a v).pending = s.pending := (rfl)

@[simp] theorem State.wr_mem (s : State) (f : Fld) (v : Nat) : (s.wr f v).mem = s.mem := (rfl)
@[simp] theorem State.wr_boot (s : State) (f : Fld) (v : Nat) : (s.wr f v).boot = s.boot := (rfl)
@[simp] theorem State.wr_pins (s : State) (f : Fld) (v : Nat) : (s.wr f v).pins = s.pins := (rfl)
@[simp] theorem State.wr_clk (s : State) (f : Fld) (v : Nat) : (s.wr f v).clk = s.clk := (rfl)
@[simp] theorem State.wr_pwr (s : State) (f : Fld) (v : Nat) : (s.wr f v).pwr = s.pwr := (rfl)
@[simp] theorem State.wr_rf (s : State) (f : Fld) (v : Nat) : (s.wr f v).rf = s.rf := (rfl)
@[simp] theorem State.wr_lanes (s : State) (f : Fld) (v : Nat) : (s.wr f v).lanes = s.lanes := (rfl)
@[simp] theorem State.wr_twi (s : State) (f : Fld) (v : Nat) : (s.wr f v).twi = s.twi := (rfl)
@[simp] theorem State.wr_intGap (s : State) (f : Fld) (v : Nat) : (s.wr f v).intGap = s.intGap := (rfl)
@[simp] theorem State.wr_place (s : State) (f : Fld) (v : Nat) : (s.wr f v).place = s.place := (rfl)
@[simp] theorem State.wr_time (s : State) (f : Fld) (v : Nat) : (s.wr f v).time = s.time := (rfl)
@[simp] theorem State.wr_sched (s : State) (f : Fld) (v : Nat) : (s.wr f v).sched = s.sched := (rfl)
@[simp] theorem State.wr_ana (s : State) (f : Fld) (v : Nat) : (s.wr f v).ana = s.ana := (rfl)
@[simp] theorem State.wr_ofdm (s : State) (f : Fld) (v : Nat) : (s.wr f v).ofdm = s.ofdm := (rfl)
@[simp] theorem State.wr_fec (s : State) (f : Fld) (v : Nat) : (s.wr f v).fec = s.fec := (rfl)
@[simp] theorem State.wr_watch (s : State) (f : Fld) (v : Nat) : (s.wr f v).watch = s.watch := (rfl)
@[simp] theorem State.wr_follow (s : State) (f : Fld) (v : Nat) : (s.wr f v).follow = s.follow := (rfl)
@[simp] theorem State.wr_adec (s : State) (f : Fld) (v : Nat) : (s.wr f v).adec = s.adec := (rfl)
@[simp] theorem State.wr_aud (s : State) (f : Fld) (v : Nat) : (s.wr f v).aud = s.aud := (rfl)
@[simp] theorem State.wr_data (s : State) (f : Fld) (v : Nat) : (s.wr f v).data = s.data := (rfl)
@[simp] theorem State.wr_probe (s : State) (f : Fld) (v : Nat) : (s.wr f v).probe = s.probe := (rfl)
@[simp] theorem State.wr_memT (s : State) (f : Fld) (v : Nat) : (s.wr f v).memT = s.memT := (rfl)
@[simp] theorem State.wr_casc (s : State) (f : Fld) (v : Nat) : (s.wr f v).casc = s.casc := (rfl)
@[simp] theorem State.wr_host (s : State) (f : Fld) (v : Nat) : (s.wr f v).host = s.host := (rfl)
@[simp] theorem State.wr_free (s : State) (f : Fld) (v : Nat) : (s.wr f v).free = s.free := (rfl)
@[simp] theorem State.wr_pending (s : State) (f : Fld) (v : Nat) : (s.wr f v).pending = s.pending := (rfl)

@[simp] theorem State.bump_mem (s : State) (f : Fld) : (s.bump f).mem = s.mem := (rfl)
@[simp] theorem State.bump_boot (s : State) (f : Fld) : (s.bump f).boot = s.boot := (rfl)
@[simp] theorem State.bump_pins (s : State) (f : Fld) : (s.bump f).pins = s.pins := (rfl)
@[simp] theorem State.bump_clk (s : State) (f : Fld) : (s.bump f).clk = s.clk := (rfl)
@[simp] theorem State.bump_pwr (s : State) (f : Fld) : (s.bump f).pwr = s.pwr := (rfl)
@[simp] theorem State.bump_rf (s : State) (f : Fld) : (s.bump f).rf = s.rf := (rfl)
@[simp] theorem State.bump_lanes (s : State) (f : Fld) : (s.bump f).lanes = s.lanes := (rfl)
@[simp] theorem State.bump_twi (s : State) (f : Fld) : (s.bump f).twi = s.twi := (rfl)
@[simp] theorem State.bump_intGap (s : State) (f : Fld) : (s.bump f).intGap = s.intGap := (rfl)
@[simp] theorem State.bump_place (s : State) (f : Fld) : (s.bump f).place = s.place := (rfl)
@[simp] theorem State.bump_time (s : State) (f : Fld) : (s.bump f).time = s.time := (rfl)
@[simp] theorem State.bump_sched (s : State) (f : Fld) : (s.bump f).sched = s.sched := (rfl)
@[simp] theorem State.bump_ana (s : State) (f : Fld) : (s.bump f).ana = s.ana := (rfl)
@[simp] theorem State.bump_ofdm (s : State) (f : Fld) : (s.bump f).ofdm = s.ofdm := (rfl)
@[simp] theorem State.bump_fec (s : State) (f : Fld) : (s.bump f).fec = s.fec := (rfl)
@[simp] theorem State.bump_watch (s : State) (f : Fld) : (s.bump f).watch = s.watch := (rfl)
@[simp] theorem State.bump_follow (s : State) (f : Fld) : (s.bump f).follow = s.follow := (rfl)
@[simp] theorem State.bump_adec (s : State) (f : Fld) : (s.bump f).adec = s.adec := (rfl)
@[simp] theorem State.bump_aud (s : State) (f : Fld) : (s.bump f).aud = s.aud := (rfl)
@[simp] theorem State.bump_data (s : State) (f : Fld) : (s.bump f).data = s.data := (rfl)
@[simp] theorem State.bump_probe (s : State) (f : Fld) : (s.bump f).probe = s.probe := (rfl)
@[simp] theorem State.bump_memT (s : State) (f : Fld) : (s.bump f).memT = s.memT := (rfl)
@[simp] theorem State.bump_casc (s : State) (f : Fld) : (s.bump f).casc = s.casc := (rfl)
@[simp] theorem State.bump_host (s : State) (f : Fld) : (s.bump f).host = s.host := (rfl)
@[simp] theorem State.bump_free (s : State) (f : Fld) : (s.bump f).free = s.free := (rfl)
@[simp] theorem State.bump_pending (s : State) (f : Fld) : (s.bump f).pending = s.pending := (rfl)

@[simp] theorem State.sat_mem (s : State) (f : Fld) (n : Nat) : (s.sat f n).mem = s.mem := (rfl)
@[simp] theorem State.sat_boot (s : State) (f : Fld) (n : Nat) : (s.sat f n).boot = s.boot := (rfl)
@[simp] theorem State.sat_pins (s : State) (f : Fld) (n : Nat) : (s.sat f n).pins = s.pins := (rfl)
@[simp] theorem State.sat_clk (s : State) (f : Fld) (n : Nat) : (s.sat f n).clk = s.clk := (rfl)
@[simp] theorem State.sat_pwr (s : State) (f : Fld) (n : Nat) : (s.sat f n).pwr = s.pwr := (rfl)
@[simp] theorem State.sat_rf (s : State) (f : Fld) (n : Nat) : (s.sat f n).rf = s.rf := (rfl)
@[simp] theorem State.sat_lanes (s : State) (f : Fld) (n : Nat) : (s.sat f n).lanes = s.lanes := (rfl)
@[simp] theorem State.sat_twi (s : State) (f : Fld) (n : Nat) : (s.sat f n).twi = s.twi := (rfl)
@[simp] theorem State.sat_intGap (s : State) (f : Fld) (n : Nat) : (s.sat f n).intGap = s.intGap := (rfl)
@[simp] theorem State.sat_place (s : State) (f : Fld) (n : Nat) : (s.sat f n).place = s.place := (rfl)
@[simp] theorem State.sat_time (s : State) (f : Fld) (n : Nat) : (s.sat f n).time = s.time := (rfl)
@[simp] theorem State.sat_sched (s : State) (f : Fld) (n : Nat) : (s.sat f n).sched = s.sched := (rfl)
@[simp] theorem State.sat_ana (s : State) (f : Fld) (n : Nat) : (s.sat f n).ana = s.ana := (rfl)
@[simp] theorem State.sat_ofdm (s : State) (f : Fld) (n : Nat) : (s.sat f n).ofdm = s.ofdm := (rfl)
@[simp] theorem State.sat_fec (s : State) (f : Fld) (n : Nat) : (s.sat f n).fec = s.fec := (rfl)
@[simp] theorem State.sat_watch (s : State) (f : Fld) (n : Nat) : (s.sat f n).watch = s.watch := (rfl)
@[simp] theorem State.sat_follow (s : State) (f : Fld) (n : Nat) : (s.sat f n).follow = s.follow := (rfl)
@[simp] theorem State.sat_adec (s : State) (f : Fld) (n : Nat) : (s.sat f n).adec = s.adec := (rfl)
@[simp] theorem State.sat_aud (s : State) (f : Fld) (n : Nat) : (s.sat f n).aud = s.aud := (rfl)
@[simp] theorem State.sat_data (s : State) (f : Fld) (n : Nat) : (s.sat f n).data = s.data := (rfl)
@[simp] theorem State.sat_probe (s : State) (f : Fld) (n : Nat) : (s.sat f n).probe = s.probe := (rfl)
@[simp] theorem State.sat_memT (s : State) (f : Fld) (n : Nat) : (s.sat f n).memT = s.memT := (rfl)
@[simp] theorem State.sat_casc (s : State) (f : Fld) (n : Nat) : (s.sat f n).casc = s.casc := (rfl)
@[simp] theorem State.sat_host (s : State) (f : Fld) (n : Nat) : (s.sat f n).host = s.host := (rfl)
@[simp] theorem State.sat_free (s : State) (f : Fld) (n : Nat) : (s.sat f n).free = s.free := (rfl)
@[simp] theorem State.sat_pending (s : State) (f : Fld) (n : Nat) : (s.sat f n).pending = s.pending := (rfl)

/-! ### Memory bytes -/

@[simp] theorem State.setByte_regs (s : State) (a : Nat) (v : Byte) : (s.setByte a v).regs = s.regs := (rfl)
@[simp] theorem State.setByte_boot (s : State) (a : Nat) (v : Byte) : (s.setByte a v).boot = s.boot := (rfl)
@[simp] theorem State.setByte_pins (s : State) (a : Nat) (v : Byte) : (s.setByte a v).pins = s.pins := (rfl)
@[simp] theorem State.setByte_clk (s : State) (a : Nat) (v : Byte) : (s.setByte a v).clk = s.clk := (rfl)
@[simp] theorem State.setByte_pwr (s : State) (a : Nat) (v : Byte) : (s.setByte a v).pwr = s.pwr := (rfl)
@[simp] theorem State.setByte_rf (s : State) (a : Nat) (v : Byte) : (s.setByte a v).rf = s.rf := (rfl)
@[simp] theorem State.setByte_lanes (s : State) (a : Nat) (v : Byte) : (s.setByte a v).lanes = s.lanes := (rfl)
@[simp] theorem State.setByte_twi (s : State) (a : Nat) (v : Byte) : (s.setByte a v).twi = s.twi := (rfl)
@[simp] theorem State.setByte_intGap (s : State) (a : Nat) (v : Byte) : (s.setByte a v).intGap = s.intGap := (rfl)
@[simp] theorem State.setByte_place (s : State) (a : Nat) (v : Byte) : (s.setByte a v).place = s.place := (rfl)
@[simp] theorem State.setByte_time (s : State) (a : Nat) (v : Byte) : (s.setByte a v).time = s.time := (rfl)
@[simp] theorem State.setByte_sched (s : State) (a : Nat) (v : Byte) : (s.setByte a v).sched = s.sched := (rfl)
@[simp] theorem State.setByte_ana (s : State) (a : Nat) (v : Byte) : (s.setByte a v).ana = s.ana := (rfl)
@[simp] theorem State.setByte_ofdm (s : State) (a : Nat) (v : Byte) : (s.setByte a v).ofdm = s.ofdm := (rfl)
@[simp] theorem State.setByte_fec (s : State) (a : Nat) (v : Byte) : (s.setByte a v).fec = s.fec := (rfl)
@[simp] theorem State.setByte_watch (s : State) (a : Nat) (v : Byte) : (s.setByte a v).watch = s.watch := (rfl)
@[simp] theorem State.setByte_follow (s : State) (a : Nat) (v : Byte) : (s.setByte a v).follow = s.follow := (rfl)
@[simp] theorem State.setByte_adec (s : State) (a : Nat) (v : Byte) : (s.setByte a v).adec = s.adec := (rfl)
@[simp] theorem State.setByte_aud (s : State) (a : Nat) (v : Byte) : (s.setByte a v).aud = s.aud := (rfl)
@[simp] theorem State.setByte_data (s : State) (a : Nat) (v : Byte) : (s.setByte a v).data = s.data := (rfl)
@[simp] theorem State.setByte_probe (s : State) (a : Nat) (v : Byte) : (s.setByte a v).probe = s.probe := (rfl)
@[simp] theorem State.setByte_memT (s : State) (a : Nat) (v : Byte) : (s.setByte a v).memT = s.memT := (rfl)
@[simp] theorem State.setByte_casc (s : State) (a : Nat) (v : Byte) : (s.setByte a v).casc = s.casc := (rfl)
@[simp] theorem State.setByte_host (s : State) (a : Nat) (v : Byte) : (s.setByte a v).host = s.host := (rfl)
@[simp] theorem State.setByte_free (s : State) (a : Nat) (v : Byte) : (s.setByte a v).free = s.free := (rfl)
@[simp] theorem State.setByte_pending (s : State) (a : Nat) (v : Byte) : (s.setByte a v).pending = s.pending := (rfl)

@[simp] theorem State.setMemWord_regs (s : State) (a : Nat) (v : Word) : (s.setMemWord a v).regs = s.regs := (rfl)
@[simp] theorem State.setMemWord_boot (s : State) (a : Nat) (v : Word) : (s.setMemWord a v).boot = s.boot := (rfl)
@[simp] theorem State.setMemWord_pins (s : State) (a : Nat) (v : Word) : (s.setMemWord a v).pins = s.pins := (rfl)
@[simp] theorem State.setMemWord_clk (s : State) (a : Nat) (v : Word) : (s.setMemWord a v).clk = s.clk := (rfl)
@[simp] theorem State.setMemWord_pwr (s : State) (a : Nat) (v : Word) : (s.setMemWord a v).pwr = s.pwr := (rfl)
@[simp] theorem State.setMemWord_rf (s : State) (a : Nat) (v : Word) : (s.setMemWord a v).rf = s.rf := (rfl)
@[simp] theorem State.setMemWord_lanes (s : State) (a : Nat) (v : Word) : (s.setMemWord a v).lanes = s.lanes := (rfl)
@[simp] theorem State.setMemWord_twi (s : State) (a : Nat) (v : Word) : (s.setMemWord a v).twi = s.twi := (rfl)
@[simp] theorem State.setMemWord_intGap (s : State) (a : Nat) (v : Word) : (s.setMemWord a v).intGap = s.intGap := (rfl)
@[simp] theorem State.setMemWord_place (s : State) (a : Nat) (v : Word) : (s.setMemWord a v).place = s.place := (rfl)
@[simp] theorem State.setMemWord_time (s : State) (a : Nat) (v : Word) : (s.setMemWord a v).time = s.time := (rfl)
@[simp] theorem State.setMemWord_sched (s : State) (a : Nat) (v : Word) : (s.setMemWord a v).sched = s.sched := (rfl)
@[simp] theorem State.setMemWord_ana (s : State) (a : Nat) (v : Word) : (s.setMemWord a v).ana = s.ana := (rfl)
@[simp] theorem State.setMemWord_ofdm (s : State) (a : Nat) (v : Word) : (s.setMemWord a v).ofdm = s.ofdm := (rfl)
@[simp] theorem State.setMemWord_fec (s : State) (a : Nat) (v : Word) : (s.setMemWord a v).fec = s.fec := (rfl)
@[simp] theorem State.setMemWord_watch (s : State) (a : Nat) (v : Word) : (s.setMemWord a v).watch = s.watch := (rfl)
@[simp] theorem State.setMemWord_follow (s : State) (a : Nat) (v : Word) : (s.setMemWord a v).follow = s.follow := (rfl)
@[simp] theorem State.setMemWord_adec (s : State) (a : Nat) (v : Word) : (s.setMemWord a v).adec = s.adec := (rfl)
@[simp] theorem State.setMemWord_aud (s : State) (a : Nat) (v : Word) : (s.setMemWord a v).aud = s.aud := (rfl)
@[simp] theorem State.setMemWord_data (s : State) (a : Nat) (v : Word) : (s.setMemWord a v).data = s.data := (rfl)
@[simp] theorem State.setMemWord_probe (s : State) (a : Nat) (v : Word) : (s.setMemWord a v).probe = s.probe := (rfl)
@[simp] theorem State.setMemWord_memT (s : State) (a : Nat) (v : Word) : (s.setMemWord a v).memT = s.memT := (rfl)
@[simp] theorem State.setMemWord_casc (s : State) (a : Nat) (v : Word) : (s.setMemWord a v).casc = s.casc := (rfl)
@[simp] theorem State.setMemWord_host (s : State) (a : Nat) (v : Word) : (s.setMemWord a v).host = s.host := (rfl)
@[simp] theorem State.setMemWord_free (s : State) (a : Nat) (v : Word) : (s.setMemWord a v).free = s.free := (rfl)
@[simp] theorem State.setMemWord_pending (s : State) (a : Nat) (v : Word) : (s.setMemWord a v).pending = s.pending := (rfl)

@[simp] theorem State.clearMem_regs (s : State) (a b : Nat) : (s.clearMem a b).regs = s.regs := (rfl)
@[simp] theorem State.clearMem_boot (s : State) (a b : Nat) : (s.clearMem a b).boot = s.boot := (rfl)
@[simp] theorem State.clearMem_pins (s : State) (a b : Nat) : (s.clearMem a b).pins = s.pins := (rfl)
@[simp] theorem State.clearMem_clk (s : State) (a b : Nat) : (s.clearMem a b).clk = s.clk := (rfl)
@[simp] theorem State.clearMem_pwr (s : State) (a b : Nat) : (s.clearMem a b).pwr = s.pwr := (rfl)
@[simp] theorem State.clearMem_rf (s : State) (a b : Nat) : (s.clearMem a b).rf = s.rf := (rfl)
@[simp] theorem State.clearMem_lanes (s : State) (a b : Nat) : (s.clearMem a b).lanes = s.lanes := (rfl)
@[simp] theorem State.clearMem_twi (s : State) (a b : Nat) : (s.clearMem a b).twi = s.twi := (rfl)
@[simp] theorem State.clearMem_intGap (s : State) (a b : Nat) : (s.clearMem a b).intGap = s.intGap := (rfl)
@[simp] theorem State.clearMem_place (s : State) (a b : Nat) : (s.clearMem a b).place = s.place := (rfl)
@[simp] theorem State.clearMem_time (s : State) (a b : Nat) : (s.clearMem a b).time = s.time := (rfl)
@[simp] theorem State.clearMem_sched (s : State) (a b : Nat) : (s.clearMem a b).sched = s.sched := (rfl)
@[simp] theorem State.clearMem_ana (s : State) (a b : Nat) : (s.clearMem a b).ana = s.ana := (rfl)
@[simp] theorem State.clearMem_ofdm (s : State) (a b : Nat) : (s.clearMem a b).ofdm = s.ofdm := (rfl)
@[simp] theorem State.clearMem_fec (s : State) (a b : Nat) : (s.clearMem a b).fec = s.fec := (rfl)
@[simp] theorem State.clearMem_watch (s : State) (a b : Nat) : (s.clearMem a b).watch = s.watch := (rfl)
@[simp] theorem State.clearMem_follow (s : State) (a b : Nat) : (s.clearMem a b).follow = s.follow := (rfl)
@[simp] theorem State.clearMem_adec (s : State) (a b : Nat) : (s.clearMem a b).adec = s.adec := (rfl)
@[simp] theorem State.clearMem_aud (s : State) (a b : Nat) : (s.clearMem a b).aud = s.aud := (rfl)
@[simp] theorem State.clearMem_data (s : State) (a b : Nat) : (s.clearMem a b).data = s.data := (rfl)
@[simp] theorem State.clearMem_probe (s : State) (a b : Nat) : (s.clearMem a b).probe = s.probe := (rfl)
@[simp] theorem State.clearMem_memT (s : State) (a b : Nat) : (s.clearMem a b).memT = s.memT := (rfl)
@[simp] theorem State.clearMem_casc (s : State) (a b : Nat) : (s.clearMem a b).casc = s.casc := (rfl)
@[simp] theorem State.clearMem_host (s : State) (a b : Nat) : (s.clearMem a b).host = s.host := (rfl)
@[simp] theorem State.clearMem_free (s : State) (a b : Nat) : (s.clearMem a b).free = s.free := (rfl)
@[simp] theorem State.clearMem_pending (s : State) (a b : Nat) : (s.clearMem a b).pending = s.pending := (rfl)

/-! ### Tables of blocks, requests to PLACE, free values -/

@[simp] theorem State.updRf_regs (s : State) (i : Nat) (f : RfSt → RfSt) : (s.updRf i f).regs = s.regs := (rfl)
@[simp] theorem State.updRf_mem (s : State) (i : Nat) (f : RfSt → RfSt) : (s.updRf i f).mem = s.mem := (rfl)
@[simp] theorem State.updRf_boot (s : State) (i : Nat) (f : RfSt → RfSt) : (s.updRf i f).boot = s.boot := (rfl)
@[simp] theorem State.updRf_pins (s : State) (i : Nat) (f : RfSt → RfSt) : (s.updRf i f).pins = s.pins := (rfl)
@[simp] theorem State.updRf_clk (s : State) (i : Nat) (f : RfSt → RfSt) : (s.updRf i f).clk = s.clk := (rfl)
@[simp] theorem State.updRf_pwr (s : State) (i : Nat) (f : RfSt → RfSt) : (s.updRf i f).pwr = s.pwr := (rfl)
@[simp] theorem State.updRf_lanes (s : State) (i : Nat) (f : RfSt → RfSt) : (s.updRf i f).lanes = s.lanes := (rfl)
@[simp] theorem State.updRf_twi (s : State) (i : Nat) (f : RfSt → RfSt) : (s.updRf i f).twi = s.twi := (rfl)
@[simp] theorem State.updRf_intGap (s : State) (i : Nat) (f : RfSt → RfSt) : (s.updRf i f).intGap = s.intGap := (rfl)
@[simp] theorem State.updRf_place (s : State) (i : Nat) (f : RfSt → RfSt) : (s.updRf i f).place = s.place := (rfl)
@[simp] theorem State.updRf_time (s : State) (i : Nat) (f : RfSt → RfSt) : (s.updRf i f).time = s.time := (rfl)
@[simp] theorem State.updRf_sched (s : State) (i : Nat) (f : RfSt → RfSt) : (s.updRf i f).sched = s.sched := (rfl)
@[simp] theorem State.updRf_ana (s : State) (i : Nat) (f : RfSt → RfSt) : (s.updRf i f).ana = s.ana := (rfl)
@[simp] theorem State.updRf_ofdm (s : State) (i : Nat) (f : RfSt → RfSt) : (s.updRf i f).ofdm = s.ofdm := (rfl)
@[simp] theorem State.updRf_fec (s : State) (i : Nat) (f : RfSt → RfSt) : (s.updRf i f).fec = s.fec := (rfl)
@[simp] theorem State.updRf_watch (s : State) (i : Nat) (f : RfSt → RfSt) : (s.updRf i f).watch = s.watch := (rfl)
@[simp] theorem State.updRf_follow (s : State) (i : Nat) (f : RfSt → RfSt) : (s.updRf i f).follow = s.follow := (rfl)
@[simp] theorem State.updRf_adec (s : State) (i : Nat) (f : RfSt → RfSt) : (s.updRf i f).adec = s.adec := (rfl)
@[simp] theorem State.updRf_aud (s : State) (i : Nat) (f : RfSt → RfSt) : (s.updRf i f).aud = s.aud := (rfl)
@[simp] theorem State.updRf_data (s : State) (i : Nat) (f : RfSt → RfSt) : (s.updRf i f).data = s.data := (rfl)
@[simp] theorem State.updRf_probe (s : State) (i : Nat) (f : RfSt → RfSt) : (s.updRf i f).probe = s.probe := (rfl)
@[simp] theorem State.updRf_memT (s : State) (i : Nat) (f : RfSt → RfSt) : (s.updRf i f).memT = s.memT := (rfl)
@[simp] theorem State.updRf_casc (s : State) (i : Nat) (f : RfSt → RfSt) : (s.updRf i f).casc = s.casc := (rfl)
@[simp] theorem State.updRf_host (s : State) (i : Nat) (f : RfSt → RfSt) : (s.updRf i f).host = s.host := (rfl)
@[simp] theorem State.updRf_free (s : State) (i : Nat) (f : RfSt → RfSt) : (s.updRf i f).free = s.free := (rfl)
@[simp] theorem State.updRf_pending (s : State) (i : Nat) (f : RfSt → RfSt) : (s.updRf i f).pending = s.pending := (rfl)

@[simp] theorem State.updLane_regs (s : State) (n : Nat) (f : LaneSt → LaneSt) : (s.updLane n f).regs = s.regs := (rfl)
@[simp] theorem State.updLane_mem (s : State) (n : Nat) (f : LaneSt → LaneSt) : (s.updLane n f).mem = s.mem := (rfl)
@[simp] theorem State.updLane_boot (s : State) (n : Nat) (f : LaneSt → LaneSt) : (s.updLane n f).boot = s.boot := (rfl)
@[simp] theorem State.updLane_pins (s : State) (n : Nat) (f : LaneSt → LaneSt) : (s.updLane n f).pins = s.pins := (rfl)
@[simp] theorem State.updLane_clk (s : State) (n : Nat) (f : LaneSt → LaneSt) : (s.updLane n f).clk = s.clk := (rfl)
@[simp] theorem State.updLane_pwr (s : State) (n : Nat) (f : LaneSt → LaneSt) : (s.updLane n f).pwr = s.pwr := (rfl)
@[simp] theorem State.updLane_rf (s : State) (n : Nat) (f : LaneSt → LaneSt) : (s.updLane n f).rf = s.rf := (rfl)
@[simp] theorem State.updLane_twi (s : State) (n : Nat) (f : LaneSt → LaneSt) : (s.updLane n f).twi = s.twi := (rfl)
@[simp] theorem State.updLane_intGap (s : State) (n : Nat) (f : LaneSt → LaneSt) : (s.updLane n f).intGap = s.intGap := (rfl)
@[simp] theorem State.updLane_place (s : State) (n : Nat) (f : LaneSt → LaneSt) : (s.updLane n f).place = s.place := (rfl)
@[simp] theorem State.updLane_time (s : State) (n : Nat) (f : LaneSt → LaneSt) : (s.updLane n f).time = s.time := (rfl)
@[simp] theorem State.updLane_sched (s : State) (n : Nat) (f : LaneSt → LaneSt) : (s.updLane n f).sched = s.sched := (rfl)
@[simp] theorem State.updLane_ana (s : State) (n : Nat) (f : LaneSt → LaneSt) : (s.updLane n f).ana = s.ana := (rfl)
@[simp] theorem State.updLane_ofdm (s : State) (n : Nat) (f : LaneSt → LaneSt) : (s.updLane n f).ofdm = s.ofdm := (rfl)
@[simp] theorem State.updLane_fec (s : State) (n : Nat) (f : LaneSt → LaneSt) : (s.updLane n f).fec = s.fec := (rfl)
@[simp] theorem State.updLane_watch (s : State) (n : Nat) (f : LaneSt → LaneSt) : (s.updLane n f).watch = s.watch := (rfl)
@[simp] theorem State.updLane_follow (s : State) (n : Nat) (f : LaneSt → LaneSt) : (s.updLane n f).follow = s.follow := (rfl)
@[simp] theorem State.updLane_adec (s : State) (n : Nat) (f : LaneSt → LaneSt) : (s.updLane n f).adec = s.adec := (rfl)
@[simp] theorem State.updLane_aud (s : State) (n : Nat) (f : LaneSt → LaneSt) : (s.updLane n f).aud = s.aud := (rfl)
@[simp] theorem State.updLane_data (s : State) (n : Nat) (f : LaneSt → LaneSt) : (s.updLane n f).data = s.data := (rfl)
@[simp] theorem State.updLane_probe (s : State) (n : Nat) (f : LaneSt → LaneSt) : (s.updLane n f).probe = s.probe := (rfl)
@[simp] theorem State.updLane_memT (s : State) (n : Nat) (f : LaneSt → LaneSt) : (s.updLane n f).memT = s.memT := (rfl)
@[simp] theorem State.updLane_casc (s : State) (n : Nat) (f : LaneSt → LaneSt) : (s.updLane n f).casc = s.casc := (rfl)
@[simp] theorem State.updLane_host (s : State) (n : Nat) (f : LaneSt → LaneSt) : (s.updLane n f).host = s.host := (rfl)
@[simp] theorem State.updLane_free (s : State) (n : Nat) (f : LaneSt → LaneSt) : (s.updLane n f).free = s.free := (rfl)
@[simp] theorem State.updLane_pending (s : State) (n : Nat) (f : LaneSt → LaneSt) : (s.updLane n f).pending = s.pending := (rfl)

@[simp] theorem State.updClu_regs (s : State) (c : Nat) (f : ClusSt → ClusSt) : (s.updClu c f).regs = s.regs := (rfl)
@[simp] theorem State.updClu_mem (s : State) (c : Nat) (f : ClusSt → ClusSt) : (s.updClu c f).mem = s.mem := (rfl)
@[simp] theorem State.updClu_boot (s : State) (c : Nat) (f : ClusSt → ClusSt) : (s.updClu c f).boot = s.boot := (rfl)
@[simp] theorem State.updClu_pins (s : State) (c : Nat) (f : ClusSt → ClusSt) : (s.updClu c f).pins = s.pins := (rfl)
@[simp] theorem State.updClu_clk (s : State) (c : Nat) (f : ClusSt → ClusSt) : (s.updClu c f).clk = s.clk := (rfl)
@[simp] theorem State.updClu_rf (s : State) (c : Nat) (f : ClusSt → ClusSt) : (s.updClu c f).rf = s.rf := (rfl)
@[simp] theorem State.updClu_lanes (s : State) (c : Nat) (f : ClusSt → ClusSt) : (s.updClu c f).lanes = s.lanes := (rfl)
@[simp] theorem State.updClu_twi (s : State) (c : Nat) (f : ClusSt → ClusSt) : (s.updClu c f).twi = s.twi := (rfl)
@[simp] theorem State.updClu_intGap (s : State) (c : Nat) (f : ClusSt → ClusSt) : (s.updClu c f).intGap = s.intGap := (rfl)
@[simp] theorem State.updClu_place (s : State) (c : Nat) (f : ClusSt → ClusSt) : (s.updClu c f).place = s.place := (rfl)
@[simp] theorem State.updClu_time (s : State) (c : Nat) (f : ClusSt → ClusSt) : (s.updClu c f).time = s.time := (rfl)
@[simp] theorem State.updClu_sched (s : State) (c : Nat) (f : ClusSt → ClusSt) : (s.updClu c f).sched = s.sched := (rfl)
@[simp] theorem State.updClu_ana (s : State) (c : Nat) (f : ClusSt → ClusSt) : (s.updClu c f).ana = s.ana := (rfl)
@[simp] theorem State.updClu_ofdm (s : State) (c : Nat) (f : ClusSt → ClusSt) : (s.updClu c f).ofdm = s.ofdm := (rfl)
@[simp] theorem State.updClu_fec (s : State) (c : Nat) (f : ClusSt → ClusSt) : (s.updClu c f).fec = s.fec := (rfl)
@[simp] theorem State.updClu_watch (s : State) (c : Nat) (f : ClusSt → ClusSt) : (s.updClu c f).watch = s.watch := (rfl)
@[simp] theorem State.updClu_follow (s : State) (c : Nat) (f : ClusSt → ClusSt) : (s.updClu c f).follow = s.follow := (rfl)
@[simp] theorem State.updClu_adec (s : State) (c : Nat) (f : ClusSt → ClusSt) : (s.updClu c f).adec = s.adec := (rfl)
@[simp] theorem State.updClu_aud (s : State) (c : Nat) (f : ClusSt → ClusSt) : (s.updClu c f).aud = s.aud := (rfl)
@[simp] theorem State.updClu_data (s : State) (c : Nat) (f : ClusSt → ClusSt) : (s.updClu c f).data = s.data := (rfl)
@[simp] theorem State.updClu_probe (s : State) (c : Nat) (f : ClusSt → ClusSt) : (s.updClu c f).probe = s.probe := (rfl)
@[simp] theorem State.updClu_memT (s : State) (c : Nat) (f : ClusSt → ClusSt) : (s.updClu c f).memT = s.memT := (rfl)
@[simp] theorem State.updClu_casc (s : State) (c : Nat) (f : ClusSt → ClusSt) : (s.updClu c f).casc = s.casc := (rfl)
@[simp] theorem State.updClu_host (s : State) (c : Nat) (f : ClusSt → ClusSt) : (s.updClu c f).host = s.host := (rfl)
@[simp] theorem State.updClu_free (s : State) (c : Nat) (f : ClusSt → ClusSt) : (s.updClu c f).free = s.free := (rfl)
@[simp] theorem State.updClu_pending (s : State) (c : Nat) (f : ClusSt → ClusSt) : (s.updClu c f).pending = s.pending := (rfl)

@[simp] theorem State.trigger_regs (s : State) (b : Bool) : (s.trigger b).regs = s.regs := (rfl)
@[simp] theorem State.trigger_mem (s : State) (b : Bool) : (s.trigger b).mem = s.mem := (rfl)
@[simp] theorem State.trigger_boot (s : State) (b : Bool) : (s.trigger b).boot = s.boot := (rfl)
@[simp] theorem State.trigger_pins (s : State) (b : Bool) : (s.trigger b).pins = s.pins := (rfl)
@[simp] theorem State.trigger_clk (s : State) (b : Bool) : (s.trigger b).clk = s.clk := (rfl)
@[simp] theorem State.trigger_pwr (s : State) (b : Bool) : (s.trigger b).pwr = s.pwr := (rfl)
@[simp] theorem State.trigger_rf (s : State) (b : Bool) : (s.trigger b).rf = s.rf := (rfl)
@[simp] theorem State.trigger_lanes (s : State) (b : Bool) : (s.trigger b).lanes = s.lanes := (rfl)
@[simp] theorem State.trigger_twi (s : State) (b : Bool) : (s.trigger b).twi = s.twi := (rfl)
@[simp] theorem State.trigger_intGap (s : State) (b : Bool) : (s.trigger b).intGap = s.intGap := (rfl)
@[simp] theorem State.trigger_time (s : State) (b : Bool) : (s.trigger b).time = s.time := (rfl)
@[simp] theorem State.trigger_sched (s : State) (b : Bool) : (s.trigger b).sched = s.sched := (rfl)
@[simp] theorem State.trigger_ana (s : State) (b : Bool) : (s.trigger b).ana = s.ana := (rfl)
@[simp] theorem State.trigger_ofdm (s : State) (b : Bool) : (s.trigger b).ofdm = s.ofdm := (rfl)
@[simp] theorem State.trigger_fec (s : State) (b : Bool) : (s.trigger b).fec = s.fec := (rfl)
@[simp] theorem State.trigger_watch (s : State) (b : Bool) : (s.trigger b).watch = s.watch := (rfl)
@[simp] theorem State.trigger_follow (s : State) (b : Bool) : (s.trigger b).follow = s.follow := (rfl)
@[simp] theorem State.trigger_adec (s : State) (b : Bool) : (s.trigger b).adec = s.adec := (rfl)
@[simp] theorem State.trigger_aud (s : State) (b : Bool) : (s.trigger b).aud = s.aud := (rfl)
@[simp] theorem State.trigger_data (s : State) (b : Bool) : (s.trigger b).data = s.data := (rfl)
@[simp] theorem State.trigger_probe (s : State) (b : Bool) : (s.trigger b).probe = s.probe := (rfl)
@[simp] theorem State.trigger_memT (s : State) (b : Bool) : (s.trigger b).memT = s.memT := (rfl)
@[simp] theorem State.trigger_casc (s : State) (b : Bool) : (s.trigger b).casc = s.casc := (rfl)
@[simp] theorem State.trigger_host (s : State) (b : Bool) : (s.trigger b).host = s.host := (rfl)
@[simp] theorem State.trigger_free (s : State) (b : Bool) : (s.trigger b).free = s.free := (rfl)
@[simp] theorem State.trigger_pending (s : State) (b : Bool) : (s.trigger b).pending = s.pending := (rfl)

@[simp] theorem State.take_regs (s : State) : s.take.2.regs = s.regs := (rfl)
@[simp] theorem State.take_mem (s : State) : s.take.2.mem = s.mem := (rfl)
@[simp] theorem State.take_boot (s : State) : s.take.2.boot = s.boot := (rfl)
@[simp] theorem State.take_pins (s : State) : s.take.2.pins = s.pins := (rfl)
@[simp] theorem State.take_clk (s : State) : s.take.2.clk = s.clk := (rfl)
@[simp] theorem State.take_pwr (s : State) : s.take.2.pwr = s.pwr := (rfl)
@[simp] theorem State.take_rf (s : State) : s.take.2.rf = s.rf := (rfl)
@[simp] theorem State.take_lanes (s : State) : s.take.2.lanes = s.lanes := (rfl)
@[simp] theorem State.take_twi (s : State) : s.take.2.twi = s.twi := (rfl)
@[simp] theorem State.take_intGap (s : State) : s.take.2.intGap = s.intGap := (rfl)
@[simp] theorem State.take_place (s : State) : s.take.2.place = s.place := (rfl)
@[simp] theorem State.take_time (s : State) : s.take.2.time = s.time := (rfl)
@[simp] theorem State.take_sched (s : State) : s.take.2.sched = s.sched := (rfl)
@[simp] theorem State.take_ana (s : State) : s.take.2.ana = s.ana := (rfl)
@[simp] theorem State.take_ofdm (s : State) : s.take.2.ofdm = s.ofdm := (rfl)
@[simp] theorem State.take_fec (s : State) : s.take.2.fec = s.fec := (rfl)
@[simp] theorem State.take_watch (s : State) : s.take.2.watch = s.watch := (rfl)
@[simp] theorem State.take_follow (s : State) : s.take.2.follow = s.follow := (rfl)
@[simp] theorem State.take_adec (s : State) : s.take.2.adec = s.adec := (rfl)
@[simp] theorem State.take_aud (s : State) : s.take.2.aud = s.aud := (rfl)
@[simp] theorem State.take_data (s : State) : s.take.2.data = s.data := (rfl)
@[simp] theorem State.take_probe (s : State) : s.take.2.probe = s.probe := (rfl)
@[simp] theorem State.take_memT (s : State) : s.take.2.memT = s.memT := (rfl)
@[simp] theorem State.take_casc (s : State) : s.take.2.casc = s.casc := (rfl)
@[simp] theorem State.take_host (s : State) : s.take.2.host = s.host := (rfl)
@[simp] theorem State.take_pending (s : State) : s.take.2.pending = s.pending := (rfl)

/-! ### Causes: they touch registers, the two-wire queue and the gap of INT_N only -/

theorem State.wr_parts (s : State) (f : Fld) (v : Nat) : ∃ r, s.wr f v = { s with regs := r } := ⟨_, rfl⟩

theorem State.edgeGap_parts (s : State) (t : PageType) (i b : Nat) (was : Bool) :
    ∃ g, s.edgeGap t i b was = { s with intGap := g } := by
  unfold State.edgeGap
  split
  · exact ⟨_, rfl⟩
  · exact ⟨s.intGap, rfl⟩

theorem State.postIbr_parts (s : State) (c : Nat) : ∃ r w, s.postIbr c = { s with regs := r, twi := w } := by
  unfold State.postIbr
  split
  · exact ⟨s.regs, s.twi, rfl⟩
  · split
    · exact ⟨(s.sat F.TWI_IBR_STAT_DROPPED).regs, s.twi, rfl⟩
    · exact ⟨s.regs, _, rfl⟩

theorem State.routeTwi_parts (s : State) (c : Nat) : ∃ r w, s.routeTwi c = { s with regs := r, twi := w } := by
  unfold State.routeTwi
  split
  · split
    · obtain ⟨r, h⟩ := s.wr_parts (F.TWI_ALERT_PEND_CAUSES (c / 32))
        (setBit (s.rd (F.TWI_ALERT_PEND_CAUSES (c / 32))) (c % 32))
      simp only [h]
      exact ⟨r, _, rfl⟩
    · exact ⟨s.regs, s.twi, rfl⟩
  · split
    · exact s.postIbr_parts c
    · exact ⟨s.regs, s.twi, rfl⟩

theorem State.setCause_parts (s : State) (t : PageType) (i b : Nat) :
    ∃ r w g, s.setCause t i b = { s with regs := r, twi := w, intGap := g } := by
  unfold State.setCause
  split
  · exact ⟨s.regs, s.twi, s.intGap, rfl⟩
  · obtain ⟨r0, h0⟩ := s.wr_parts (F.CAUSE t i) (setBit (s.rd (F.CAUSE t i)) b)
    simp only [h0]
    cases hg : t.group with
    | none =>
      obtain ⟨g, h⟩ := State.edgeGap_parts { s with regs := r0 } t i b s.intTree
      exact ⟨r0, s.twi, g, h⟩
    | some k =>
      obtain ⟨r, w, h⟩ := State.routeTwi_parts { s with regs := r0 } (8 * k + b)
      simp only [h]
      obtain ⟨g, h'⟩ := State.edgeGap_parts { s with regs := r, twi := w } t i b s.intTree
      exact ⟨r, w, g, h'⟩

theorem State.raise_parts (s : State) (t : PageType) (b i : Nat) :
    ∃ r w g, s.raise t b i = { s with regs := r, twi := w, intGap := g } := by
  unfold State.raise
  split
  · exact s.setCause_parts t i b
  · exact ⟨s.regs, s.twi, s.intGap, rfl⟩

@[simp] theorem State.raise_mem (s : State) (t : PageType) (b i : Nat) : (s.raise t b i).mem = s.mem := by
  obtain ⟨r, w, g, h⟩ := s.raise_parts t b i
  rw [h]

@[simp] theorem State.raise_boot (s : State) (t : PageType) (b i : Nat) : (s.raise t b i).boot = s.boot := by
  obtain ⟨r, w, g, h⟩ := s.raise_parts t b i
  rw [h]

@[simp] theorem State.raise_pins (s : State) (t : PageType) (b i : Nat) : (s.raise t b i).pins = s.pins := by
  obtain ⟨r, w, g, h⟩ := s.raise_parts t b i
  rw [h]

@[simp] theorem State.raise_clk (s : State) (t : PageType) (b i : Nat) : (s.raise t b i).clk = s.clk := by
  obtain ⟨r, w, g, h⟩ := s.raise_parts t b i
  rw [h]

@[simp] theorem State.raise_pwr (s : State) (t : PageType) (b i : Nat) : (s.raise t b i).pwr = s.pwr := by
  obtain ⟨r, w, g, h⟩ := s.raise_parts t b i
  rw [h]

@[simp] theorem State.raise_rf (s : State) (t : PageType) (b i : Nat) : (s.raise t b i).rf = s.rf := by
  obtain ⟨r, w, g, h⟩ := s.raise_parts t b i
  rw [h]

@[simp] theorem State.raise_lanes (s : State) (t : PageType) (b i : Nat) : (s.raise t b i).lanes = s.lanes := by
  obtain ⟨r, w, g, h⟩ := s.raise_parts t b i
  rw [h]

@[simp] theorem State.raise_place (s : State) (t : PageType) (b i : Nat) : (s.raise t b i).place = s.place := by
  obtain ⟨r, w, g, h⟩ := s.raise_parts t b i
  rw [h]

@[simp] theorem State.raise_time (s : State) (t : PageType) (b i : Nat) : (s.raise t b i).time = s.time := by
  obtain ⟨r, w, g, h⟩ := s.raise_parts t b i
  rw [h]

@[simp] theorem State.raise_sched (s : State) (t : PageType) (b i : Nat) : (s.raise t b i).sched = s.sched := by
  obtain ⟨r, w, g, h⟩ := s.raise_parts t b i
  rw [h]

@[simp] theorem State.raise_ana (s : State) (t : PageType) (b i : Nat) : (s.raise t b i).ana = s.ana := by
  obtain ⟨r, w, g, h⟩ := s.raise_parts t b i
  rw [h]

@[simp] theorem State.raise_ofdm (s : State) (t : PageType) (b i : Nat) : (s.raise t b i).ofdm = s.ofdm := by
  obtain ⟨r, w, g, h⟩ := s.raise_parts t b i
  rw [h]

@[simp] theorem State.raise_fec (s : State) (t : PageType) (b i : Nat) : (s.raise t b i).fec = s.fec := by
  obtain ⟨r, w, g, h⟩ := s.raise_parts t b i
  rw [h]

@[simp] theorem State.raise_watch (s : State) (t : PageType) (b i : Nat) : (s.raise t b i).watch = s.watch := by
  obtain ⟨r, w, g, h⟩ := s.raise_parts t b i
  rw [h]

@[simp] theorem State.raise_follow (s : State) (t : PageType) (b i : Nat) : (s.raise t b i).follow = s.follow := by
  obtain ⟨r, w, g, h⟩ := s.raise_parts t b i
  rw [h]

@[simp] theorem State.raise_adec (s : State) (t : PageType) (b i : Nat) : (s.raise t b i).adec = s.adec := by
  obtain ⟨r, w, g, h⟩ := s.raise_parts t b i
  rw [h]

@[simp] theorem State.raise_aud (s : State) (t : PageType) (b i : Nat) : (s.raise t b i).aud = s.aud := by
  obtain ⟨r, w, g, h⟩ := s.raise_parts t b i
  rw [h]

@[simp] theorem State.raise_data (s : State) (t : PageType) (b i : Nat) : (s.raise t b i).data = s.data := by
  obtain ⟨r, w, g, h⟩ := s.raise_parts t b i
  rw [h]

@[simp] theorem State.raise_probe (s : State) (t : PageType) (b i : Nat) : (s.raise t b i).probe = s.probe := by
  obtain ⟨r, w, g, h⟩ := s.raise_parts t b i
  rw [h]

@[simp] theorem State.raise_memT (s : State) (t : PageType) (b i : Nat) : (s.raise t b i).memT = s.memT := by
  obtain ⟨r, w, g, h⟩ := s.raise_parts t b i
  rw [h]

@[simp] theorem State.raise_casc (s : State) (t : PageType) (b i : Nat) : (s.raise t b i).casc = s.casc := by
  obtain ⟨r, w, g, h⟩ := s.raise_parts t b i
  rw [h]

@[simp] theorem State.raise_host (s : State) (t : PageType) (b i : Nat) : (s.raise t b i).host = s.host := by
  obtain ⟨r, w, g, h⟩ := s.raise_parts t b i
  rw [h]

@[simp] theorem State.raise_free (s : State) (t : PageType) (b i : Nat) : (s.raise t b i).free = s.free := by
  obtain ⟨r, w, g, h⟩ := s.raise_parts t b i
  rw [h]

@[simp] theorem State.raise_pending (s : State) (t : PageType) (b i : Nat) : (s.raise t b i).pending = s.pending := by
  obtain ⟨r, w, g, h⟩ := s.raise_parts t b i
  rw [h]

end Sys2Proof.Machine
end

