-- ==== Sys2Proof/Laws/Ops.lean ====
section
/-! SUPPORT. Registers, bytes and causes: what a read finds after each operation. -/
namespace Sys2Proof.Machine
open Sys2Proof

/-! ### Register words and fields -/

@[simp] theorem State.reg_setReg_same (s : State) (a : Nat) (v : Word) : (s.setReg a v).reg a = v := tget_tput_same _ _ _ _

theorem State.reg_setReg_ne (s : State) {a b : Nat} (v : Word) (h : b ≠ a) : (s.setReg a v).reg b = s.reg b :=
  tget_tput_ne _ _ _ h _

theorem State.reg_wr_ne (s : State) (f : Fld) (v : Nat) {b : Nat} (h : b ≠ f.addr) : (s.wr f v).reg b = s.reg b :=
  s.reg_setReg_ne _ h

@[simp] theorem State.reg_wr_same (s : State) (f : Fld) (v : Nat) : (s.wr f v).reg f.addr = putBits (s.reg f.addr) f.hi f.lo v :=
  s.reg_setReg_same _ _

/-- A field reads as it was just written. -/
theorem State.rd_wr_same (s : State) (f : Fld) (v : Nat) (h1 : f.lo ≤ f.hi) (h2 : f.hi < 32) :
    (s.wr f v).rd f = v % 2 ^ (f.hi + 1 - f.lo) := by
  unfold State.rd
  rw [State.reg_wr_same, getBits_putBits_same _ _ h1 h2]

/-- A field of another register keeps its value. -/
theorem State.rd_wr_ne (s : State) (f g : Fld) (v : Nat) (h : g.addr ≠ f.addr) : (s.wr f v).rd g = s.rd g := by
  unfold State.rd
  rw [s.reg_wr_ne f v h]

/-- Another field of the same register keeps its value. -/
theorem State.rd_wr_apart (s : State) (f g : Fld) (v : Nat) (h1 : f.lo ≤ f.hi) (h2 : f.hi < 32) (h3 : g.lo ≤ g.hi)
    (h : f.hi < g.lo ∨ g.hi < f.lo) : (s.wr f v).rd g = s.rd g := by
  by_cases e : g.addr = f.addr
  · unfold State.rd
    rw [e, State.reg_wr_same]
    rcases h with h | h
    · exact getBits_putBits_above _ _ h1 h2 h
    · exact getBits_putBits_below _ _ h1 h2 h3 h
  · exact s.rd_wr_ne f g v e

theorem State.rd_setReg_ne (s : State) (f : Fld) {a : Nat} (v : Word) (h : f.addr ≠ a) : (s.setReg a v).rd f = s.rd f := by
  unfold State.rd
  rw [s.reg_setReg_ne v h]

theorem State.rd_setReg_same (s : State) (f : Fld) {a : Nat} (v : Word) (h : f.addr = a) :
    (s.setReg a v).rd f = getBits v f.hi f.lo := by
  subst h
  unfold State.rd
  rw [State.reg_setReg_same]

theorem State.reg_reset (a : Nat) : State.reset.reg a = resetWord a := (rfl)

theorem State.rd_lt (s : State) (f : Fld) : s.rd f < 2 ^ (f.hi + 1 - f.lo) := getBits_lt _ _ _

/-- Registers stay as they were under a change of the other fields. -/
theorem State.reg_congr {s t : State} (h : t.regs = s.regs) (a : Nat) : t.reg a = s.reg a := by
  unfold State.reg
  rw [h]

theorem State.rd_congr {s t : State} (h : t.regs = s.regs) (f : Fld) : t.rd f = s.rd f := by
  unfold State.rd
  rw [State.reg_congr h]

theorem State.tget_regs (s : State) (a : Nat) : tget (resetWord a) s.regs a = s.reg a := (rfl)

/-! A change of fields other than the registers changes no register, and of fields other than the memory no byte. -/

theorem State.reg_mk (s : State) (a : Nat)
    (x_mem : List Host.Cell) (x_boot : Boot) (x_pins : PinSt) (x_clk : ClkSt) (x_pwr : PwrSt) (x_rf : List (Nat × RfSt)) (x_lanes : List (Nat × LaneSt)) (x_twi : TwiSt) (x_intGap : Bool) (x_place : PlaceSt) (x_time : TimeSt) (x_sched : SchedSt) (x_ana : List (Nat × AnaSt)) (x_ofdm : List (Nat × OfdmSt)) (x_fec : FecSt) (x_watch : List (Nat × WatchSt)) (x_follow : List (Nat × FolSt)) (x_adec : AdecSt) (x_aud : List (Nat × AudSt)) (x_data : DataSt) (x_probe : PrbSt) (x_memT : MemSt) (x_casc : CascSt) (x_host : HostSt) (x_free : Nat) (x_pending : List Instr) :
    State.reg (State.mk s.regs x_mem x_boot x_pins x_clk x_pwr x_rf x_lanes x_twi x_intGap x_place x_time x_sched x_ana x_ofdm x_fec x_watch x_follow x_adec x_aud x_data x_probe x_memT x_casc x_host x_free x_pending) a = s.reg a := (rfl)

theorem State.rd_mk (s : State) (f : Fld)
    (x_mem : List Host.Cell) (x_boot : Boot) (x_pins : PinSt) (x_clk : ClkSt) (x_pwr : PwrSt) (x_rf : List (Nat × RfSt)) (x_lanes : List (Nat × LaneSt)) (x_twi : TwiSt) (x_intGap : Bool) (x_place : PlaceSt) (x_time : TimeSt) (x_sched : SchedSt) (x_ana : List (Nat × AnaSt)) (x_ofdm : List (Nat × OfdmSt)) (x_fec : FecSt) (x_watch : List (Nat × WatchSt)) (x_follow : List (Nat × FolSt)) (x_adec : AdecSt) (x_aud : List (Nat × AudSt)) (x_data : DataSt) (x_probe : PrbSt) (x_memT : MemSt) (x_casc : CascSt) (x_host : HostSt) (x_free : Nat) (x_pending : List Instr) :
    State.rd (State.mk s.regs x_mem x_boot x_pins x_clk x_pwr x_rf x_lanes x_twi x_intGap x_place x_time x_sched x_ana x_ofdm x_fec x_watch x_follow x_adec x_aud x_data x_probe x_memT x_casc x_host x_free x_pending) f = s.rd f := (rfl)

theorem State.byte_mk (s : State) (a : Nat)
    (x_regs : List (Nat × Word)) (x_boot : Boot) (x_pins : PinSt) (x_clk : ClkSt) (x_pwr : PwrSt) (x_rf : List (Nat × RfSt)) (x_lanes : List (Nat × LaneSt)) (x_twi : TwiSt) (x_intGap : Bool) (x_place : PlaceSt) (x_time : TimeSt) (x_sched : SchedSt) (x_ana : List (Nat × AnaSt)) (x_ofdm : List (Nat × OfdmSt)) (x_fec : FecSt) (x_watch : List (Nat × WatchSt)) (x_follow : List (Nat × FolSt)) (x_adec : AdecSt) (x_aud : List (Nat × AudSt)) (x_data : DataSt) (x_probe : PrbSt) (x_memT : MemSt) (x_casc : CascSt) (x_host : HostSt) (x_free : Nat) (x_pending : List Instr) :
    State.byte (State.mk x_regs s.mem x_boot x_pins x_clk x_pwr x_rf x_lanes x_twi x_intGap x_place x_time x_sched x_ana x_ofdm x_fec x_watch x_follow x_adec x_aud x_data x_probe x_memT x_casc x_host x_free x_pending) a = s.byte a := (rfl)

/-- `sameRegsBut` through one more write. -/
theorem State.sameRegsBut_refl (s : State) (l : List Nat) : s.sameRegsBut l s := fun _ _ => rfl

theorem State.sameRegsBut_of_regs {s t : State} (l : List Nat) (h : t.regs = s.regs) : s.sameRegsBut l t :=
  fun a _ => State.reg_congr h a

theorem State.sameRegsBut_setReg {s t : State} {l : List Nat} {a : Nat} (v : Word) (h : s.sameRegsBut l t) (ha : a ∈ l) :
    s.sameRegsBut l (t.setReg a v) := fun b hb =>
  (State.reg_setReg_ne t v (fun e => hb (by rw [e]; exact ha))).trans (h b hb)

theorem State.sameRegsBut_wr {s t : State} {l : List Nat} {f : Fld} (v : Nat) (h : s.sameRegsBut l t) (ha : f.addr ∈ l) :
    s.sameRegsBut l (t.wr f v) := State.sameRegsBut_setReg _ h ha

theorem State.sameRegsBut_congr {s t u : State} {l : List Nat} (h : s.sameRegsBut l t) (e : u.regs = t.regs) :
    s.sameRegsBut l u := fun a ha => (State.reg_congr e a).trans (h a ha)

theorem State.sameMem_of_mem {s t : State} (h : t.mem = s.mem) : s.sameMem t := fun a => by
  unfold State.byte
  rw [h]

/-! ### Memory bytes -/

@[simp] theorem State.byte_setByte_same (s : State) (a : Nat) (v : Byte) : (s.setByte a v).byte a = v := tget_tput_same _ _ _ _

theorem State.byte_setByte_ne (s : State) {a b : Nat} (v : Byte) (h : b ≠ a) : (s.setByte a v).byte b = s.byte b :=
  tget_tput_ne _ _ _ h _

theorem State.byte_congr {s t : State} (h : t.mem = s.mem) (a : Nat) : t.byte a = s.byte a := by
  unfold State.byte
  rw [h]

@[simp] theorem State.byte_setReg (s : State) (b : Nat) (v : Word) (a : Nat) : (s.setReg b v).byte a = s.byte a :=
  State.byte_congr rfl a

@[simp] theorem State.byte_wr (s : State) (f : Fld) (v : Nat) (a : Nat) : (s.wr f v).byte a = s.byte a := State.byte_congr rfl a

@[simp] theorem State.byte_raise (s : State) (t : PageType) (b i : Nat) (a : Nat) : (s.raise t b i).byte a = s.byte a :=
  State.byte_congr (s.raise_mem t b i) a

/-- A store of a word leaves the bytes outside it alone. -/
theorem State.byte_setMemWord_out (s : State) {a b : Nat} (v : Word) (h : b < a ∨ a + 4 ≤ b) :
    (s.setMemWord a v).byte b = s.byte b := by
  unfold State.setMemWord
  rw [State.byte_setByte_ne _ _ (by omega), State.byte_setByte_ne _ _ (by omega), State.byte_setByte_ne _ _ (by omega),
    State.byte_setByte_ne _ _ (by omega)]

theorem Memory.wf_setByte (s : State) (a : Nat) (v : Byte) (h : Memory.wf s.mem = true) : Memory.wf (s.setByte a v).mem = true :=
  twf_tput memDefault s.mem a v h

theorem Memory.wf_setMemWord (s : State) (a : Nat) (v : Word) (h : Memory.wf s.mem = true) :
    Memory.wf (s.setMemWord a v).mem = true :=
  Memory.wf_setByte _ _ _ (Memory.wf_setByte _ _ _ (Memory.wf_setByte _ _ _ (Memory.wf_setByte _ _ _ h)))

theorem Memory.wf_clearMem (s : State) (a b : Nat) (h : Memory.wf s.mem = true) : Memory.wf (s.clearMem a b).mem = true :=
  twf_filter memDefault _ s.mem h

@[simp] theorem State.reg_updRf (s : State) (i : Nat) (f : RfSt → RfSt) (a : Nat) : (s.updRf i f).reg a = s.reg a := State.reg_congr rfl a

@[simp] theorem State.byte_updRf (s : State) (i : Nat) (f : RfSt → RfSt) (a : Nat) : (s.updRf i f).byte a = s.byte a := State.byte_congr rfl a

@[simp] theorem State.rd_updRf (s : State) (i : Nat) (f : RfSt → RfSt) (g : Fld) : (s.updRf i f).rd g = s.rd g := State.rd_congr rfl g

@[simp] theorem State.reg_updLane (s : State) (i : Nat) (f : LaneSt → LaneSt) (a : Nat) : (s.updLane i f).reg a = s.reg a := State.reg_congr rfl a

@[simp] theorem State.byte_updLane (s : State) (i : Nat) (f : LaneSt → LaneSt) (a : Nat) : (s.updLane i f).byte a = s.byte a := State.byte_congr rfl a

@[simp] theorem State.rd_updLane (s : State) (i : Nat) (f : LaneSt → LaneSt) (g : Fld) : (s.updLane i f).rd g = s.rd g := State.rd_congr rfl g

@[simp] theorem State.reg_updClu (s : State) (i : Nat) (f : ClusSt → ClusSt) (a : Nat) : (s.updClu i f).reg a = s.reg a := State.reg_congr rfl a

@[simp] theorem State.byte_updClu (s : State) (i : Nat) (f : ClusSt → ClusSt) (a : Nat) : (s.updClu i f).byte a = s.byte a := State.byte_congr rfl a

@[simp] theorem State.rd_updClu (s : State) (i : Nat) (f : ClusSt → ClusSt) (g : Fld) : (s.updClu i f).rd g = s.rd g := State.rd_congr rfl g

@[simp] theorem State.reg_trigger (s : State) (b : Bool) (a : Nat) : (s.trigger b).reg a = s.reg a := State.reg_congr rfl a

@[simp] theorem State.byte_trigger (s : State) (b : Bool) (a : Nat) : (s.trigger b).byte a = s.byte a := State.byte_congr rfl a

@[simp] theorem State.rd_trigger (s : State) (b : Bool) (g : Fld) : (s.trigger b).rd g = s.rd g := State.rd_congr rfl g

@[simp] theorem State.clu_updClu_same (s : State) (c : Nat) (f : ClusSt → ClusSt) : (s.updClu c f).clu c = f (s.clu c) :=
  tget_tput_same _ _ _ _

@[simp] theorem State.lane_updLane_same (s : State) (n : Nat) (f : LaneSt → LaneSt) : (s.updLane n f).lane n = f (s.lane n) :=
  tget_tput_same _ _ _ _

@[simp] theorem State.rfi_updRf_same (s : State) (i : Nat) (f : RfSt → RfSt) : (s.updRf i f).rfi i = f (s.rfi i) :=
  tget_tput_same _ _ _ _

theorem State.clu_congr {s t : State} (h : t.pwr.clus = s.pwr.clus) (c : Nat) : t.clu c = s.clu c := by
  unfold State.clu
  rw [h]

theorem State.lane_congr {s t : State} (h : t.lanes = s.lanes) (n : Nat) : t.lane n = s.lane n := by
  unfold State.lane
  rw [h]

theorem State.rfi_congr {s t : State} (h : t.rf = s.rf) (i : Nat) : t.rfi i = s.rfi i := by
  unfold State.rfi
  rw [h]

@[simp] theorem State.clu_wr (s : State) (f : Fld) (v c : Nat) : (s.wr f v).clu c = s.clu c := State.clu_congr rfl c
@[simp] theorem State.lane_wr (s : State) (f : Fld) (v n : Nat) : (s.wr f v).lane n = s.lane n := State.lane_congr rfl n
@[simp] theorem State.rfi_wr (s : State) (f : Fld) (v i : Nat) : (s.wr f v).rfi i = s.rfi i := State.rfi_congr rfl i
@[simp] theorem State.lane_setReg (s : State) (a : Nat) (v : Word) (n : Nat) : (s.setReg a v).lane n = s.lane n :=
  State.lane_congr rfl n
@[simp] theorem State.rfi_setReg (s : State) (a : Nat) (v : Word) (i : Nat) : (s.setReg a v).rfi i = s.rfi i :=
  State.rfi_congr rfl i
@[simp] theorem State.clu_raise (s : State) (t : PageType) (b i c : Nat) : (s.raise t b i).clu c = s.clu c :=
  State.clu_congr (by rw [State.raise_pwr]) c
@[simp] theorem State.lane_raise (s : State) (t : PageType) (b i n : Nat) : (s.raise t b i).lane n = s.lane n :=
  State.lane_congr (s.raise_lanes t b i) n
@[simp] theorem State.rfi_raise (s : State) (t : PageType) (b i j : Nat) : (s.raise t b i).rfi j = s.rfi j :=
  State.rfi_congr (s.raise_rf t b i) j

/-! ### Causes -/

theorem mem_twiRouteRegs_pend {k : Nat} (h : k < 4) : (F.TWI_ALERT_PEND_CAUSES k).addr ∈ twiRouteRegs := by
  have : k = 0 ∨ k = 1 ∨ k = 2 ∨ k = 3 := by omega
  rcases this with rfl | rfl | rfl | rfl <;> decide

theorem PageType.group_lt (t : PageType) {g : Nat} (h : t.group = some g) : g < 16 := by
  cases t <;> simp only [PageType.group, Option.some.injEq, reduceCtorEq] at h <;> omega

theorem State.reg_routeTwi (s : State) {c a : Nat} (hc : c < 128) (ha : a ∉ twiRouteRegs) : (s.routeTwi c).reg a = s.reg a := by
  have hp : a ≠ (F.TWI_ALERT_PEND_CAUSES (c / 32)).addr := fun e => ha (e ▸ mem_twiRouteRegs_pend (by omega))
  unfold State.routeTwi
  split
  · split
    · have h := s.reg_wr_ne (F.TWI_ALERT_PEND_CAUSES (c / 32)) (setBit (s.rd (F.TWI_ALERT_PEND_CAUSES (c / 32))) (c % 32)) hp
      obtain ⟨r, e⟩ := s.wr_parts (F.TWI_ALERT_PEND_CAUSES (c / 32)) (setBit (s.rd (F.TWI_ALERT_PEND_CAUSES (c / 32))) (c % 32))
      rw [e] at h ⊢
      exact h
    · rfl
  · split
    · unfold State.postIbr
      split
      · rfl
      · split
        · unfold State.sat
          exact s.reg_wr_ne _ _ (fun e => ha (by rw [e]; decide))
        · rfl
    · rfl

theorem State.reg_edgeGap (s : State) (t : PageType) (i b : Nat) (was : Bool) (a : Nat) : (s.edgeGap t i b was).reg a = s.reg a := by
  obtain ⟨g, h⟩ := s.edgeGap_parts t i b was
  rw [h]
  rfl

/-- Setting a cause touches its CAUSE register and the registers of the two-wire routing only. -/
theorem State.reg_setCause (s : State) (t : PageType) (i b : Nat) {a : Nat} (hb : b < 8) (h : a ≠ (F.CAUSE t i).addr)
    (ha : a ∉ twiRouteRegs) : (s.setCause t i b).reg a = s.reg a := by
  unfold State.setCause
  split
  · rfl
  · simp only [State.reg_edgeGap]
    cases hg : t.group with
    | none => exact s.reg_wr_ne _ _ h
    | some g =>
      have := t.group_lt hg
      simp only [State.reg_routeTwi _ (by omega : 8 * g + b < 128) ha]
      exact s.reg_wr_ne _ _ h

/-- An event that raises a cause touches its CAUSE register and the registers of the two-wire routing only. -/
theorem State.reg_raise (s : State) (t : PageType) (b i : Nat) {a : Nat} (hb : b < 8) (h : a ≠ (F.CAUSE t i).addr)
    (ha : a ∉ twiRouteRegs) : (s.raise t b i).reg a = s.reg a := by
  unfold State.raise
  split
  · exact s.reg_setCause t i b hb h ha
  · rfl

theorem State.sameRegsBut_raise {s u : State} {l : List Nat} (t : PageType) (b i : Nat) (hb : b < 8) (h : s.sameRegsBut l u)
    (hl : ∀ a, a ∈ causeRegs t i → a ∈ l) : s.sameRegsBut l (u.raise t b i) := fun a ha =>
  (u.reg_raise t b i hb (fun e => ha (hl a (by rw [e]; exact List.mem_cons_self)))
    (fun e => ha (hl a (List.mem_cons_of_mem _ e)))).trans (h a ha)

theorem State.rd_raise (s : State) (t : PageType) (b i : Nat) (f : Fld) (hb : b < 8) (h : f.addr ≠ (F.CAUSE t i).addr)
    (ha : f.addr ∉ twiRouteRegs) : (s.raise t b i).rd f = s.rd f := by
  unfold State.rd
  rw [s.reg_raise t b i hb h ha]

theorem bit_setBit_same (v b : Nat) : bit (setBit v b) b = true := by
  unfold setBit
  split
  · assumption
  · next h =>
    unfold bit at h ⊢
    simp only [decide_eq_true_eq] at h ⊢
    rw [show v + 2 ^ b = v + 1 * 2 ^ b from by omega, Nat.add_mul_div_right _ _ (Nat.two_pow_pos b)]
    omega

theorem bit_eq_testBit (v b : Nat) : bit v b = v.testBit b := by
  rw [Nat.testBit_eq_decide_div_mod_eq]; rfl

theorem setBit_lt {v b n : Nat} (hv : v < 2 ^ n) (hb : b < n) : setBit v b < 2 ^ n := by
  obtain ⟨m, rfl⟩ : ∃ m, n = b + (m + 1) := ⟨n - b - 1, by omega⟩
  unfold setBit
  split
  · exact hv
  · next h =>
    unfold bit at h
    simp only [decide_eq_true_eq] at h
    have hq : v / 2 ^ b < 2 ^ m * 2 := by
      rw [Nat.div_lt_iff_lt_mul (Nat.two_pow_pos b), ← Nat.pow_succ, ← Nat.pow_add, Nat.add_comm]
      exact hv
    have h2 : (v / 2 ^ b + 2) * 2 ^ b ≤ 2 ^ m * 2 * 2 ^ b := Nat.mul_le_mul_right _ (by omega)
    have h3 := Nat.lt_div_mul_add (a := v) (Nat.two_pow_pos b)
    rw [Nat.add_mul] at h2
    rw [Nat.pow_add, Nat.pow_succ, Nat.mul_comm (2 ^ b)]
    omega

theorem State.rd_cause_lt (s : State) (t : PageType) (i : Nat) : s.rd (F.CAUSE t i) < 2 ^ 8 := s.rd_lt _

/-- A cause set is set. -/
theorem State.caused_setCause (s : State) (t : PageType) (i b : Nat) (hb : b < 8) (ha : (F.CAUSE t i).addr ∉ twiRouteRegs) :
    bit ((s.setCause t i b).rd (F.CAUSE t i)) b = true := by
  have hv := setBit_lt (s.rd_cause_lt t i) hb
  have key : bit ((s.wr (F.CAUSE t i) (setBit (s.rd (F.CAUSE t i)) b)).rd (F.CAUSE t i)) b = true := by
    rw [State.rd_wr_same _ _ _ (by simp [F.CAUSE]) (by simp [F.CAUSE])]
    simp only [F.CAUSE] at hv ⊢
    rw [Nat.mod_eq_of_lt (by simpa using hv)]
    exact bit_setBit_same _ _
  unfold State.setCause
  split
  · assumption
  · cases hg : t.group with
    | none => simpa only [State.rd, State.reg_edgeGap] using key
    | some g =>
      have := t.group_lt hg
      simpa only [State.rd, State.reg_edgeGap, State.reg_routeTwi _ (by omega : 8 * g + b < 128) ha] using key

/-- An event raises its cause on an enabled page (R106). -/
theorem State.caused_raise (s : State) (t : PageType) (b i : Nat) (hb : b < 8) (ha : (F.CAUSE t i).addr ∉ twiRouteRegs)
    (he : s.en t i = true) : bit ((s.raise t b i).rd (F.CAUSE t i)) b = true := by
  unfold State.raise
  rw [he]
  exact s.caused_setCause t i b hb ha

theorem State.caused_congr {s u : State} {t : PageType} {b i : Nat} (h : u.reg (F.CAUSE t i).addr = s.reg (F.CAUSE t i).addr) :
    u.caused t b i ↔ s.caused t b i := by
  unfold State.caused State.rd
  rw [h]

theorem State.caused_wr (s : State) (f : Fld) (v : Nat) (t : PageType) (b i : Nat) (h : (F.CAUSE t i).addr ≠ f.addr) :
    (s.wr f v).caused t b i ↔ s.caused t b i := State.caused_congr (s.reg_wr_ne f v h)

theorem State.caused_setReg (s : State) (a : Nat) (v : Word) (t : PageType) (b i : Nat) (h : (F.CAUSE t i).addr ≠ a) :
    (s.setReg a v).caused t b i ↔ s.caused t b i := State.caused_congr (s.reg_setReg_ne v h)

theorem bit_setBit_ne {v b j : Nat} (h : j ≠ b) : bit (setBit v b) j = bit v j := by
  unfold setBit
  split
  · rfl
  · next hb =>
    rw [bit_eq_testBit] at hb
    rw [bit_eq_testBit, bit_eq_testBit, Nat.add_comm]
    by_cases hj : j < b
    · exact Nat.testBit_two_pow_add_gt hj v
    · obtain ⟨k, rfl⟩ : ∃ k, j = b + 1 + k := ⟨j - b - 1, by omega⟩
      rw [Nat.testBit_eq_decide_div_mod_eq, Nat.testBit_eq_decide_div_mod_eq, Nat.add_assoc b, Nat.pow_add, Nat.pow_add,
        ← Nat.div_div_eq_div_mul, ← Nat.div_div_eq_div_mul, ← Nat.div_div_eq_div_mul, ← Nat.div_div_eq_div_mul,
        Nat.add_div_left _ (Nat.two_pow_pos b)]
      have : v / 2 ^ b % 2 = 0 := by
        rw [Nat.testBit_eq_decide_div_mod_eq] at hb
        simpa using hb
      have e : (v / 2 ^ b).succ / 2 ^ 1 = v / 2 ^ b / 2 ^ 1 := by omega
      rw [e]

/-- A cause that is set stays set when another event raises a cause. -/
theorem State.caused_raise_keep (s : State) (t t' : PageType) (b i b' i' : Nat) (hb : b < 8) (ha : (F.CAUSE t' i').addr ∉ twiRouteRegs)
    (h : s.caused t' b' i') : (s.raise t b i).caused t' b' i' := by
  by_cases e : (F.CAUSE t' i').addr = (F.CAUSE t i).addr
  · have ef : F.CAUSE t' i' = F.CAUSE t i := by
      unfold F.CAUSE at e ⊢
      simp only at e
      rw [e]
    unfold State.caused at h ⊢
    rw [ef] at h ha ⊢
    unfold State.raise
    split
    · unfold State.setCause
      split
      · exact h
      · have key : bit ((s.wr (F.CAUSE t i) (setBit (s.rd (F.CAUSE t i)) b)).rd (F.CAUSE t i)) b' = true := by
          have hv := setBit_lt (s.rd_cause_lt t i) hb
          rw [State.rd_wr_same _ _ _ (by simp [F.CAUSE]) (by simp [F.CAUSE])]
          simp only [F.CAUSE] at hv h ⊢
          rw [Nat.mod_eq_of_lt (by simpa using hv)]
          by_cases eb : b' = b
          · rw [eb]
            exact bit_setBit_same _ _
          · rw [bit_setBit_ne eb]
            exact h
        cases hg : t.group with
        | none => simpa only [State.rd, State.reg_edgeGap] using key
        | some g =>
          have := t.group_lt hg
          simpa only [State.rd, State.reg_edgeGap, State.reg_routeTwi _ (by omega : 8 * g + b < 128) ha] using key
    · exact h
  · exact (State.caused_congr (s.reg_raise t b i hb e ha)).mpr h

/-! ### Causes raised on the way to a state -/

theorem State.raises_self (s u : State) (t : PageType) (b i : Nat) (hb : b < 8) (ha : (F.CAUSE t i).addr ∉ twiRouteRegs)
    (he : u.en t i = s.en t i) : s.raises t b i (u.raise t b i) :=
  fun h => u.caused_raise t b i hb ha (he.trans h)

theorem State.raises_keep (s u : State) (t t' : PageType) (b i b' i' : Nat) (hb : b < 8) (ha : (F.CAUSE t' i').addr ∉ twiRouteRegs)
    (h : s.raises t' b' i' u) : s.raises t' b' i' (u.raise t b i) := fun he => u.caused_raise_keep t t' b i b' i' hb ha (h he)

theorem State.raises_wr (s u : State) (f : Fld) (v : Nat) (t : PageType) (b i : Nat) (h : (F.CAUSE t i).addr ≠ f.addr) :
    s.raises t b i (u.wr f v) ↔ s.raises t b i u := by
  unfold State.raises
  rw [u.caused_wr f v t b i h]

theorem State.raises_setReg (s u : State) (a : Nat) (v : Word) (t : PageType) (b i : Nat) (h : (F.CAUSE t i).addr ≠ a) :
    s.raises t b i (u.setReg a v) ↔ s.raises t b i u := by
  unfold State.raises
  rw [u.caused_setReg a v t b i h]

theorem State.raises_mk (s u : State) (t : PageType) (b i : Nat)
    (x_mem : List Host.Cell) (x_boot : Boot) (x_pins : PinSt) (x_clk : ClkSt) (x_pwr : PwrSt) (x_rf : List (Nat × RfSt)) (x_lanes : List (Nat × LaneSt)) (x_twi : TwiSt) (x_intGap : Bool) (x_place : PlaceSt) (x_time : TimeSt) (x_sched : SchedSt) (x_ana : List (Nat × AnaSt)) (x_ofdm : List (Nat × OfdmSt)) (x_fec : FecSt) (x_watch : List (Nat × WatchSt)) (x_follow : List (Nat × FolSt)) (x_adec : AdecSt) (x_aud : List (Nat × AudSt)) (x_data : DataSt) (x_probe : PrbSt) (x_memT : MemSt) (x_casc : CascSt) (x_host : HostSt) (x_free : Nat) (x_pending : List Instr) :
    s.raises t b i (State.mk u.regs x_mem x_boot x_pins x_clk x_pwr x_rf x_lanes x_twi x_intGap x_place x_time x_sched x_ana x_ofdm x_fec x_watch x_follow x_adec x_aud x_data x_probe x_memT x_casc x_host x_free x_pending) ↔ s.raises t b i u := Iff.rfl

/-- A page that is not enabled latches nothing (R106). -/
theorem State.raise_off (s : State) (t : PageType) (b i : Nat) (he : s.en t i = false) : s.raise t b i = s := by
  unfold State.raise
  simp [he]

end Sys2Proof.Machine
end

