-- ==== Sys2Proof/Laws/Reset.lean ====
section
/-! SUPPORT. What a warm reset leaves, and what following the time sources touches. -/
namespace Sys2Proof.Machine
open Sys2Proof

/-- A property that every pass of a loop keeps holds after the loop. -/
theorem State.each_prop {α : Type} (P : State → Prop) (f : State → α → State) (h : ∀ s x, P s → P (f s x)) (l : List α) (s : State)
    (hs : P s) : P (s.each l f) := by
  unfold State.each
  induction l generalizing s with
  | nil => exact hs
  | cons a l ih => exact ih _ (h s a hs)

/-- A loop over a list of known elements. -/
theorem State.each_prop_mem {α : Type} (P : State → Prop) (f : State → α → State) (l : List α) (h : ∀ s x, x ∈ l → P s → P (f s x))
    (s : State) (hs : P s) : P (s.each l f) := by
  unfold State.each
  induction l generalizing s with
  | nil => exact hs
  | cons a l ih => exact ih (fun s x hx => h s x (List.mem_cons_of_mem _ hx)) _ (h s a List.mem_cons_self hs)

/-- Following the time sources touches registers, the two-wire queue, the gap of INT_N and the time base. -/
theorem State.timeEval_parts (s : State) : ∃ r w g t, s.timeEval = { s with regs := r, twi := w, intGap := g, time := t } := by
  unfold State.timeEval
  have k1 (x : State) (c : Prop) [Decidable c] (b : Nat) :
      ∃ r w g, (if c then x.raise .time b else x) = { x with regs := r, twi := w, intGap := g } := by
    split
    · exact x.raise_parts .time b 0
    · exact ⟨x.regs, x.twi, x.intGap, rfl⟩
  obtain ⟨r1, e1⟩ := s.wr_parts F.TIME_STAT_STATE s.timeState
  simp only [e1]
  obtain ⟨r2, e2⟩ := State.wr_parts { s with regs := r1 } F.TIME_STAT_SRC s.timeSrc
  simp only [e2]
  obtain ⟨r3, w3, g3, e3⟩ := k1 { s with regs := r2 } (s.timeState = 1 ∧ s.rd F.TIME_STAT_STATE ≠ 1) C.TIME_THERMOS
  simp only [e3]
  obtain ⟨r4, w4, g4, e4⟩ := k1 { s with regs := r3, twi := w3, intGap := g3 } (s.timeSrc ≠ s.rd F.TIME_STAT_SRC) C.TIME_SRC_CHANGE
  simp only [e4]
  split
  · obtain ⟨r5, e5⟩ := State.wr_parts { s with regs := r4, twi := w4, intGap := g4 } F.TIME_UNCERT_US
      (if s.time.casc then min 0xFFFFFFFF (s.time.uncM + 1) else 1)
    simp only [e5]
    exact ⟨r5, w4, g4, _, rfl⟩
  · exact ⟨r4, w4, g4, s.time, rfl⟩

@[simp] theorem State.timeEval_boot (s : State) : s.timeEval.boot = s.boot := by
  obtain ⟨r, w, g, t, h⟩ := s.timeEval_parts
  rw [h]

@[simp] theorem State.timeEval_clk (s : State) : s.timeEval.clk = s.clk := by
  obtain ⟨r, w, g, t, h⟩ := s.timeEval_parts
  rw [h]

@[simp] theorem State.timeEval_mem (s : State) : s.timeEval.mem = s.mem := by
  obtain ⟨r, w, g, t, h⟩ := s.timeEval_parts
  rw [h]

@[simp] theorem State.timeEval_pending (s : State) : s.timeEval.pending = s.pending := by
  obtain ⟨r, w, g, t, h⟩ := s.timeEval_parts
  rw [h]

/-- Registers that following the time sources may change. -/
def timeEvalRegs : List Nat := 0x404C :: 0x4050 :: causeRegs .time 0

theorem State.sameRegs_timeEval (s : State) : s.sameRegsBut timeEvalRegs s.timeEval := by
  have k1 (x : State) (c : Prop) [Decidable c] (b : Nat) (hb : b < 8) (h : s.sameRegsBut timeEvalRegs x) :
      s.sameRegsBut timeEvalRegs (if c then x.raise .time b else x) := by
    split
    · exact State.sameRegsBut_raise .time b 0 hb h (fun a ha => List.mem_cons_of_mem _ (List.mem_cons_of_mem _ ha))
    · exact h
  have h0 : s.sameRegsBut timeEvalRegs ((s.wr F.TIME_STAT_STATE s.timeState).wr F.TIME_STAT_SRC s.timeSrc) :=
    State.sameRegsBut_wr _ (State.sameRegsBut_wr _ (s.sameRegsBut_refl _) (by decide)) (by decide)
  have h2 := k1 _ (s.timeSrc ≠ s.rd F.TIME_STAT_SRC) C.TIME_SRC_CHANGE (by decide)
    (k1 _ (s.timeState = 1 ∧ s.rd F.TIME_STAT_STATE ≠ 1) C.TIME_THERMOS (by decide) h0)
  unfold State.timeEval
  simp only
  generalize (if s.timeSrc ≠ s.rd F.TIME_STAT_SRC then _ else _ : State) = x at h2 ⊢
  split
  · exact State.sameRegsBut_congr (State.sameRegsBut_wr (f := F.TIME_UNCERT_US) _ h2 (by decide)) rfl
  · exact h2

/-- Properties that writes outside SYS.RESET_CAUSE keep survive the end of a warm reset. -/
theorem State.cascRole_prop (P : State → Prop) (w : ∀ (t : State) (g : Fld) (v : Nat), g.addr ≠ 0x64 → P t → P (t.wr g v)) (t : State)
    (h : P t) : P t.cascRole := by
  unfold State.cascRole
  exact w _ _ _ (by decide) (w _ _ _ (by decide) (w _ _ _ (by decide) (w _ _ _ (by decide) h)))

theorem State.showFence_prop (P : State → Prop) (w : ∀ (t : State) (g : Fld) (v : Nat), g.addr ≠ 0x64 → P t → P (t.wr g v)) (t : State)
    (h : P t) : P t.showFence := by
  unfold State.showFence
  exact w _ _ _ (by decide) h

theorem State.dropStep_parts (s : State) : s.dropStep.clk = s.clk ∧ s.dropStep.pending = s.pending := by
  unfold State.dropStep State.toThermos
  simp only
  constructor <;> (repeat' split) <;> rfl

theorem State.wiped_parts (s : State) (w : Wipe) : (s.wiped w).clk.xo = s.clk.xo ∧ (s.wiped w).pending = s.pending := by
  unfold State.wiped
  exact ⟨rfl, rfl⟩

/-- A warm reset leads to the warm boot, with the bit of its cause set (R89, R91, R92). -/
theorem State.warmReset_spec (s : State) (f : Fld) (hf : f.addr = 0x64) (hl : f.lo = f.hi) (hh : f.hi < 32) :
    (s.warmReset f).boot = Boot.warm ∧ (s.warmReset f).rd f = 1 ∧ (s.warmReset f).clk.xo = s.clk.xo ∧
      (s.warmReset f).pending = s.pending := by
  rw [State.warmReset]
  obtain ⟨hw1, hw2⟩ := s.dropStep.wiped_parts .warm
  rw [s.dropStep_parts.1] at hw1
  rw [s.dropStep_parts.2] at hw2
  generalize s.dropStep.wiped .warm = x at hw1 hw2 ⊢
  have h1 : ({ x with boot := Boot.warm }.wr f 1).rd f = 1 := by
    rw [State.rd_wr_same _ _ _ (by omega) hh, hl]
    simp
  let P (t : State) : Prop := t.boot = Boot.warm ∧ t.rd f = 1 ∧ t.clk.xo = s.clk.xo ∧ t.pending = s.pending
  have w (t : State) (g : Fld) (v : Nat) (hg : g.addr ≠ 0x64) (h : P t) : P (t.wr g v) :=
    ⟨(t.wr_boot g v).trans h.1, (t.rd_wr_ne g f v (by rw [hf]; exact Ne.symm hg)).trans h.2.1,
      (congrArg ClkSt.xo (t.wr_clk g v)).trans h.2.2.1, (t.wr_pending g v).trans h.2.2.2⟩
  have h2 : P ({ x with boot := Boot.warm }.wr f 1) :=
    ⟨State.wr_boot _ f 1, h1, (congrArg ClkSt.xo (State.wr_clk _ f 1)).trans hw1, (State.wr_pending _ f 1).trans hw2⟩
  generalize { x with boot := Boot.warm }.wr f 1 = y at h2 ⊢
  have h3 := State.showFence_prop P w _ h2
  generalize y.showFence = z at h3 ⊢
  have h4 := State.each_prop P (fun s c => if bit (s.rd F.PWR_FENCE_FENCED) c then s.wr (F.CLUS_STAT_POWER c) 6 else s)
    (fun t c ht => by
      split
      · exact w _ _ _ (by simp only [F.CLUS_STAT_POWER]; omega) ht
      · exact ht) (List.range 4) _ h3
  have h5 := State.cascRole_prop P w _ h4
  generalize State.cascRole _ = u at h5 ⊢
  refine ⟨?_, ?_, ?_, ?_⟩
  · rw [State.timeEval_boot]; exact h5.1
  · have e := State.sameRegs_timeEval u f.addr (by rw [hf]; decide)
    unfold State.rd
    rw [e]
    exact h5.2.1
  · rw [State.timeEval_clk]; exact h5.2.2.1
  · rw [State.timeEval_pending]; exact h5.2.2.2

end Sys2Proof.Machine
end

