-- ==== Sys2Proof/Laws/Bus.lean ====
section
/-! SUPPORT. Register writes: a write that passes its checks is performed, and what that means for a plain register. -/
namespace Sys2Proof.Machine
open Sys2Proof

/-- A write that passes every check of R111 is performed. -/
theorem State.write_of_accepts (s : State) (lvl a : Nat) (w : Word) (x : Facts) (t : PageType) (i o : Nat)
    (h : s.accepts lvl a w x.rfin) (hs : isSram a = false) (hp : pageOf a = some (t, i, o)) (ht : t ≠ .hamper) :
    s.write lvl a w x = s.perform lvl t i o w x := by
  obtain ⟨h0, h6, h1, h2, h3, h4, h5⟩ := h
  have h4' := h4 t i o hp
  simp only [State.write, h0, h6, State.busWrite, h1, h2, h3, hp, h4', h5, hs]
  cases t <;> simp_all

/-- A performed write to a register of a page stores its word and has the register's effect. -/
theorem State.perform_reg (s : State) (lvl : Nat) (t : PageType) (i o : Nat) (w : Word) (x : Facts)
    (h1 : t ≠ .hamper) (h2 : t ≠ .qw) (h3 : 0x40 ≤ o) (h4 : (findReg (regsOf t) o).isSome = true) (h5 : t ≠ .lane ∨ o < 0x800)
    (h6 : t ≠ .host ∨ o < 0x800) :
    s.perform lvl t i o w x =
      (s.setReg (t.base i + o) (s.writtenWord t o (s.reg (t.base i + o)) w)).afterWrite t i o (s.reg (t.base i + o)) w x := by
  have h3' : ¬ o < 0x40 := by omega
  have h5' : ¬(t = .lane ∧ 0x800 ≤ o) := by
    rintro ⟨e, h⟩
    rcases h5 with h5 | h5
    · exact h5 e
    · omega
  have h6' : ¬(t = .host ∧ 0x800 ≤ o) := by
    rintro ⟨e, h⟩
    rcases h6 with h6 | h6
    · exact h6 e
    · omega
  simp only [State.perform, h1, h2, h3', h4, h5', h6', ne_eq, not_false_eq_true, and_self, and_false, if_false, if_true]

/-- A performed write to a page header that ends no Viterbi/RS block (R345): the header's own effect. -/
theorem State.perform_head (s : State) (lvl : Nat) (t : PageType) (i o : Nat) (w : Word) (x : Facts)
    (h1 : t ≠ .hamper) (h2 : t ≠ .qw) (h3 : o < 0x40) (h4 : t = .fec → o = 0x004 → getBits w 1 1 ≠ 1 ∧ getBits w 0 0 ≠ 0) :
    s.perform lvl t i o w x = s.writeHead lvl t i o w := by
  have h5 : (decide (t = .fec) && decide (o = 0x004) && (decide (getBits w 1 1 = 1) || decide (getBits w 0 0 = 0))) = false := by
    by_cases e : t = .fec <;> by_cases g : o = 0x004 <;> simp_all
  simp only [State.perform, h1, h2, h3, h5, ne_eq, not_false_eq_true, and_self, if_true, Bool.false_eq_true, if_false]

end Sys2Proof.Machine
end

