-- ==== Sys2Proof/Laws/Dsp.lean ====
section
/-! SUPPORT. The arithmetic of a lane's data path. -/
namespace Sys2Proof.Machine

theorem toField_lt (n : Nat) (x : Int) : toField n x < 2 ^ n := by
  have h : (0 : Int) < 2 ^ n := Int.pow_pos (by decide)
  have h1 := Int.emod_lt_of_pos x h
  have h2 := Int.emod_nonneg x (Int.ne_of_gt h)
  have h3 : ((2 ^ n : Nat) : Int) = 2 ^ n := by simp
  unfold toField
  omega

/-- What a chain of integrators gives does not depend on the values collected before. -/
theorem integrate_append (l : List Nat) : ∀ (v : Nat) (done : List Nat), v < 2 ^ 42 →
    (l.foldl (fun (acc : Nat × List Nat) a => let w := (a + acc.1) % 2 ^ 42; (w, acc.2 ++ [w])) (v, done)).2 =
      done ++ integrate l v := by
  induction l with
  | nil => intro v done _; simp [integrate]
  | cons b l ih =>
    intro v done h
    have e : ((v : Int) % 2 ^ 42).toNat = v := by omega
    simp only [List.foldl_cons, integrate, e]
    rw [ih _ _ (by omega), ih _ _ (by omega)]
    simp

/-- What a chain of combs gives does not depend on the lines collected before. -/
theorem comb_append (l : List Nat) : ∀ (y : Nat) (done : List Nat),
    l.foldl (fun (acc : List Nat × Nat) z => (acc.1 ++ [acc.2], (acc.2 + 2 ^ 42 - z) % 2 ^ 42)) (done, y) =
      (done ++ (comb l y).1, (comb l y).2) := by
  induction l with
  | nil => intro y done; simp [comb]
  | cons b l ih => intro y done; simp only [List.foldl_cons, comb]; rw [ih, ih]; simp

/-- The output of a sum of products is marked exactly when a sample of its span is, or its span reaches beyond the line. -/
@[simp] theorem Smp.ofLine_mark (taps : List Int) (n : Nat) (l : List Smp) :
    (Smp.ofLine taps n l).mark = ((l.take taps.length).any Smp.mark || decide (l.length < taps.length)) := rfl

@[simp] theorem Smp.ofLine_sat (taps : List Int) (n : Nat) (l : List Smp) :
    (Smp.ofLine taps n l).sat = (l.take taps.length).any Smp.sat := rfl

@[simp] theorem Smp.ofLine_event (taps : List Int) (n : Nat) (l : List Smp) : (Smp.ofLine taps n l).event = false := rfl

@[simp] theorem Smp.clip_mark (x : Smp) (n : Nat) : (x.clip n).mark = x.mark := rfl

@[simp] theorem Smp.clip_event (x : Smp) (n : Nat) : (x.clip n).event = x.event := rfl

/-- A clipped component lies in its range, and is the component itself where that does. -/
theorem clip_range (n : Nat) (v : Int) : -(2 ^ (n - 1) : Int) ≤ clip n v ∧ clip n v < 2 ^ (n - 1) := by
  have h : (0 : Int) < 2 ^ (n - 1) := Int.pow_pos (by decide)
  unfold clip
  omega

theorem clip_id {n : Nat} {v : Int} (h1 : -(2 ^ (n - 1) : Int) ≤ v) (h2 : v < 2 ^ (n - 1)) : clip n v = v := by
  unfold clip
  omega

end Sys2Proof.Machine
end

