-- ==== Sys2Proof/Laws/Cells.lean ====
section
/-! SUPPORT. Laws of the cells of an OFDM symbol. -/
namespace Sys2Proof
open Sys2Proof.Machine

@[simp] theorem Cx.scale_zero (n : Int) : Cx.scale n Cx.zero = Cx.zero := by simp [Cx.scale, Cx.zero]

@[simp] theorem Cx.add_zero (a : Cx) : a.add Cx.zero = a := by cases a; simp [Cx.add, Cx.zero]

@[simp] theorem Cx.zero_add (a : Cx) : Cx.zero.add a = a := by cases a; simp [Cx.add, Cx.zero]

@[simp] theorem Cx.conjMul_zero (a : Cx) : Cx.conjMul Cx.zero a = Cx.zero := by simp [Cx.conjMul, Cx.zero]

/-- The sums of two groups of branches do not depend on their order. -/
theorem Cell.plus_comm (a b : Cell) : a.plus b = b.plus a := by
  simp only [Cell.plus, Cx.add, Cx.scale, Nat.mul_comm a.all b.all, Cell.mk.injEq, Cx.mk.injEq]
  exact ⟨⟨Int.add_comm _ _, Int.add_comm _ _⟩, Nat.add_comm _ _, trivial⟩

/-- A soft value has 6 bits (R317). -/
theorem soft6_range (num : Int) (den : Nat) : -32 ≤ soft6 num den ∧ soft6 num den < 32 := clip_range 6 _

/-- A carrier in no sum gives erasures (R317). -/
theorem dqpskSoft_erased {m : Cx × Nat} {y : Cell} (h : y.den = 0) : dqpskSoft m y = [0, 0] := by simp [dqpskSoft, h]

theorem qamSoft_length (bits : Nat) (y : Cell) : (qamSoft bits y).length = bits := by simp [qamSoft]

theorem qamSoft_erased {bits : Nat} {y : Cell} (h : y.den = 0) : qamSoft bits y = List.replicate bits 0 := by
  simp [qamSoft, h, List.map_const']

end Sys2Proof
end

