-- ==== Sys2Proof/Laws/Guards.lean ====
section
/-! SUPPORT. The guards of stopped domains, the tasks of the management controller, and the commands of one PER cycle. -/
namespace Sys2Proof.Machine

/-- A domain that runs does what its block does. -/
@[simp] theorem State.whenUp_up {s : State} (f : State → State) (h : s.busUp = true) : s.whenUp f = f s := by
  simp [State.whenUp, h]

/-- A domain that has stopped does nothing (R51, R72). -/
@[simp] theorem State.whenUp_down {s : State} (f : State → State) (h : s.busUp = false) : s.whenUp f = s := by
  simp [State.whenUp, h]

@[simp] theorem State.whenRoot_ok {s : State} (f : State → State) (h : s.rootOk = true) : s.whenRoot f = f s := by
  simp [State.whenRoot, h]

/-- What follows the root PLL does nothing without it (R56, R62). -/
@[simp] theorem State.whenRoot_lost {s : State} (f : State → State) (h : s.rootOk = false) : s.whenRoot f = s := by
  simp [State.whenRoot, h]

/-- A guarded step keeps what both the step and standing still keep. -/
theorem State.whenUp_keeps {P : State → Prop} {f : State → State} {s : State} (h : P s) (hf : s.busUp = true → P (f s)) :
    P (s.whenUp f) := by
  unfold State.whenUp
  split
  · exact hf ‹_›
  · exact h

theorem State.whenRoot_keeps {P : State → Prop} {f : State → State} {s : State} (h : P s) (hf : s.rootOk = true → P (f s)) :
    P (s.whenRoot f) := by
  unfold State.whenRoot
  split
  · exact hf ‹_›
  · exact h

/-- A task whose accesses the table all allows is carried out (R119). -/
@[simp] theorem State.mgmtTask_allowed {s : State} {l : List (Nat × Bool)} (task : State → State) (h : s.mgmtDenied l = none) :
    s.mgmtTask l task = task s := by
  simp [State.mgmtTask, h]

/-- A task with a refused access is abandoned, and the refusal recorded (R119). -/
theorem State.mgmtTask_refused {s : State} {l : List (Nat × Bool)} {a : Nat} {write : Bool} (task : State → State)
    (h : s.mgmtDenied l = some (a, write)) : s.mgmtTask l task = s.refuse 3 a write 0 := by
  simp [State.mgmtTask, h]

@[simp] theorem State.faultFence_allowed {s : State} {c why : Nat} (h : s.mgmtDenied fenceTask = none) :
    s.faultFence c why = s.fence [c] true why := by
  simp [State.faultFence, h]

/-- A device update and a write of one cycle: the update comes first, so that the written value remains (R122). -/
@[simp] theorem perCycle_write {u : List Instr} {w : Instr} (h : clearsW1c w = false) : perCycle u (some w) = u ++ [w] := by
  simp [perCycle, h]

/-- A write that clears comes before the updates of its cycle, so that a bit they set ends set (R10). -/
@[simp] theorem perCycle_clear {u : List Instr} {w : Instr} (h : clearsW1c w = true) : perCycle u (some w) = w :: u := by
  simp [perCycle, h]

/-- Nothing of a cycle is lost: its commands are the updates and the access. -/
theorem mem_perCycle {u : List Instr} {w c : Instr} : c ∈ perCycle u (some w) ↔ c ∈ u ∨ c = w := by
  cases h : clearsW1c w <;> simp [perCycle, h, or_comm]

end Sys2Proof.Machine
end

