-- ==== Sys2Proof/WellFormed.lean ====
section
/-! DEFINITION. Operands that can come with an event: bounds that spec/ sets and that the operand's type does not. No meaning
asks for them; a command outside them is an event that the environment cannot send. -/
namespace Sys2Proof

/-- A block of the FIG channel is eight words (R339). -/
def Fib.wf (f : Fib) : Bool := decide (f.words.length = 8)

/-- The strongest correctable burst is 5 bits, and a burst lies in the 26 bits of a block (R284). -/
def RdsBlock.wf (b : RdsBlock) : Bool := decide (b.burst ≤ 26)

/-- A lane reports at most one power. -/
def Powers.wf (p : Powers) : Bool := decide ((p.map Prod.fst).Nodup)

/-- A memory event names an aligned half of a 64-bit word, inside the window (R98, R498). -/
def MemHit.wf (h : MemHit) : Bool := decide (0x380000 ≤ h.addr.toNat) && decide (h.addr.toNat % 4 = 0)

/-- Facts of an access. -/
def Facts.wf (x : Facts) : Bool := x.pow.wf && x.hits.all MemHit.wf

/-- The bytes of a two-wire write hold the three pointer bytes (R162). -/
def hasPointer (bytes : List (BitVec 8)) : Bool := decide (3 ≤ bytes.length)

/-- The operands can come with the command's event. -/
def Instr.wf : Instr → Bool
  | .registerWrite _ _ _ x => x.wf
  | .hamperWrite _ _ _ _ x => x.wf
  | .qspiRead _ _ x => x.wf
  | .qspiWrite _ data _ => decide (data.length ≤ 257)
  | .twiPointerWrite bytes x => decide (bytes.length = 3) && x.wf
  | .twiRegisterWrite bytes x => hasPointer bytes && x.wf
  | .fibDecoded _ f => f.wf
  | .rdsBlock _ b => b.wf
  | .probeGo _ pow => pow.wf
  | .tunnelPacketReceived write _ len data x => x.wf && (if write then decide (data.length = len + 1) else data.isEmpty)
  | .tunnelAck _ data => decide (data.length ≤ 16)
  | .ctlDone rx => decide (rx.length ≤ 32)
  | .rcCalibrationDone count => decide (0 < count.toNat)
  | _ => true

end Sys2Proof
end

