-- ==== Sys2Proof/Tests/Slice0.lean ====
section
/-! SUPPORT. The model's own tests: states and operands that meet the hypotheses of every statement, the ill-formed commands,
and single steps on values of the spec. -/
namespace Sys2Proof.Tests
set_option Elab.async false
open Sys2Proof Sys2Proof.Machine

def putClk (f : ClkSt → ClkSt) (s : State) : State := { s with clk := f s.clk }
def putPwr (f : PwrSt → PwrSt) (s : State) : State := { s with pwr := f s.pwr }
def putTwi (f : TwiSt → TwiSt) (s : State) : State := { s with twi := f s.twi }
def putPlace (f : PlaceSt → PlaceSt) (s : State) : State := { s with place := f s.place }
def putTime (f : TimeSt → TimeSt) (s : State) : State := { s with time := f s.time }
def putSched (f : SchedSt → SchedSt) (s : State) : State := { s with sched := f s.sched }
def putFec (f : FecSt → FecSt) (s : State) : State := { s with fec := f s.fec }
def putAdec (f : AdecSt → AdecSt) (s : State) : State := { s with adec := f s.adec }
def putData (f : DataSt → DataSt) (s : State) : State := { s with data := f s.data }
def putProbe (f : PrbSt → PrbSt) (s : State) : State := { s with probe := f s.probe }
def putMemT (f : MemSt → MemSt) (s : State) : State := { s with memT := f s.memT }
def putCasc (f : CascSt → CascSt) (s : State) : State := { s with casc := f s.casc }
def putHost (f : HostSt → HostSt) (s : State) : State := { s with host := f s.host }
def putPins (f : PinSt → PinSt) (s : State) : State := { s with pins := f s.pins }

/-- The device after boot, in Standby. -/
def up : State :=
  putClk (fun c => { c with xo := .stable })
    (putPins (fun p => { p with porHeld := false, resetN := true })
      ({ State.reset with boot := .ready }.wr F.PWR_STATE_STAT_STATE 1 |>.wr F.SYS_BOOT_STAT_READY 1))

/-- The checks of R111 as one Boolean. -/
def passes (s : State) (lvl a : Nat) (w : Word) (r : BitVec 4) : Bool :=
  s.answers && !mgmtNever lvl a && decide (a % 4 = 0) && !s.reserved lvl a && s.mayAccess lvl (artIndex a) true &&
    (match pageOf a with | some (t, i, o) => (s.lockKind lvl t i o w).isNone | none => true) && (s.rangeReasons lvl a w r).isEmpty

theorem acc {s : State} {lvl a : Nat} {w : Word} {r : BitVec 4} (h : passes s lvl a w r = true) : s.accepts lvl a w r := by
  simp only [passes, Bool.and_eq_true, decide_eq_true_eq, Bool.not_eq_true', List.isEmpty_iff] at h
  obtain ⟨⟨⟨⟨⟨⟨h1, h0⟩, h2⟩, h3⟩, h4⟩, h5⟩, h6⟩ := h
  refine ⟨h1, h0, h2, h3, h4, ?_, h6⟩
  intro t i o hp
  rw [hp] at h5
  simpa using h5

/-- The device in Receive, its clusters powered and its inputs sampled at the full rate. -/
def rx : State :=
  (((((up.wr F.PWR_STATE_STAT_STATE 3).wr (F.CLUS_STAT_POWER 0) 4).wr (F.CLUS_STAT_POWER 1) 4).wr (F.CLUS_STAT_POWER 2) 4).wr
    (F.CLUS_STAT_POWER 3) 4).setReg 0x1054 0x55

theorem noLock {s : State} {lvl a : Nat} {w : Word}
    (h : (match pageOf a with | some (t, i, o) => (s.lockKind lvl t i o w).isNone | none => true) = true) :
    ∀ t i o, pageOf a = some (t, i, o) → s.lockKind lvl t i o w = none := by
  intro t i o hp
  rw [hp] at h
  simpa using h

/-! Operands from which the witnesses start. -/

def facts : Facts := { pow := [], rfin := 15, hits := [], frame := false, vrs := [] }
def chain (b e c : Nat) : PChain :=
  { id := 0, use := .held, bearer := b, clus := c, main := { freq := 0, eng := e, br := [{ lane := 0, input := 0, fresh := false }] }
    pair := none, work := 0, pairWork := 0, pairLost := false, deint := none }
/-- A chain of a combining pair on engines 6 and 7 of cluster 3. -/
def pairChain : PChain :=
  { chain 2 6 3 with pair := some { freq := 0, eng := 7, br := [] } }
/-- Hamper 127 is Placed on a chain, as `f` says. -/
def placedOn (c : PChain) (f : HamSt → HamSt) (s : State) : State :=
  putPlace (fun p => { p with live := { Plan.init with chains := [c], hams := [(127, f { HamSt.init with state := 2, chain := some 0 })], nextId := 1 } }) s
def anaWin : AnaWin :=
  { counted := true, cnr4 := 1000, mp := 0, level4 := 0, adj4 := 0, pilot := none, pll := true, invalid := false, out0 := false, out1 := false,
    w0 := 255, w1 := 0, peaks := [], runs := [] }
def rdsB : RdsBlock := { stream := 0, offset := .b, burst := 0, info := 0, bit := 0, start := 0, afs := [], clock := none }
def frame : OfdmFrame :=
  { counted := true, peak2 := 1000, drmMode := none, p1 := none, ofs := 0, time := 0, resid := true, peaks := [], invalid := false }
def sig0 : Signalling := { resolves := [], afs := [], links := [], clock := none }
def flips0 : Flips := { bits := 0, wrong := 0 }
def fib : Fib :=
  { words := [0, 0, 0, 0, 0, 0, 0, 54714], cif := 0, erased := false, flips := flips0, sig := sig0, intact := true }
def service : Service :=
  { stream := 0, hams := [127], packet := false, erased := false, corrected := false, words := [], pad := 0, aus := [some true], flips := flips0, intact := true }
def lframe : LogicalFrame := { cif := 0, plus := false, single := false, service := service }
def sframe : Superframe := { cif := 0, passes := [{ words := [], fire := true }], single := false, service := service }
def drm : DrmFrame :=
  { frame := 0, fac := [], sdc := none, occ := 0, qam := 0, span := 1, services := [], erased := false, flips := flips0, sig := sig0, intact := true }
def t2 : T2L1 :=
  { frame := 0, preOk := true, postOk := false, fft := 1, gi := 0, pp := 0, ext := false, qam := 1, announced := false, changed := false,
    words := [], pad := 0, iter := 1, uncorr := false, common := [], flips := flips0, erased := false, blocks := [], sig := sig0, intact := true }
def block : Block :=
  { kind := 0, check := 0, uncorr := false, erased := false, combined := false, iter := 0, engine := 0, counter := 0, stream := 0, pad := 0,
    payload := [], corrected := false, intact := true }
def lblock : LBlock := { who := 127, eng := 7, plp := 0, common := false, waited := false, limit := 50, stop := true, chain := 0, users := [] }
def lres : LdpcResult := { parity := some 0, bitErrors := 13, header := [], flips := flips0, gse := false, frame := 0, packets := [] }
def cifs : CifPair := { soft := [], sameEid := true, sameFig := true, skew := 0, complete := true, frameEnd := true, share := 0 }
def meas : Meas := { bearer := 2, freq := 0, source := 0, eng := none, verify := false }
def mres : MeasResult := { valid := true, detected := true, wins := [(0, 0)], level4 := 0, snr4 := 0, ident := 1, eid := 0 }
def switch : Switch :=
  { watcher := 127, bearer := 2, freq := 0, prevFreq := 0, asked := false, published := true, second := true, tries := 0, lastOfs := some 0,
    lowSince := none, blend := 0, xFollow := 0, delay := 0, oldGain := 0 }
def cand : Cand := { bearer := 2, freq := 0, source := 0, qual := some 100, bad := false, run := 2, since := 0 }
def win : AlignWin := { peak := some 100, ofs := 0, ratio := 0 }
def aframe : AudioFrame := { check := some true, parses := true, format := 0, channels := 1, srIn := 0, kbps := 64, drc := false }
def assyB : AssyBlock := { bad := false, src := 1, id := 0, offset := 0, bytes := [], announced := none, complete := false, bcheck := 1, intact := true }
def report : Report := { state := 2, reason := 0, combined := 0, branches := 0, lanes := 0, units := 0, freq := 0, region := 0, alt := 0 }
/-- An object: an envelope of type `t` in slot 0 with its payload and the two words of its signature (R411). -/
def envOf (t seq : Nat) (pay : List Nat) (r s : Nat) : Obj :=
  { hamper := 127, src := 1, bcheck := 1, crc := 0
    data := [0x43, 0x53, 0x45, 0x1A, 1, 0] ++ beBytes 2 t ++ beBytes 8 seq ++ beBytes 6 0 ++ beBytes 6 0 ++ beBytes 4 pay.length ++ pay ++
      beBytes 32 r ++ beBytes 32 s }
def key0 : List Nat :=
  beBytes 32 0xd840dc60eabb4d4a0668bacd7e48a3891c55d6a20200eca193cdb0f2903999f4 ++
    beBytes 32 0x2d7105015f93f4a3d07eec7f5fd5eaa222ba0a6e56dc398fce8123e88c8491ad
/-- A signed object whose signature verifies with `key0`. -/
def env9 : Obj :=
  envOf 0x1000 1 [] 0x6f9855d759874cf2939dd816cd0937c02f262abec77e075f2685922096307a30 0x6f9855d759874cf2939dd816cd0937c02f262abec77e075f2685922096307a30
/-- A Fleet Notice. -/
def env0 : Obj := envOf 2 7 [] 1 1
def key1 : List Nat :=
  beBytes 32 0x901e8a2ee8895abcc7868fa2de74d4645267c36d5d293038e6fd41acbf776682 ++
    beBytes 32 0x824b2f98d63cae9214601c81226f36fb0fd8350dbf0cc444072dab30980b62ce
/-- A key update of slot 1, generation 0, whose signature verifies with `key1` (R421). -/
def env1 : Obj :=
  envOf 1 1 ([1, 1, 0, 0, 0, 0, 0, 0] ++ beBytes 32 p256G.1 ++ beBytes 32 p256G.2)
    0x437bcec1a12adef554ba7a8f5813515cbd543da8f32530f1fc9eb96c5bf5d24e 0x437bcec1a12adef554ba7a8f5813515cbd543da8f32530f1fc9eb96c5bf5d24e
/-- Mounted store, time set, slot 0 holding `key`, the head of the envelope queue under verification. -/
def verifying (o : Obj) (key : List Nat) : State :=
  putData (fun d => { d with verify := .running 0, envs := [o], otp := [(0, { keys := [(0, key)], lock := true, admin := true, revoked := false })] })
    ((up.wr F.STORE_STAT_STATE 2).wr F.TIME_STAT_SET 1)
def stored : Stored := { num := 1, basket := 0, obj := env0, env := some env0.tag, acked := false, corrupt := false, time := 0 }
def cmd (op : Nat) : StoreCmd := { op := op, basket := 0, arg := 1, ofs := 0, code := 0 }
def item : Item := { hamper := 127, cls := 0, pad := 0, payload := [], ok := true }
def packet : Packet :=
  { cls := 0, gap := false, pad := 0, seq := 0, time := 0, payload := [], crc := 0, pub := false, sent := false, drop := false, bad := false }
/-- A queue of Hamper 127 that exists, with quota and rate. -/
def queued (rate credit : Nat) (s : State) : State :=
  putSched (fun q => { q with items := [item] }) ((placedOn (chain 1 0 0) (fun h => { h with qIn := 64, req := { h.req with rate := rate * 0x10000 } }) s).updQueue 127
    fun q => { q with live := true, credit := credit })
/-- A header of the host port, by its command and address. -/
def headOf (cmd : BitVec 8) : FrameHead :=
  { cmd := cmd, addr := 0x40, len := 0, hcrc := BitVec.ofNat 16 (crc16 (headBytes { cmd := cmd, addr := 0x40, len := 0, hcrc := 0 })) }

/-- A sample at a quarter of the scale of 18 bits, and a data path whose next inputs complete a CIC group, a pair and a jump. -/
def smp : Smp := { i := 32768, q := 0, mark := false, sat := false, event := false }
def dsp2 : DspSt := { DspSt.init with count := 7, odd := true, jumped := true, jumpLeft := 3 }
def hb2 : HbSt := { line := [smp], odd := true, event := false }

/-- The slots and KEY_BUF, which holds a point of the curve (R419). -/
def withSlot (k : List (Nat × KeySlot)) : State :=
  (List.range 16).foldl (fun s i => s.wr (F.DATA_KEY_BUF_BYTES i) (beNat (((beBytes 32 p256G.1 ++ beBytes 32 p256G.2).drop (4 * i)).take 4)))
    (putData (fun d => { d with otp := k }) up)

/-! ## Ill-formed operands, one for each check -/

theorem test_wf_facts_power : (Instr.registerWrite 0 0 0 { facts with pow := [(3, 1), (3, 2)] }).wf = false := by decide
theorem test_wf_facts_hit_low :
    (Instr.qspiRead (headOf 0x10) [] { facts with hits := [{ addr := 0x37FFFC, kind := .corrected }] }).wf = false := by decide +kernel
theorem test_wf_facts_hit_half :
    (Instr.hamperWrite 0 0 0 0 { facts with hits := [{ addr := 0x380002, kind := .corrected }] }).wf = false := by decide +kernel
theorem test_wf_write_frame : (Instr.qspiWrite (headOf 0x20) (List.replicate 258 0) 0).wf = false := by decide +kernel
theorem test_wf_pointer : (Instr.twiPointerWrite [0, 0] facts).wf = false := by decide
theorem test_wf_register_pointer : (Instr.twiRegisterWrite [0, 0] facts).wf = false := by decide
theorem test_wf_fib : (Instr.fibDecoded 0 { fib with words := [0] }).wf = false := by decide
theorem test_wf_burst : (Instr.rdsBlock 0 { rdsB with burst := 27 }).wf = false := by decide
theorem test_wf_probe_power : (Instr.probeGo 0 [(0, 1), (0, 1)]).wf = false := by decide
theorem test_wf_tunnel_write : (Instr.tunnelPacketReceived true 0 1 [0] facts).wf = false := by decide
theorem test_wf_tunnel_read : (Instr.tunnelPacketReceived false 0 1 [0] facts).wf = false := by decide
theorem test_wf_tunnel_ack : (Instr.tunnelAck 0 (List.replicate 17 0)).wf = false := by decide +kernel
theorem test_wf_controller : (Instr.ctlDone (List.replicate 33 0)).wf = false := by decide +kernel
theorem test_wf_calibration : (Instr.rcCalibrationDone 0).wf = false := by decide
theorem test_wf_accepts : (Instr.registerWrite 0 0x205C 0 facts).wf = true ∧ (Instr.ctlDone [1]).wf = true := by decide

/-! ## Functions on values that spec/ prints -/

def nine : List Nat := [0x31, 0x32, 0x33, 0x34, 0x35, 0x36, 0x37, 0x38, 0x39]
/-- R137. -/
theorem test_crc16 : crc16 nine = 0x29B1 := by decide +kernel
/-- R459. -/
theorem test_crc32c : crc32cBytes nine = 0xE3069283 := by decide +kernel
/-- R411 names SHA-256: the digest of "abc" in the standard's own example. -/
theorem test_sha256 : sha256 [97, 98, 99] = 0xba7816bf8f01cfea414140de5dae2223b00361a396177a9cb410ff61f20015ad := by decide +kernel
/-- spec/09, the worked example: tuning words of 11C and 12B. -/
theorem test_tuning_words :
    (deriveChain 3 0 220352000 1).ftw = 0x1CB111111111 ∧ (deriveChain 3 0 225648000 1).ftw = 0x1D619999999A := by decide +kernel
/-- R217: K = 60 gives S = 30 and g = 1.3808. -/
theorem test_scaler : cicShift 60 = 30 ∧ scaler 60 0 = (180990, 0) := by decide +kernel
/-- spec/11, the worked example: restart samples and latency of the FM chain at Full and at Quarter. -/
theorem test_fm_chain :
    (deriveChain 2 0 96400000 1).singleN = 98 ∧ (deriveChain 2 0 96400000 3).singleN = 97 ∧
    (deriveChain 2 0 96400000 1).latency = 3370 ∧ (deriveChain 2 0 96400000 3).latency = 3114 := by decide +kernel
/-- spec/18, the worked example. -/
theorem test_packet_head :
    ({ packet with cls := 1, gap := true, payload := List.replicate 352 0, seq := 11 }.head 2).take 2 = [0x18200160, 0x000B0000] := by
  decide +kernel
/-- spec/13, the worked example. -/
theorem test_block_head :
    { block with kind := 2, check := 1, combined := true, iter := 3, engine := 2, payload := List.replicate 220 0 }.words.head? =
      some 0x248320DC := by decide +kernel
/-- spec/10, the worked example: S_CHAIN of Hamper 0. -/
theorem test_chain_word :
    unitsWord { HamSt.init with adec := some 0 } { chain 2 4 2 with main := { freq := 0, eng := 4, br := [{ lane := 12, input := 0, fresh := false },
      { lane := 14, input := 1, fresh := false }] } } = 0x84A82400 := by decide +kernel

/-! ## Single steps on values that spec/ prints -/

def after (c : Instr) (s : State) : State := match exec c s with | .next t => t | _ => s
/-- What the host reads at a register address. -/
def view (a : Nat) (s : State) : Word := match pageOf a with | some (t, i, o) => s.wordAt 0 t i o | none => 0
def released : State := putPins (fun p => { p with porHeld := false }) State.reset
/-- The rejected write of spec/05's worked example. -/
def rejected (s : State) : State := after (.registerWrite 0 0x205C 0x0001ACAE facts) s
/-- Input 0 Frozen at a total of 24 - att dB. -/
def frozen (att : Nat) (due : Option GainDue) : State :=
  ((((rx.wr (F.RFIN_GAIN_STAT_AGC_STATE 0) 2).wr (F.RFIN_GAIN_STAT_LNA 0) 2).wr (F.RFIN_GAIN_STAT_ATT 0) att).wr (F.RFIN_GAIN_STAT_TOTAL 0)
    (24 - att)).updRf 0 fun r => { r with gainDue := due }
/-- NOTICE sets with the routing of reset (spec/07's worked example). -/
def noticed : State := ((up.wr (F.PAGE_EN .data 0) 1).wr (F.PAGE_EN .twi 0) 1).raise .data C.DATA_NOTICE 0

/-- No step is taken with no command waiting and the oscillator stopped (assumption 16). -/
theorem test_reset_idle : step State.reset = .next State.reset := rfl
/-- spec/02: STRAP of device 0 and of device 1. -/
theorem test_strap_0 : (after (.strapSample .vss .nc .nc .vss .vddIo33 .vss) released).reg 0x48 = 0x0000AC10 := by decide +kernel
theorem test_strap_1 : (after (.strapSample .vss .vddIo33 .vss .vddIo33 .nc .nc) released).reg 0x48 = 0x0000AD05 := by decide +kernel
theorem test_range_capture :
    view 0x5040 (rejected up) = 0x8800205C ∧ view 0x5044 (rejected up) = 0x0001ACAE ∧ view 0x205C (rejected up) = 0x0001A9AE := by
  decide +kernel
theorem test_range_accepts : view 0x205C (after (.registerWrite 0 0x205C 0x0001A9B1 facts) up) = 0x0001A9B1 := by decide +kernel
/-- spec/05's worked example: the walk-down with CAPTURED of OFDM[5]. -/
theorem test_irq_walk :
    let s := rejected (((up.wr (F.PAGE_EN .prot 0) 1).wr (F.PAGE_EN .ofdm 5) 1).raise .ofdm C.ACQ_CAPTURED 5)
    view 0x304C s = 0x00010410 ∧ view 0x3128 s = 0x00000020 ∧ view 0x3D010 s = 0x08 := by decide +kernel
/-- spec/06's worked example: two packets, 48 words. -/
theorem test_queue_stat :
    view 0x82040 (up.updQueue 2 fun q => { q with live := true, pkts := List.replicate 2 { packet with pub := true, payload := List.replicate 20 0 } }) =
      0x00020030 := by decide +kernel
theorem test_alert_pend : view 0x710C noticed = 0x00010000 := by decide +kernel
/-- spec/07's worked example: the bytes of ALERT_PEND[3] and the pointer after them. -/
theorem test_twi_read :
    let t := after (.twiRegisterRead 4 [] facts) (noticed.wr F.TWI_TGT_PTR_PTR 0x710C)
    t.twi.sent = [0, 1, 0, 0] ∧ t.rd F.TWI_TGT_PTR_PTR = 0x7110 := by decide +kernel
/-- spec/08's worked example: slot 1 steps by -6 dB, slot 2 stays within the hysteresis, the extra slot ends at 0x8007_0105. -/
theorem test_agc_slot : view 0x10044 (after (.agcStepSlot 0 (-49)) (frozen 5 none)) = 0x800D020B := by decide +kernel
theorem test_agc_hysteresis : view 0x10044 (after (.agcStepSlot 0 (-76)) (frozen 11 none)) = 0x800D020B := by decide +kernel
theorem test_agc_overload : view 0x10044 (after (.gainStepApply 0) (frozen 11 (some .overload))) = 0x80070105 := by decide +kernel
/-- spec/20's worked example: CORR_CAPT. -/
theorem test_corrected : view 0x604C (after (.scrubWriteback ⟨14 * 32768 + 2562, by decide⟩ (some 1)) up) = 0xCE000A02 := by decide +kernel
/-- spec/13's worked example: COMB_STAT of a pair that combines, here unit 3. -/
theorem test_combining :
    view 0x5006C (after (.cifCombine 3 { cifs with skew := 374, share := 0x5C }) (putPlace
      (fun p => { p with live := { Plan.init with chains := [pairChain] } })
      (((((rx.wr (F.PAGE_EN .fec 0) 1).wr (F.FEC_COMB_STAT_ACTIVE 3) 1).wr (F.FEC_COMB_STAT_PAIRED 3) 1).wr (F.OFDM_STAT_STATE 6) 3).wr
        (F.OFDM_STAT_STATE 7) 3))) = 0xC02EC05C := by decide +kernel
/-- spec/19's worked example: RESULT[1] word 0. -/
theorem test_probe_result :
    view 0x14908 (up.putReading 1 { rl10 := 164, phase := 876, fwd := 0, refl := 0 }) = 0x436C00A4 := by decide +kernel
/-- spec/21's worked example: TUN_STAT after the acknowledgement of a write. -/
theorem test_tunnel_ack :
    (after (.tunnelAck 0 []) ((up.wr F.CASC_TUN_STAT_BUSY 1).wr F.CASC_TUN_CMD_WRITE 1)).reg F.CASC_TUN_STAT_BUSY.addr = 1 := by decide +kernel
/-- spec/15's worked example: the frame sync takes mask 0x33 and pair 1 moves to slots 4 and 5. -/
theorem test_aud_mask :
    let s := ((((up.wr (F.PAGE_EN .aud 0) 1).wr (F.AUD_STAT_RUN 0) 1).setReg (F.AUD_CFG_SLOTS 0).addr 0x88121000).wr (F.AUD_SLOT_MASK_MASK 0) 0x33).wr
      (F.AUD_SLOT_MASK_ACTIVE 0) 0xF
    let s := ((s.wr (F.AUD_ROUTE_VALID 0 1) 1).wr (F.AUD_ROUTE_HAMPER 0 1) 3).updAud 0 fun a => { a with staged := true }
    view 0xC064 (after (.audFrameSync 0 []) (s.wr F.PWR_STATE_STAT_STATE 3)) = 0x83048500 := by decide +kernel
/-- spec/11's worked example: the fields of ANA[4].STAT. -/
theorem test_ana_stat :
    view 0x44054 (((((((up.wr (F.ANA_STAT_STATE 4) 3).wr (F.ANA_STAT_STEREO 4) 1).wr (F.ANA_STAT_PILOT 4) 1).wr (F.ANA_STAT_RDS_SYNC 4) 1).wr
      (F.ANA_STAT_IDENT 4) 1).wr (F.ANA_STAT_BRANCHES 4) 2).wr (F.ANA_STAT_PI 4) 0xC3B2) = 0xC616C3B2 := by decide +kernel
/-- The table gives no row any bits. -/
theorem test_no_words (nbits w : Nat) : decodeTableWord nbits w = none := rfl

/-! The witnesses: for every statement of Certificates/Slice0/Obligations.lean, clause by clause in the statement's order, a state and
operands that meet all the clause's hypotheses together. -/

theorem witness_ResetsAndStraps :
    (∃ (s : State), s.pins.porHeld = true) ∧
    (∃ (s : State) (e : StrapTie), s.boot = Boot.held ∧ s.pins.porHeld = false ∧ s.pins.testEn = false ∧ e ≠ .vddIo33) ∧
    (∃ (s : State), s.boot = Boot.held ∧ s.pins.porHeld = false ∧ s.pins.testEn = false) ∧
    (∃ (s : State), s.pins.porHeld = false ∧ s.pins.resetN = true) ∧
    (∃ (s : State), s.pins.porHeld = false) :=
  ⟨⟨putPins (fun q => { q with porHeld := true }) up, by decide +kernel⟩,
   ⟨putPins (fun q => { q with testEn := false }) (putPins (fun q => { q with porHeld := false }) ({ up with boot := Boot.held })), .nc, by decide +kernel⟩,
   ⟨putPins (fun q => { q with testEn := false }) (putPins (fun q => { q with porHeld := false }) ({ up with boot := Boot.held })), by decide +kernel⟩,
   ⟨putPins (fun q => { q with resetN := true }) (putPins (fun q => { q with porHeld := false }) up), by decide +kernel⟩,
   ⟨putPins (fun q => { q with porHeld := false }) up, by decide +kernel⟩⟩

theorem witness_BootSequence :
    (∃ (s : State), s.clk.xo = Xo.starting ∧ s.boot = Boot.xoStart ∧ s.clk.xoLate = false) ∧
    (∃ (s : State), s.clk.xo = Xo.failed) ∧
    (∃ (s : State), s.clk.xo = Xo.stable ∧ s.pwr.trans ≠ some .standbyToSleep) ∧
    (∃ (s : State), s.pwr.trans = some .standbyToSleep) ∧
    (∃ (s : State), s.clk.xo = Xo.starting) ∧
    (∃ (s : State), s.busUp = true ∧ s.boot = Boot.fetch) ∧
    (∃ (s : State) (emmc : Bool), s.busUp = true ∧ s.boot = Boot.verify emmc) ∧
    (∃ (s : State), s.busUp = true ∧ s.boot = Boot.warm) :=
  ⟨⟨putClk (fun q => { q with xoLate := false }) ({ (putClk (fun q => { q with xo := Xo.starting }) up) with boot := Boot.xoStart }), by decide +kernel⟩,
   ⟨putClk (fun q => { q with xo := Xo.failed }) up, by decide +kernel⟩,
   ⟨putClk (fun q => { q with xo := Xo.stable }) up, by decide +kernel⟩,
   ⟨putPwr (fun q => { q with trans := some .standbyToSleep }) up, by decide +kernel⟩,
   ⟨putClk (fun q => { q with xo := Xo.starting }) up, by decide +kernel⟩,
   ⟨{ up with boot := Boot.fetch }, by decide +kernel⟩,
   ⟨{ up with boot := Boot.verify true }, true, by decide +kernel⟩,
   ⟨{ up with boot := Boot.warm }, by decide +kernel⟩⟩

theorem witness_WarmResetSources :
    (∃ (s : State) (lvl : Fin 4), s.accepts lvl 0x60 0x5A 0xF) ∧
    (∃ (s : State) (lvl : Fin 4), s.accepts lvl 0x60 0xA5 0xF) ∧
    (∃ (s : State), s.busUp = true ∧ s.rd F.SYS_WDOG_EN = 1) ∧
    (∃ (s : State), s.busUp = true) ∧
    (∃ (s : State), s.busUp = true ∧ s.rd F.SYS_WDOG_EN = 1 ∧ s.pwr.wdogWarned = false) ∧
    (∃ (s : State), s.busUp = true) :=
  ⟨⟨up, 0, acc (by decide +kernel)⟩,
   ⟨up, 0, acc (by decide +kernel)⟩,
   ⟨up.wr F.SYS_WDOG_EN 1, by decide +kernel⟩,
   ⟨up, by decide +kernel⟩,
   ⟨putPwr (fun q => { q with wdogWarned := false }) (up.wr F.SYS_WDOG_EN 1), by decide +kernel⟩,
   ⟨up, by decide +kernel⟩⟩

theorem witness_SupplyWarnings : ∃ (s : State) (r : Fin 5), s.boot ≠ Boot.held ∧ bit (s.rd F.PWR_STATE_STAT_SUPPLY_LOW) r = false ∧ s.radio ≠ 0 ∧ s.clk.xo ≠ .failed :=
  ⟨up, 4, by decide +kernel⟩

theorem witness_RadioStateRequests :
    (∃ (s : State) (lvl : Fin 4) (req : Fin 4), s.accepts lvl 0x2040 (BitVec.ofNat 32 req.val) 0xF) ∧
    (∃ (s : State), s.radio = 0 ∧ s.pwr.trans = none ∧ s.rd F.PWR_WAKE_CFG_QSPI_EN = 1) ∧
    (∃ (s : State), s.radio = 0 ∧ s.pwr.trans = none ∧ s.rd F.PWR_WAKE_CFG_TWI_EN = 1) ∧
    (∃ (s : State), s.radio = 0 ∧ s.pwr.trans = none ∧ s.rd F.PWR_WAKE_CFG_TIMER_EN = 1) ∧
    (∃ (s : State) (g : Fin 8), s.radio = 0 ∧ s.pwr.trans = none ∧ bit (s.rd F.PWR_WAKE_CFG_GPIO_MASK) g = true) ∧
    (∃ (s : State), s.pwr.trans = some .standbyToSleep ∧ s.rd F.PWR_WAKE_CFG_QSPI_EN = 1) :=
  ⟨⟨up, 0, 3, acc (by decide +kernel)⟩,
   ⟨(putPwr (fun q => { q with trans := none }) (up.wr F.PWR_STATE_STAT_STATE 0)).wr F.PWR_WAKE_CFG_QSPI_EN 1, by decide +kernel⟩,
   ⟨(putPwr (fun q => { q with trans := none }) (up.wr F.PWR_STATE_STAT_STATE 0)).wr F.PWR_WAKE_CFG_TWI_EN 1, by decide +kernel⟩,
   ⟨(putPwr (fun q => { q with trans := none }) (up.wr F.PWR_STATE_STAT_STATE 0)).wr F.PWR_WAKE_CFG_TIMER_EN 1, by decide +kernel⟩,
   ⟨(putPwr (fun q => { q with trans := none }) (up.wr F.PWR_STATE_STAT_STATE 0)).wr F.PWR_WAKE_CFG_GPIO_MASK 255, 7, by decide +kernel⟩,
   ⟨(putPwr (fun q => { q with trans := some .standbyToSleep }) up).wr F.PWR_WAKE_CFG_QSPI_EN 1, by decide +kernel⟩⟩

theorem witness_RadioTransitions :
    (∃ (s : State), s.pwr.trans = some .rxToTx ∧ s.clk.xo = Xo.stable) ∧
    (∃ (s : State), s.pwr.trans = some .txToRx ∧ s.clk.xo = Xo.stable) ∧
    (∃ (s : State) (tr : Trans) (k : Nat), s.pwr.trans = some tr ∧ s.clk.xo = Xo.stable ∧ (tr, k) ∈ [(.standbyToSynth, 2), (.synthToRx, 3), (.rxToTx, 4), (.txToRx, 3), (.rxToSynth, 2)]) ∧
    (∃ (s : State), s.pwr.trans = some .standbyToSleep ∧ s.clk.xo = Xo.stable ∧ s.pwr.wakePend = 0) ∧
    (∃ (s : State), s.rd F.PWR_STATE_STAT_DRAINING = 1 ∧ s.clk.xo = Xo.stable ∧ s.drained = true ∧ s.data.writes = []) ∧
    (∃ (s : State), s.rd F.PWR_STATE_STAT_DRAINING = 1 ∧ s.clk.xo = Xo.stable) ∧
    (∃ (s : State), s.pwr.trans = some .standbyToSynth ∧ s.clk.xo = Xo.stable ∧ s.pwr.lockFailed = false) ∧
    (∃ (s : State), s.pwr.lockFailed = true ∧ s.clk.xo = Xo.stable ∧ s.pwr.trans = none ∧ s.radio = 1 ∧ 2 ≤ s.rd F.PWR_STATE_STAT_TARGET) :=
  ⟨⟨putClk (fun q => { q with xo := Xo.stable }) (putPwr (fun q => { q with trans := some .rxToTx }) up), by decide +kernel⟩,
   ⟨putClk (fun q => { q with xo := Xo.stable }) (putPwr (fun q => { q with trans := some .txToRx }) up), by decide +kernel⟩,
   ⟨putPwr (fun q => { q with trans := some .rxToSynth }) rx, .rxToSynth, 2, by decide +kernel⟩,
   ⟨putPwr (fun q => { q with wakePend := 0 }) (putClk (fun q => { q with xo := Xo.stable }) (putPwr (fun q => { q with trans := some .standbyToSleep }) up)), by decide +kernel⟩,
   ⟨putData (fun q => { q with writes := [] }) (putClk (fun q => { q with xo := Xo.stable }) (up.wr F.PWR_STATE_STAT_DRAINING 1)), by decide +kernel⟩,
   ⟨putClk (fun q => { q with xo := Xo.stable }) (up.wr F.PWR_STATE_STAT_DRAINING 1), by decide +kernel⟩,
   ⟨putPwr (fun q => { q with lockFailed := false }) (putClk (fun q => { q with xo := Xo.stable }) (putPwr (fun q => { q with trans := some .standbyToSynth }) up)), by decide +kernel⟩,
   ⟨((putPwr (fun q => { q with trans := none }) (putClk (fun q => { q with xo := Xo.stable }) (putPwr (fun q => { q with lockFailed := true }) up))).wr F.PWR_STATE_STAT_STATE 1).wr F.PWR_STATE_STAT_TARGET 2, by decide +kernel⟩⟩

theorem witness_ClusterPower :
    (∃ (s : State) (c : Fin 4), s.cpow c = 1 ∧ s.clk.xo = Xo.stable) ∧
    (∃ (s : State) (c : Fin 4), s.cpow c = 2 ∧ s.clk.xo = Xo.stable) ∧
    (∃ (s : State) (c : Fin 4), s.cpow c = 3 ∧ s.clk.xo = Xo.stable) ∧
    (∃ (s : State) (c : Fin 4), s.cpow c = 3 ∧ (s.clu c).bankReady = true ∧ s.rootOk = true ∧ (s.clu c).unfencing = false ∧ (∀ n, n < 24 → (s.lane n).due = false)) ∧
    (∃ (s : State) (c : Fin 4), s.cpow c = 3 ∧ (s.clu c).bankReady = true ∧ s.rootOk = true) ∧
    (∃ (s : State) (c : Fin 4), s.cpow c = 5 ∧ s.busUp = true) ∧
    (∃ (s : State) (c : Fin 4), s.cpow c = 4 ∧ s.rootOk = true) ∧
    (∃ (s : State), s.mgmtDenied fenceTask = none) ∧
    (∃ (s : State) (c : Fin 4) (lvl : Fin 4), s.accepts lvl 0x2064 (putBits (fieldWord F.PWR_CLUS_CTRL_UNFENCE (2 ^ c.val)) 0 0 (s.rd F.PWR_CLUS_CTRL_IDLE_OFF)) 0xF) :=
  ⟨⟨putClk (fun q => { q with xo := Xo.stable }) (up.wr (F.CLUS_STAT_POWER 3) 1), 3, by decide +kernel⟩,
   ⟨putClk (fun q => { q with xo := Xo.stable }) (up.wr (F.CLUS_STAT_POWER 3) 2), 3, by decide +kernel⟩,
   ⟨putClk (fun q => { q with xo := Xo.stable }) (up.wr (F.CLUS_STAT_POWER 3) 3), 3, by decide +kernel⟩,
   ⟨(((up.wr (F.CLUS_STAT_POWER 3) 3).updClu 3 fun q => { q with bankReady := true }).wr F.PWR_STATE_STAT_STATE 3).updClu 3 fun q => { q with unfencing := false }, 3, by decide +kernel⟩,
   ⟨((up.wr (F.CLUS_STAT_POWER 3) 3).updClu 3 fun q => { q with bankReady := true }).wr F.PWR_STATE_STAT_STATE 3, 3, by decide +kernel⟩,
   ⟨up.wr (F.CLUS_STAT_POWER 3) 5, 3, by decide +kernel⟩,
   ⟨(up.wr (F.CLUS_STAT_POWER 3) 4).wr F.PWR_STATE_STAT_STATE 3, 3, by decide +kernel⟩,
   ⟨up, by decide +kernel⟩,
   ⟨up, 3, 0, acc (by decide +kernel)⟩⟩

theorem witness_RootPll :
    (∃ (s : State), s.rootWatched = true) ∧
    (∃ (s : State), 2 ≤ s.radio ∧ s.clk.xo = Xo.stable ∧ s.clk.rootLost = true ∧ s.clk.relockQual = false ∧ 2 ≤ s.rd F.PWR_STATE_STAT_TARGET ∧ s.pwr.trans ≠ some .synthToStandby) ∧
    (∃ (s : State), s.rd F.CLK_ROOT_STAT_ATTEMPTING = 1 ∧ s.clk.xo = Xo.stable) ∧
    (∃ (s : State), s.clk.rootLost = true ∧ s.clk.relockQual = true ∧ s.radio = 2 ∧ s.clk.xo = Xo.stable ∧ s.rd F.CLK_DIV_COMMIT_COMMIT = 0) ∧
    (∃ (s : State), s.rootOk = true ∧ s.rd F.CLK_DIV_COMMIT_COMMIT = 1) ∧
    (∃ (s : State), s.rootOk = true) ∧
    (∃ (s : State), s.clk.xo = Xo.stable) ∧
    (∃ (s : State) (count : BitVec 24), s.pwr.trans = some .rcCal ∧ s.clk.xo = Xo.stable ∧ 1459200 ≤ count.toNat ∧ count.toNat ≤ 1612800) ∧
    (∃ (s : State) (count : BitVec 24), s.pwr.trans = some .rcCal ∧ s.clk.xo = Xo.stable ∧ (count.toNat < 1459200 ∨ 1612800 < count.toNat)) :=
  ⟨⟨up.wr F.PWR_STATE_STAT_STATE 3, by decide +kernel⟩,
   ⟨(putClk (fun q => { q with relockQual := false }) (putClk (fun q => { q with rootLost := true }) (putClk (fun q => { q with xo := Xo.stable }) (up.wr F.PWR_STATE_STAT_STATE 3)))).wr F.PWR_STATE_STAT_TARGET 2, by decide +kernel⟩,
   ⟨putClk (fun q => { q with xo := Xo.stable }) (up.wr F.CLK_ROOT_STAT_ATTEMPTING 1), by decide +kernel⟩,
   ⟨(putClk (fun q => { q with xo := Xo.stable }) ((putClk (fun q => { q with relockQual := true }) (putClk (fun q => { q with rootLost := true }) up)).wr F.PWR_STATE_STAT_STATE 2)).wr F.CLK_DIV_COMMIT_COMMIT 0, by decide +kernel⟩,
   ⟨(up.wr F.PWR_STATE_STAT_STATE 3).wr F.CLK_DIV_COMMIT_COMMIT 1, by decide +kernel⟩,
   ⟨up.wr F.PWR_STATE_STAT_STATE 3, by decide +kernel⟩,
   ⟨putClk (fun q => { q with xo := Xo.stable }) up, by decide +kernel⟩,
   ⟨putClk (fun q => { q with xo := Xo.stable }) (putPwr (fun q => { q with trans := some .rcCal }) up), 1459200, by decide +kernel⟩,
   ⟨putClk (fun q => { q with xo := Xo.stable }) (putPwr (fun q => { q with trans := some .rcCal }) up), 1612801, by decide +kernel⟩⟩

theorem witness_PageHeader :
    (∃ (s : State) (lvl : Fin 4) (page : Fin 78) (t : PageType) (i : Nat), pageAt page = some (t, i) ∧ s.accepts lvl (t.base i + 4) (s.pageCtrl page 1 1 1) 0xF) ∧
    (∃ (page : Fin 78) (t : PageType) (i : Nat) (o : Nat), pageAt page = some (t, i) ∧ o < 0x1000 ∧ pageMask t o = 0) ∧
    (∃ (s : State) (page : Fin 78) (t : PageType) (i : Nat), pageAt page = some (t, i) ∧ s.busUp = true ∧ s.rstBusy t i = true) ∧
    (∃ (s : State) (lvl : Fin 4) (page : Fin 78) (t : PageType) (i : Nat) (expert : Bool), pageAt page = some (t, i) ∧ s.accepts lvl (t.base i + 4) (s.pageCtrl page 8 8 (b2n expert)) 0xF ∧ s.isExpert t i ≠ expert) ∧
    (∃ (s : State) (lvl : Fin 4) (page : Fin 78) (t : PageType) (i : Nat) (expert : Bool), pageAt page = some (t, i) ∧ s.accepts lvl (t.base i + 4) (s.pageCtrl page 8 8 (b2n expert)) 0xF ∧ s.isExpert t i = expert) ∧
    (∃ (s : State) (lvl : Fin 4) (page : Fin 78) (t : PageType) (i : Nat) (on : Bool), pageAt page = some (t, i) ∧ s.accepts lvl (t.base i + 4) (s.pageCtrl page 0 0 (b2n on)) 0xF ∧ s.en t i ≠ on) ∧
    (∃ (s : State) (lvl : Fin 4) (page : Fin 78) (t : PageType) (i : Nat) (on : Bool), pageAt page = some (t, i) ∧ s.accepts lvl (t.base i + 4) (s.pageCtrl page 0 0 (b2n on)) 0xF ∧ s.en t i = on) ∧
    (∃ (s : State) (lvl : Fin 4) (page : Fin 78) (t : PageType) (i : Nat) (w : Word), pageAt page = some (t, i) ∧ s.accepts lvl (t.base i + 0x20) w 0xF) ∧
    (∃ (s : State) (lvl : Fin 4) (page : Fin 78) (t : PageType) (i : Nat) (m : BitVec 8), pageAt page = some (t, i) ∧ s.accepts lvl (t.base i + 0x10) (BitVec.ofNat 32 m.toNat) 0xF) ∧
    (∃ (s : State) (lvl : Fin 4) (page : Fin 78) (t : PageType) (i : Nat) (m : BitVec 8), pageAt page = some (t, i) ∧ s.accepts lvl (t.base i + 0x18) (BitVec.ofNat 32 m.toNat) 0xF ∧ s.en t i = true ∧ m.toNat &&& t.causeMask ≠ 0) ∧
    (∃ (s : State) (lvl : Fin 4) (page : Fin 78) (t : PageType) (i : Nat) (m : BitVec 8), pageAt page = some (t, i) ∧ s.accepts lvl (t.base i + 0x14) (BitVec.ofNat 32 m.toNat) 0xF) :=
  ⟨⟨up, 0, 74, .fec, 0, by decide +kernel, acc (by decide +kernel)⟩,
   ⟨74, .fec, 0, 0xFFF, by decide +kernel⟩,
   ⟨up.wr (F.PAGE_RST_BUSY .fec 0) 1, 74, .fec, 0, by decide +kernel⟩,
   ⟨up, 0, 74, .fec, 0, true, by decide +kernel, acc (by decide +kernel), by decide +kernel⟩,
   ⟨up, 0, 74, .fec, 0, false, by decide +kernel, acc (by decide +kernel), by decide +kernel⟩,
   ⟨up, 0, 74, .fec, 0, false, by decide +kernel, acc (by decide +kernel), by decide +kernel⟩,
   ⟨up.wr (F.PAGE_EN .fec 0) 1, 0, 74, .fec, 0, true, by decide +kernel, acc (by decide +kernel), by decide +kernel⟩,
   ⟨up, 0, 74, .fec, 0, 0x4B590000, by decide +kernel, acc (by decide +kernel)⟩,
   ⟨up, 0, 74, .fec, 0, 1, by decide +kernel, acc (by decide +kernel)⟩,
   ⟨up, 0, 74, .fec, 0, 1, by decide +kernel, acc (by decide +kernel), by decide +kernel⟩,
   ⟨up, 0, 74, .fec, 0, 1, by decide +kernel, acc (by decide +kernel)⟩⟩

theorem witness_AccessChecksInOrder :
    (∃ (s : State) (lvl : Fin 4) (a : BitVec 24), s.answers = true ∧ mgmtNever lvl a.toNat = true) ∧
    (∃ (s : State) (lvl : Fin 4) (a : BitVec 24), s.answers = true ∧ a.toNat % 4 ≠ 0 ∧ mgmtNever lvl a.toNat = false) ∧
    (∃ (s : State) (a : BitVec 24), s.answers = true ∧ a.toNat % 4 ≠ 0) ∧
    (∃ (s : State) (lvl : Fin 4) (a : BitVec 24), s.answers = true ∧ a.toNat % 4 = 0 ∧ s.reserved lvl a.toNat = true ∧ mgmtNever lvl a.toNat = false) ∧
    (∃ (s : State) (lvl : Fin 4) (a : BitVec 24), s.answers = true ∧ a.toNat % 4 = 0 ∧ s.reserved lvl a.toNat = true) ∧
    (∃ (s : State) (lvl : Fin 4) (a : BitVec 24), s.answers = true ∧ a.toNat % 4 = 0 ∧ s.reserved lvl a.toNat = false ∧ s.mayAccess lvl (artIndex a.toNat) false = false) ∧
    (∃ (s : State) (lvl : Fin 4) (a : BitVec 24), s.answers = true ∧ a.toNat % 4 = 0 ∧ s.reserved lvl a.toNat = false ∧ s.mayAccess lvl (artIndex a.toNat) false = true) ∧
    (∃ (s : State) (lvl : Fin 4) (a : BitVec 24), s.answers = true ∧ a.toNat % 4 = 0 ∧ s.reserved lvl a.toNat = false ∧ mgmtNever lvl a.toNat = false ∧ s.mayAccess lvl (artIndex a.toNat) true = false) ∧
    (∃ (s : State) (lvl : Fin 4) (a : BitVec 24) (w : Word), ∃ t i o kind, s.answers = true ∧ a.toNat % 4 = 0 ∧ s.reserved lvl a.toNat = false ∧ mgmtNever lvl a.toNat = false ∧ s.mayAccess lvl (artIndex a.toNat) true = true ∧ pageOf a.toNat = some (t, i, o) ∧ s.lockKind lvl t i o w = some kind) ∧
    (∃ (s : State) (lvl : Fin 4) (a : BitVec 24) (w : Word) (x : Facts), s.answers = true ∧ a.toNat % 4 = 0 ∧ s.reserved lvl a.toNat = false ∧ mgmtNever lvl a.toNat = false ∧ s.mayAccess lvl (artIndex a.toNat) true = true ∧ (∀ t i o, pageOf a.toNat = some (t, i, o) → s.lockKind lvl t i o w = none) ∧ s.rangeReasons lvl a.toNat w x.rfin ≠ []) ∧
    (∃ (s : State) (lvl : Fin 4) (a : BitVec 24) (w : Word) (x : Facts), s.answers = true ∧ a.toNat % 4 = 0 ∧ s.reserved lvl a.toNat = false ∧ mgmtNever lvl a.toNat = false ∧ s.mayAccess lvl (artIndex a.toNat) true = true ∧ (∀ t i o, pageOf a.toNat = some (t, i, o) → s.lockKind lvl t i o w = none) ∧ s.rangeReasons lvl a.toNat w x.rfin = [] ∧ isSram a.toNat = true) ∧
    (∃ (s : State) (lvl : Fin 4) (a : BitVec 24) (w : Word) (x : Facts), ∃ t i o, s.answers = true ∧ a.toNat % 4 = 0 ∧ s.reserved lvl a.toNat = false ∧ mgmtNever lvl a.toNat = false ∧ s.mayAccess lvl (artIndex a.toNat) true = true ∧ (∀ t i o, pageOf a.toNat = some (t, i, o) → s.lockKind lvl t i o w = none) ∧ s.rangeReasons lvl a.toNat w x.rfin = [] ∧ isSram a.toNat = false ∧ pageOf a.toNat = some (t, i, o)) :=
  ⟨⟨up, 3, 0x3040, by decide +kernel⟩,
   ⟨up, 0, 0xFFFFFF, by decide +kernel⟩,
   ⟨up, 0xFFFFFF, by decide +kernel⟩,
   ⟨up, 0, 0x58F00, by decide +kernel⟩,
   ⟨up, 0, 0x58F00, by decide +kernel⟩,
   ⟨up.setReg 0x5804 0, 1, 0x4040, by decide +kernel⟩,
   ⟨up, 2, 0, by decide +kernel⟩,
   ⟨up.setReg 0x5804 0, 1, 0x4040, by decide +kernel⟩,
   ⟨up.wr (F.LOCK .data 0) 1, 0, 0x53088, 0, .data, 0, 0x88, 3, by decide +kernel⟩,
   ⟨up, 0, 0x53088, 1, facts, by decide +kernel, by decide +kernel, by decide +kernel, by decide +kernel, by decide +kernel, noLock (by decide +kernel), by decide +kernel⟩,
   ⟨rx, 0, 0x380000, 0, facts, by decide +kernel, by decide +kernel, by decide +kernel, by decide +kernel, by decide +kernel, noLock (by decide +kernel), by decide +kernel⟩,
   ⟨up, 0, 0x53088, 0x800, facts, .data, 0, 0x88, by decide +kernel, by decide +kernel, by decide +kernel, by decide +kernel, by decide +kernel, noLock (by decide +kernel), by decide +kernel⟩⟩

theorem witness_RefusalsAreRecorded :
    (∃ (s : State), s.rd F.PROT_ACCESS_CAPT_VALID = 0) ∧
    (∃ (s : State), s.rd F.PROT_ACCESS_CAPT_VALID = 1) ∧
    (∃ (s : State), s.rd F.PROT_RANGE_CAPT_VALID = 0) ∧
    (∃ (s : State), s.rd F.PROT_RANGE_CAPT_VALID = 1) ∧
    (∃ (s : State) (lvl : Fin 4) (x : Facts), s.accepts lvl 0x5048 0x80000000 x.rfin) ∧
    (∃ (s : State) (lvl : Fin 4) (x : Facts), s.accepts lvl 0x5040 0x80000000 x.rfin) :=
  ⟨⟨up.wr F.PROT_ACCESS_CAPT_VALID 0, by decide +kernel⟩,
   ⟨up.wr F.PROT_ACCESS_CAPT_VALID 1, by decide +kernel⟩,
   ⟨up.wr F.PROT_RANGE_CAPT_VALID 0, by decide +kernel⟩,
   ⟨up.wr F.PROT_RANGE_CAPT_VALID 1, by decide +kernel⟩,
   ⟨up, 0, facts, acc (by decide +kernel)⟩,
   ⟨up, 0, facts, acc (by decide +kernel)⟩⟩

theorem witness_ArtKeepsLevelZero :
    (∃ (s : State) (lvl : Fin 4) (w : Word), s.accepts lvl 0x5804 w 0xF) ∧
    (∃ (s : State) (a : BitVec 24), getBits (s.reg 0x5804) 9 8 = 3 ∧ pageOf a.toNat = some (.prot, 0, a.toNat % 0x1000)) :=
  ⟨⟨up, 0, 0, acc (by decide +kernel)⟩,
   ⟨up, 0x5FFC, by decide +kernel⟩⟩

theorem witness_RightsWrites :
    (∃ (s : State) (lvl : Fin 4) (k : Fin 21) (w : Word), s.accepts lvl (0x5800 + 4 * k.val) w 0xF) ∧
    (∃ (s : State) (lvl : Fin 4), s.accepts lvl 0x5050 1 0xF) :=
  ⟨⟨up, 0, 20, 0, acc (by decide +kernel)⟩,
   ⟨up, 0, acc (by decide +kernel)⟩⟩

theorem witness_InterruptTree :
    (∃ (s : State), s.intGap = false ∧ s.clk.xo ≠ .failed ∧ s.clk.xoLate = false ∧ s.pins.gpioSleep = false) ∧
    (∃ (s : State), s.pins.gpioSleep = true ∧ s.clk.xo ≠ .failed ∧ s.clk.xoLate = false) ∧
    (∃ (s : State) (lvl : Fin 4) (w : Word), s.accepts lvl 0x3048 w 0xF) :=
  ⟨⟨putPins (fun q => { q with gpioSleep := false }) (putClk (fun q => { q with xoLate := false }) ({ up with intGap := false })), by decide +kernel⟩,
   ⟨putClk (fun q => { q with xoLate := false }) (putPins (fun q => { q with gpioSleep := true }) up), by decide +kernel⟩,
   ⟨up, 0, 0, acc (by decide +kernel)⟩⟩

theorem witness_ClockAndTemperature :
    (∃ (s : State) (lvl : Fin 4), s.accepts lvl F.CLK_DIV_COMMIT_COMMIT.addr 1 0xF) ∧
    (∃ (s : State) (lvl : Fin 4), s.accepts lvl 0x1064 2 0xF) ∧
    (∃ (s : State), s.busUp = true) :=
  ⟨⟨up, 0, acc (by decide +kernel)⟩,
   ⟨up, 0, acc (by decide +kernel)⟩,
   ⟨up, by decide +kernel⟩⟩

theorem witness_RejectedHeader :
    (∃ (s : State) (h : FrameHead) (code : Nat), s.answers = true ∧ headError h = some code) ∧
    (∃ (s : State) (h : FrameHead) (code : Nat), s.answers = true ∧ headError h = some code) :=
  ⟨⟨up, { cmd := 0x10, addr := 0, len := 0, hcrc := 0 }, 1, by decide +kernel⟩,
   ⟨up, headOf 0x30, 3, by decide +kernel⟩⟩

theorem witness_HostFrames :
    (∃ (s : State) (h : FrameHead), s.answers = true ∧ headError h = none ∧ headOp h = 1 ∧ h.len = 0 ∧ s.host.bufs = []) ∧
    (∃ (s : State) (h : FrameHead) (data : List Word) (dcrc : BitVec 16), s.answers = true ∧ headError h = none ∧ headOp h = 2 ∧ data.length = headWords h ∧ s.host.bufs.length < 2 ∧ crc16 ((data.map BitVec.toNat).flatMap wordBytes) = dcrc.toNat) ∧
    (∃ (s : State) (h : FrameHead) (data : List Word) (dcrc : BitVec 16), s.answers = true ∧ headError h = none ∧ headOp h = 2 ∧ data.length = headWords h ∧ s.host.bufs.length < 2 ∧ crc16 ((data.map BitVec.toNat).flatMap wordBytes) ≠ dcrc.toNat) ∧
    (∃ (s : State) (h : FrameHead) (data : List Word), s.answers = true ∧ headError h = none ∧ headOp h = 2 ∧ data.length = headWords h ∧ 2 ≤ s.host.bufs.length) ∧
    (∃ (s : State) (a : Nat) (w : Nat) (rest : List (Nat × List Nat)), s.answers = true ∧ s.host.bufs = (a, [w]) :: rest) ∧
    (∃ (s : State), s.answers = true ∧ s.host.bufs = []) ∧
    (∃ (s : State) (h : FrameHead), s.answers = true ∧ headError h = none ∧ headOp h = 2 ∧ s.host.bufs.length < 2) ∧
    (∃ (s : State), s.busUp = true ∧ s.host.cfgDue = true) :=
  ⟨⟨putHost (fun q => { q with bufs := [] }) up, headOf 0x10, by decide +kernel⟩,
   ⟨up, headOf 0x20, [0], BitVec.ofNat 16 (crc16 [0, 0, 0, 0]), by decide +kernel⟩,
   ⟨up, headOf 0x20, [0], BitVec.ofNat 16 (crc16 [0, 0, 0, 0]) + 1, by decide +kernel⟩,
   ⟨putHost (fun q => { q with bufs := [(0, [0]), (0, [0])] }) up, headOf 0x20, [0], by decide +kernel⟩,
   ⟨putHost (fun q => { q with bufs := (0, [0]) :: [] }) up, 0, 0, [], by decide +kernel⟩,
   ⟨putHost (fun q => { q with bufs := [] }) up, by decide +kernel⟩,
   ⟨up, headOf 0x20, by decide +kernel⟩,
   ⟨putHost (fun q => { q with cfgDue := true }) up, by decide +kernel⟩⟩

theorem witness_HostWrites :
    (∃ (s : State) (lvl : Fin 4), s.accepts lvl 0x8054 1 0xF) ∧
    (∃ (s : State) (lvl : Fin 4) (n : Fin 128) (c : BitVec 16), s.accepts lvl (0x80044 + 0x1000 * n.val) (BitVec.ofNat 32 c.toNat) 0xF) ∧
    (∃ (s : State) (lvl : Fin 4), s.accepts lvl 0x8064 1 0xF) ∧
    (∃ (s : State) (lvl : Fin 4), s.accepts lvl 0x8064 2 0xF) ∧
    (∃ (s : State) (lvl : Fin 4) (k : Fin 512) (w : Word), s.accepts lvl (0x8800 + 4 * k.val) w 0xF) :=
  ⟨⟨up, 0, acc (by decide +kernel)⟩,
   ⟨(up.updQueue 127 fun q => { q with pkts := [{ packet with pub := true }] }), 0, 127, 4, acc (by decide +kernel)⟩,
   ⟨(up.wr F.SYS_BOOT_STAT_WAIT_HOST 1).wr F.HOST_IMG_LEN_BYTES 4, 0, acc (by decide +kernel)⟩,
   ⟨up, 0, acc (by decide +kernel)⟩,
   ⟨((up.wr F.SYS_BOOT_STAT_WAIT_HOST 1).wr F.HOST_IMG_LEN_BYTES 4).wr F.HOST_IMG_STAT_STATE 1, 0, 511, 0, acc (by decide +kernel)⟩⟩

theorem witness_TwiTarget :
    (∃ (s : State), s.answers = true ∧ s.twiBusy = false) ∧
    (∃ (s : State), s.answers = true ∧ s.twiBusy = false ∧ s.rd F.TWI_CFG_PEC_EN = 0) ∧
    (∃ (s : State) (bytes : List (BitVec 8)), s.answers = true ∧ s.twiBusy = false ∧ bytes.length < 3) ∧
    (∃ (s : State), s.answers = true ∧ s.twiBusy = false ∧ s.rd F.TWI_CFG_PEC_EN = 0 ∧ s.rd F.TWI_TGT_PTR_PTR % 4 = 0 ∧ s.twi.ahead = none) ∧
    (∃ (s : State) (w : Word), s.answers = true ∧ s.twiBusy = false ∧ s.rd F.TWI_CFG_PEC_EN = 0 ∧ s.rd F.TWI_TGT_PTR_PTR % 4 = 0 ∧ s.twi.ahead = some w.toNat) ∧
    (∃ (s : State), s.answers = true ∧ s.twiBusy = false) ∧
    (∃ (s : State), s.answers = true ∧ s.twiBusy = false) ∧
    (∃ (s : State) (c : Instr), s.answers = true ∧ s.twiBusy = true ∧ ((∃ bytes x, c = .twiPointerWrite bytes x) ∨ (∃ bytes x, c = .twiRegisterWrite bytes x) ∨ (∃ n late x, c = .twiRegisterRead n late x) ∨ (∃ n late x, c = .srAtAck n late x) ∨ (∃ p x, c = .twiSclTimeout p x))) :=
  ⟨⟨up, by decide +kernel⟩,
   ⟨up.wr F.TWI_CFG_PEC_EN 0, by decide +kernel⟩,
   ⟨up, [], by decide +kernel⟩,
   ⟨putTwi (fun q => { q with ahead := none }) (up.wr F.TWI_CFG_PEC_EN 0), by decide +kernel⟩,
   ⟨putTwi (fun q => { q with ahead := some (7 : Word).toNat }) (up.wr F.TWI_CFG_PEC_EN 0), (7 : Word), by decide +kernel⟩,
   ⟨up, by decide +kernel⟩,
   ⟨up, by decide +kernel⟩,
   ⟨up.wr (F.PAGE_RST_BUSY .twi 0) 1, .twiPointerWrite [] facts, by decide +kernel, by decide +kernel, (.inl ⟨[], facts, rfl⟩)⟩⟩

theorem witness_TwiController :
    (∃ (s : State) (lvl : Fin 4) (w : Word), s.accepts lvl 0x7060 (putBits w 31 31 1) 0xF ∧ s.rd F.TWI_RECOV_STAT_STUCK = 0) ∧
    (∃ (s : State) (lvl : Fin 4) (w : Word), s.accepts lvl 0x7060 (putBits w 31 31 1) 0xF ∧ s.rd F.TWI_RECOV_STAT_STUCK = 1) ∧
    (∃ (s : State), s.twi.ctl = .waiting ∧ s.answers = true ∧ s.twiBusy = false) ∧
    (∃ (s : State), s.busUp = true ∧ s.twi.ctl = .waiting) ∧
    (∃ (s : State), s.busUp = true ∧ s.twi.ctl = .active ∧ s.rd F.TWI_CTL_STAT_TRIES ≤ s.rd F.TWI_CTL_CFG_RETRY) ∧
    (∃ (s : State), s.busUp = true ∧ s.twi.ctl = .active ∧ s.rd F.TWI_CTL_CFG_RETRY < s.rd F.TWI_CTL_STAT_TRIES) ∧
    (∃ (s : State), s.busUp = true ∧ s.twi.ctl = .active) ∧
    (∃ (s : State), s.busUp = true ∧ s.twi.ctl = .active) ∧
    (∃ (s : State), s.busUp = true ∧ s.twi.ctl = .active ∧ s.twi.ctlRd = 1 ∧ s.twi.ctlWr < 33) ∧
    (∃ (s : State), s.ibrReady = true) :=
  ⟨⟨up.wr F.TWI_RECOV_STAT_STUCK 0, 0, 0x00110000, acc (by decide +kernel), by decide +kernel⟩,
   ⟨up.wr F.TWI_RECOV_STAT_STUCK 1, 0, 0x00110000, acc (by decide +kernel), by decide +kernel⟩,
   ⟨putTwi (fun q => { q with ctl := .waiting }) up, by decide +kernel⟩,
   ⟨putTwi (fun q => { q with ctl := .waiting }) up, by decide +kernel⟩,
   ⟨putTwi (fun q => { q with ctl := .active }) up, by decide +kernel⟩,
   ⟨((putTwi (fun q => { q with ctl := .active }) up).wr F.TWI_CTL_CFG_RETRY 0).wr F.TWI_CTL_STAT_TRIES 1, by decide +kernel⟩,
   ⟨putTwi (fun q => { q with ctl := .active }) up, by decide +kernel⟩,
   ⟨putTwi (fun q => { q with ctl := .active }) up, by decide +kernel⟩,
   ⟨putTwi (fun q => { q with ctlRd := 1 }) (putTwi (fun q => { q with ctl := .active }) up), by decide +kernel⟩,
   ⟨(putTwi (fun q => { q with ibr := [5] }) up).wr F.TWI_IBR_CFG_EN 1, by decide +kernel⟩⟩

theorem witness_TwiRecoveryAndRequests :
    (∃ (s : State) (lvl : Fin 4), s.answers = true ∧ s.twi.recov = .idle ∧ s.accepts lvl 0x70B0 1 0xF) ∧
    (∃ (s : State), s.answers = true ∧ s.twi.recov = .watch) ∧
    (∃ (s : State) (left : Nat), s.busUp = true ∧ s.twi.recov = .attempt left) ∧
    (∃ (s : State) (left : Nat), s.busUp = true ∧ s.twi.recov = .attempt left ∧ 0 < left) ∧
    (∃ (s : State) (left : Nat), s.busUp = true ∧ s.twi.recov = .attempt left ∧ left = 0) ∧
    (∃ (s : State) (left : Nat), s.busUp = true ∧ s.twi.recov = .wait left) ∧
    (∃ (s : State) (c : Nat) (l : List Nat), s.ibrReady = true ∧ s.twi.ibr = c :: l ∧ c < 128) ∧
    (∃ (s : State), s.busUp = true) ∧
    (∃ (s : State), s.answers = true ∧ s.alertPin = true) :=
  ⟨⟨putTwi (fun q => { q with recov := .idle }) up, 0, by decide +kernel, by decide +kernel, acc (by decide +kernel)⟩,
   ⟨putTwi (fun q => { q with recov := .watch }) up, by decide +kernel⟩,
   ⟨putTwi (fun q => { q with recov := .attempt 0 }) up, 0, by decide +kernel⟩,
   ⟨putTwi (fun q => { q with recov := .attempt 3 }) up, 3, by decide +kernel⟩,
   ⟨putTwi (fun q => { q with recov := .attempt 0 }) up, 0, by decide +kernel⟩,
   ⟨putTwi (fun q => { q with recov := .wait 0 }) up, 0, by decide +kernel⟩,
   ⟨(putTwi (fun q => { q with ibr := 127 :: [] }) up).wr F.TWI_IBR_CFG_EN 1, 127, [], by decide +kernel⟩,
   ⟨up, by decide +kernel⟩,
   ⟨putTwi (fun q => { q with alertOwed := true }) ((up.wr F.TWI_ALERT_CFG_EN 1).wr (F.PAGE_EN .twi 0) 1), by decide +kernel⟩⟩

theorem witness_RfGain :
    (∃ (s : State) (i : Fin 4) (d : Int), max (-31) (min 24 (s.gain i + d)) ≠ s.gain i ∧ s.rd (F.RFIN_GAIN_STAT_AGC_STATE i) = 2) ∧
    (∃ (s : State) (i : Fin 4), (s.rfi i).cal = .idle ∧ s.mgmtDenied (calTask i) = none) ∧
    (∃ (s : State) (i : Fin 4), ∃ a write, (s.rfi i).cal = .idle ∧ s.mgmtDenied (calTask i) = some (a, write)) ∧
    (∃ (s : State) (i : Fin 4), (s.rfi i).cal ≠ .idle) ∧
    (∃ (s : State) (i : Fin 4), s.busUp = true ∧ s.inputHeld i = false ∧ ¬(s.rd (F.RFIN_GAIN_STAT_AGC_STATE i) = 1 ∧ (s.rfi i).gainDue = some .fast)) ∧
    (∃ (s : State) (i : Fin 4), s.busUp = true ∧ s.inputHeld i = false ∧ s.rd (F.RFIN_GAIN_STAT_AGC_STATE i) = 1 ∧ (s.rfi i).gainDue = some .fast) ∧
    (∃ (s : State) (i : Fin 4), s.busUp = true ∧ s.inputHeld i = false ∧ s.rd (F.RFIN_GAIN_STAT_AGC_STATE i) = 2 ∧ (s.rfi i).gainDue = none) ∧
    (∃ (s : State) (i : Fin 4) (full : Nat), s.sampling = true ∧ s.rootOk = true ∧ s.rate i ≠ 0 ∧ s.en .rfin i = true ∧ s.rd (F.RFIN_OVL_CFG_OVL_COUNT i) < full) ∧
    (∃ (s : State) (i : Fin 4) (full : Nat), s.sampling = true ∧ s.rootOk = true ∧ s.rate i ≠ 0 ∧ s.en .rfin i = true ∧ full ≤ s.rd (F.RFIN_OVL_CFG_OVL_COUNT i)) ∧
    (∃ (s : State) (i : Fin 4), s.rootOk = true ∧ s.inputHeld i = false) ∧
    (∃ (s : State) (i : Fin 4), s.rootOk = true ∧ (s.rfi i).cal = .running) ∧
    (∃ (s : State) (i : Fin 4) (r : CalResult), s.rootOk = true ∧ (s.rfi i).cal = .running ∧ r ≠ .pass) ∧
    (∃ (s : State) (lvl : Fin 4) (i : Fin 4) (w : Word), s.accepts lvl (0x10040 + 0x1000 * i.val) w 0xF ∧ getBits w 24 24 = 1) ∧
    (∃ (s : State) (lvl : Fin 4) (i : Fin 4), s.accepts lvl (0x10050 + 0x1000 * i.val) 1 0xF) :=
  ⟨⟨up.wr (F.RFIN_GAIN_STAT_AGC_STATE 3) 2, 3, 1, by decide +kernel⟩,
   ⟨up.updRf 3 fun q => { q with cal := .idle }, 3, by decide +kernel⟩,
   ⟨up.setReg 0x5810 0, 3, (F.RFIN_CAL_RECAL 3).addr, false, by decide +kernel⟩,
   ⟨up.updRf 3 fun q => { q with cal := .running }, 3, by decide +kernel⟩,
   ⟨(rx).wr (F.PAGE_EN .rfin 3) 1, 3, by decide +kernel⟩,
   ⟨(((rx).wr (F.RFIN_GAIN_STAT_AGC_STATE 3) 1).updRf 3 fun q => { q with gainDue := some .fast }).wr (F.PAGE_EN .rfin 3) 1, 3, by decide +kernel⟩,
   ⟨(((rx).wr (F.RFIN_GAIN_STAT_AGC_STATE 3) 2).updRf 3 fun q => { q with gainDue := none }).wr (F.PAGE_EN .rfin 3) 1, 3, by decide +kernel⟩,
   ⟨(((rx).wr F.PWR_STATE_STAT_STATE 3).wr F.PWR_STATE_STAT_STATE 3).wr (F.PAGE_EN .rfin 3) 1, 3, 300, by decide +kernel⟩,
   ⟨((((rx).wr F.PWR_STATE_STAT_STATE 3).wr F.PWR_STATE_STAT_STATE 3).wr (F.PAGE_EN .rfin 3) 1).wr (F.RFIN_OVL_CFG_OVL_COUNT 3) 0, 3, 0, by decide +kernel⟩,
   ⟨((rx).wr F.PWR_STATE_STAT_STATE 3).wr (F.PAGE_EN .rfin 3) 1, 3, by decide +kernel⟩,
   ⟨(up.wr F.PWR_STATE_STAT_STATE 3).updRf 3 fun q => { q with cal := .running }, 3, by decide +kernel⟩,
   ⟨(up.wr F.PWR_STATE_STAT_STATE 3).updRf 3 fun q => { q with cal := .running }, 3, .adcFault, by decide +kernel⟩,
   ⟨up, 0, 3, 0x0112021F, acc (by decide +kernel), by decide +kernel⟩,
   ⟨up, 0, 3, acc (by decide +kernel)⟩⟩

theorem witness_FilterAndAntenna :
    (∃ (s : State) (i : Fin 4) (code : Nat) (zone : Nat), s.rootOk = true ∧ (s.rfi i).filtDue = some (code, zone) ∧ (s.rd (F.RFIN_FILT_CTRL_SETTLE i) = 0 ∨ code = s.rd (F.RFIN_FILT_CTRL_CODE i)) ∧ zone = s.rd (F.RFIN_FILT_CTRL_ZONE2 i)) ∧
    (∃ (s : State) (i : Fin 4) (code : Nat) (zone : Nat), s.rootOk = true ∧ (s.rfi i).filtDue = some (code, zone) ∧ 0 < s.rd (F.RFIN_FILT_CTRL_SETTLE i) ∧ code ≠ s.rd (F.RFIN_FILT_CTRL_CODE i)) ∧
    (∃ (s : State) (i : Fin 4) (zone : Nat), s.rootOk = true ∧ (s.rfi i).filtDue = some (s.rd (F.RFIN_FILT_CTRL_CODE i), zone) ∧ zone ≠ s.rd (F.RFIN_FILT_CTRL_ZONE2 i)) ∧
    (∃ (s : State) (i : Fin 4), s.busUp = true ∧ (s.rfi i).settling = true) ∧
    (∃ (s : State) (i : Fin 4), s.busUp = true ∧ s.rd (F.RFIN_ANT_STAT_PWR i) = 1 ∧ (s.rfi i).blank = true) ∧
    (∃ (s : State) (i : Fin 4) (mv : Nat), s.busUp = true ∧ s.rd (F.RFIN_ANT_STAT_PWR i) = 1 ∧ (s.rfi i).blank = false ∧ s.rd (F.RFIN_ANT_THR_SHORT_MV i) < min mv 1200 ∧ 1 ≤ (s.rfi i).shortRun) ∧
    (∃ (s : State) (i : Fin 4) (mv : Nat), s.busUp = true ∧ s.rd (F.RFIN_ANT_STAT_PWR i) = 1 ∧ (s.rfi i).blank = false ∧ s.rd (F.RFIN_ANT_THR_SHORT_MV i) < min mv 1200 ∧ (s.rfi i).shortRun = 0) ∧
    (∃ (s : State) (i : Fin 4) (mv : Nat), s.busUp = true ∧ s.rd (F.RFIN_ANT_STAT_PWR i) = 1 ∧ (s.rfi i).blank = false ∧ min mv 1200 ≤ s.rd (F.RFIN_ANT_THR_SHORT_MV i) ∧ (s.rfi i).retrying = false ∧ s.rd (F.RFIN_ANT_STAT_FAULT i) = 0 ∧ min mv 1200 < s.rd (F.RFIN_ANT_THR_OPEN_MV i) ∧ 31 ≤ (s.rfi i).openRun) ∧
    (∃ (s : State) (i : Fin 4) (mv : Nat), s.busUp = true ∧ s.rd (F.RFIN_ANT_STAT_PWR i) = 1 ∧ (s.rfi i).blank = false ∧ min mv 1200 ≤ s.rd (F.RFIN_ANT_THR_SHORT_MV i) ∧ (s.rfi i).retrying = false ∧ s.rd (F.RFIN_ANT_STAT_FAULT i) = 1 ∧ s.rd (F.RFIN_ANT_THR_OPEN_MV i) ≤ min mv 1200 ∧ 31 ≤ (s.rfi i).inRun) ∧
    (∃ (s : State) (i : Fin 4) (mv : Nat), s.busUp = true ∧ s.rd (F.RFIN_ANT_STAT_PWR i) = 1 ∧ (s.rfi i).blank = false ∧ min mv 1200 ≤ s.rd (F.RFIN_ANT_THR_SHORT_MV i) ∧ (s.rfi i).retrying = true ∧ 1 ≤ (s.rfi i).okRun ∧ (s.rfi i).openRun < 31) ∧
    (∃ (s : State) (i : Fin 4) (mv : Nat) (low : Bool), s.busUp = true ∧ s.rd (F.RFIN_ANT_STAT_PWR i) = 1 ∧ (s.rfi i).blank = false ∧ min mv 1200 ≤ s.rd (F.RFIN_ANT_THR_SHORT_MV i) ∧ low = (decide (0 < s.rd (F.RFIN_ANT_THR_OPEN_MV i)) && decide (min mv 1200 < s.rd (F.RFIN_ANT_THR_OPEN_MV i))) ∧ ((s.rfi i).retrying = false ∨ (s.rfi i).okRun = 0) ∧ (s.rfi i).openRun < 31 ∧ (s.rfi i).inRun < 31) ∧
    (∃ (s : State) (i : Fin 4), s.en .rfin i = true) ∧
    (∃ (s : State) (i : Fin 4), s.busUp = true ∧ (s.rfi i).retryDue = true) ∧
    (∃ (s : State), s.busUp = true) ∧
    (∃ (s : State) (lvl : Fin 4) (i : Fin 4) (w : Word), s.accepts lvl (0x100A0 + 0x1000 * i.val) (putBits w 2 2 1) 0xF ∧ s.rd (F.RFIN_ANT_STAT_FAULT i) = 0) ∧
    (∃ (s : State) (lvl : Fin 4) (i : Fin 4) (w : Word), s.accepts lvl (0x100A0 + 0x1000 * i.val) (putBits w 2 2 1) 0xF ∧ s.rd (F.RFIN_ANT_STAT_FAULT i) ≠ 0) :=
  ⟨⟨((up.wr F.PWR_STATE_STAT_STATE 3).updRf 3 fun q => { q with filtDue := some (0, 0) }).wr (F.RFIN_FILT_CTRL_SETTLE 3) 0, 3, 0, 0, by decide +kernel⟩,
   ⟨((up.wr F.PWR_STATE_STAT_STATE 3).updRf 3 fun q => { q with filtDue := some (1, 0) }).wr (F.RFIN_FILT_CTRL_SETTLE 3) 1, 3, 1, 0, by decide +kernel⟩,
   ⟨(rx).updRf 3 fun r => { r with filtDue := some (0, 1) }, 3, 1, by decide +kernel⟩,
   ⟨up.updRf 3 fun q => { q with settling := true }, 3, by decide +kernel⟩,
   ⟨(up.wr (F.RFIN_ANT_STAT_PWR 3) 1).updRf 3 fun q => { q with blank := true }, 3, by decide +kernel⟩,
   ⟨((up.wr (F.RFIN_ANT_STAT_PWR 3) 1).updRf 3 fun q => { q with blank := false }).updRf 3 fun q => { q with shortRun := 1 }, 3, 1200, by decide +kernel⟩,
   ⟨((up.wr (F.RFIN_ANT_STAT_PWR 3) 1).updRf 3 fun q => { q with blank := false }).updRf 3 fun q => { q with shortRun := 0 }, 3, 1200, by decide +kernel⟩,
   ⟨((((up.wr (F.RFIN_ANT_STAT_PWR 3) 1).updRf 3 fun q => { q with blank := false }).updRf 3 fun q => { q with retrying := false }).wr (F.RFIN_ANT_STAT_FAULT 3) 0).updRf 3 fun q => { q with openRun := 31 }, 3, 0, by decide +kernel⟩,
   ⟨(((((up.wr (F.RFIN_ANT_STAT_PWR 3) 1).updRf 3 fun q => { q with blank := false }).updRf 3 fun q => { q with retrying := false }).wr (F.RFIN_ANT_STAT_FAULT 3) 1).updRf 3 fun q => { q with inRun := 31 }).wr (F.RFIN_ANT_THR_SHORT_MV 3) 1200, 3, 1200, by decide +kernel⟩,
   ⟨(((up.wr (F.RFIN_ANT_STAT_PWR 3) 1).updRf 3 fun q => { q with blank := false }).updRf 3 fun q => { q with retrying := true }).updRf 3 fun q => { q with okRun := 1 }, 3, 0, by decide +kernel⟩,
   ⟨((up.wr (F.RFIN_ANT_STAT_PWR 3) 1).updRf 3 fun q => { q with blank := false }).updRf 3 fun q => { q with retrying := false }, 3, 0, true, by decide +kernel⟩,
   ⟨up.wr (F.PAGE_EN .rfin 3) 1, 3, by decide +kernel⟩,
   ⟨up.updRf 3 fun q => { q with retryDue := true }, 3, by decide +kernel⟩,
   ⟨up, by decide +kernel⟩,
   ⟨up.wr (F.RFIN_ANT_STAT_FAULT 3) 0, 0, 3, 0x640F0500, acc (by decide +kernel), by decide +kernel⟩,
   ⟨up.wr (F.RFIN_ANT_STAT_FAULT 3) 1, 0, 3, 0x640F0500, acc (by decide +kernel), by decide +kernel⟩⟩

theorem witness_LaneCommands :
    (∃ (s : State) (n : Fin 24), s.rootOk = true ∧ s.clusOn (n / 6) = true ∧ s.laneExpert n = false ∧ (s.lane n).due = true ∧ (s.lane n).run = false ∧ s.rd (F.LANE_ASSIGN_PRESET n) ≠ 0 ∧ s.rate (s.rd (F.LANE_ASSIGN_INPUT n)) ≠ 0) ∧
    (∃ (s : State) (n : Fin 24), s.rootOk = true ∧ s.clusOn (n / 6) = true ∧ s.laneExpert n = true ∧ s.rd (F.LANE_X_APPLY_APPLY n) = 1 ∧ (s.lane n).run = false) ∧
    (∃ (s : State) (n : Fin 24), s.laneExpert n = true ∧ s.rd (F.LANE_X_APPLY_APPLY n) = 0 ∧ (s.lane n).due = false) ∧
    (∃ (s : State) (n : Fin 24), s.rootOk = true ∧ s.clusOn (n / 6) = true ∧ s.laneExpert n = false ∧ (s.lane n).due = false) ∧
    (∃ (s : State) (n : Fin 24), s.rootOk = true ∧ s.clusOn (n / 6) = true ∧ ((s.lane n).swapDue = true ∨ s.rd (F.LANE_X_APPLY_SWAP n) = 1)) ∧
    (∃ (s : State) (n : Fin 24), (s.lane n).engine < 17 ∨ (s.anaS ((s.lane n).engine - 17)).bwDue = none) ∧
    (∃ (s : State) (n : Fin 24) (code : Nat), 17 ≤ (s.lane n).engine ∧ (s.anaS ((s.lane n).engine - 17)).bwDue = some code) ∧
    (∃ (s : State) (n : Fin 24), s.rootOk = true ∧ s.clusOn (n / 6) = true ∧ (s.lane n).delayDue = true) ∧
    (∃ (s : State) (n : Fin 24), s.rootOk = true ∧ s.clusOn (n / 6) = true ∧ s.rd (F.LANE_STAT_SLEWING n) = 1 ∧ s.rd (F.LANE_DELAY_NOW n) ≠ s.rd (F.LANE_DELAY_TARGET n)) ∧
    (∃ (s : State) (n : Fin 24), s.rootOk = true ∧ s.laneRunning n = true ∧ 1 ≤ (s.lane n).engine ∧ (s.lane n).engine < 17 ∧ (s.ofdmS ((s.lane n).engine - 1)).trimmed = false) ∧
    (∃ (s : State) (n : Fin 24), s.rootOk = true ∧ s.laneRunning n = true ∧ (s.lane n).engine = 0 ∨ 17 ≤ (s.lane n).engine ∨ (s.ofdmS ((s.lane n).engine - 1)).trimmed = true) ∧
    (∃ (s : State) (n : Fin 24), (s.lane n).chain.hold = true) ∧
    (∃ (s : State) (n : Fin 24) (lim : Int), (s.lane n).chain.hold = false ∧ lim = ((s.lane n).chain.ratio / 1000 : Nat)) ∧
    (∃ (s : State) (n : Fin 24), s.rootOk = true ∧ (s.lane n).runMarked = true ∧ s.laneInterval n = false ∧ (s.lane n).dsp.unsettled (s.lane n).chain (s.rd (F.LANE_DELAY_NOW n)) = false) ∧
    (∃ (s : State) (n : Fin 24), s.rootOk = true ∧ s.laneRunning n = true) ∧
    (∃ (s : State) (n : Fin 24), s.rootOk = true ∧ s.laneRunning n = true ∧ (s.lane n).dsp.satSeen = false) ∧
    (∃ (s : State) (lvl : Fin 4) (n : Fin 24), s.accepts lvl (0x20428 + 0x1000 * n.val) 1 0xF) ∧
    (∃ (s : State) (lvl : Fin 4) (n : Fin 24), s.accepts lvl (0x20428 + 0x1000 * n.val) 2 0xF) ∧
    (∃ (s : State) (n : Fin 24) (who : DelayWriter) (slew : Bool) (target : BitVec 14), (∀ lvl : Fin 4, who = .host lvl → s.accepts lvl (0x2041C + 0x1000 * n.val) (BitVec.ofNat 32 (b2n slew * 0x8000 + target.toNat)) 0xF) ∧ ((∀ lvl : Fin 4, who ≠ .host lvl) → s.rootOk = true)) :=
  ⟨⟨((((((rx).wr F.PWR_STATE_STAT_STATE 3).wr (F.CLUS_STAT_POWER (23 / 6)) 4).wr (F.PAGE_LEVEL .lane 23) 0).updLane 23 fun q => { q with due := true }).updLane 23 fun q => { q with run := false }).wr (F.LANE_ASSIGN_PRESET 23) 1, 23, by decide +kernel⟩,
   ⟨((((up.wr F.PWR_STATE_STAT_STATE 3).wr (F.CLUS_STAT_POWER (23 / 6)) 4).wr (F.PAGE_LEVEL .lane 23) 1).wr (F.LANE_X_APPLY_APPLY 23) 1).updLane 23 fun q => { q with run := false }, 23, by decide +kernel⟩,
   ⟨((up.wr (F.PAGE_LEVEL .lane 23) 1).wr (F.LANE_X_APPLY_APPLY 23) 0).updLane 23 fun q => { q with due := false }, 23, by decide +kernel⟩,
   ⟨(((up.wr F.PWR_STATE_STAT_STATE 3).wr (F.CLUS_STAT_POWER (23 / 6)) 4).wr (F.PAGE_LEVEL .lane 23) 0).updLane 23 fun q => { q with due := false }, 23, by decide +kernel⟩,
   ⟨(((rx).wr F.PWR_STATE_STAT_STATE 3).wr (F.CLUS_STAT_POWER (23 / 6)) 4).updLane 23 fun q => { q with swapDue := true }, 23, by decide +kernel⟩,
   ⟨up, 23, by decide +kernel⟩,
   ⟨(up.updLane 23 fun l => { l with engine := 17 }).updAna 0 fun a => { a with bwDue := some 3 }, 23, 3, by decide +kernel⟩,
   ⟨((up.wr F.PWR_STATE_STAT_STATE 3).wr (F.CLUS_STAT_POWER (23 / 6)) 4).updLane 23 fun q => { q with delayDue := true }, 23, by decide +kernel⟩,
   ⟨(((up.wr F.PWR_STATE_STAT_STATE 3).wr (F.CLUS_STAT_POWER (23 / 6)) 4).wr (F.LANE_STAT_SLEWING 23) 1).wr (F.LANE_DELAY_TARGET 23) 1, 23, by decide +kernel⟩,
   ⟨(((((rx).wr F.PWR_STATE_STAT_STATE 3).updLane 23 fun q => { q with engine := 1 }).wr (F.PAGE_EN .lane 23) 1).updLane 23 fun q => { q with run := true }).updLane 23 fun q => { q with engine := 1 }, 23, by decide +kernel⟩,
   ⟨((((rx).wr F.PWR_STATE_STAT_STATE 3).updLane 23 fun q => { q with engine := 0 }).wr (F.PAGE_EN .lane 23) 1).updLane 23 fun q => { q with run := true }, 23, by decide +kernel⟩,
   ⟨up.updLane 23 fun q => { q with chain := { q.chain with hold := true } }, 23, by decide +kernel⟩,
   ⟨((rx).wr (F.PAGE_EN .lane 23) 1).updLane 23 fun q => { q with run := true }, 23, 4294967, by decide +kernel⟩,
   ⟨((((rx).wr F.PWR_STATE_STAT_STATE 3).updLane 23 fun q => { q with runMarked := true }).wr (F.PAGE_EN .rfin 0) 1).updLane 23 fun q => { q with dsp := { DspSt.init with groups := List.replicate 4 false, line := List.replicate 128 smp, hist := List.replicate 528 smp } }, 23, by decide +kernel⟩,
   ⟨(((rx).wr F.PWR_STATE_STAT_STATE 3).wr (F.PAGE_EN .lane 23) 1).updLane 23 fun q => { q with run := true }, 23, by decide +kernel⟩,
   ⟨(((rx).wr F.PWR_STATE_STAT_STATE 3).wr (F.PAGE_EN .lane 23) 1).updLane 23 fun q => { q with run := true }, 23, by decide +kernel⟩,
   ⟨((rx).wr (F.PAGE_LEVEL .lane 23) 1).wr (F.LANE_X_CHAIN_HB 23) 4, 0, 23, acc (by decide +kernel)⟩,
   ⟨up.wr (F.PAGE_LEVEL .lane 23) 1, 0, 23, acc (by decide +kernel)⟩,
   ⟨up.wr (F.PAGE_LEVEL .lane 23) 1, 23, .host 0, true, 0, (fun lvl h => by cases h; exact acc (by decide +kernel)), by decide +kernel⟩⟩

theorem witness_PlacementPasses :
    (∃ (s : State) (lvl : Fin 4) (n : Fin 128) (k : Fin 128) (w : Word) (x : Facts), s.accepts lvl (0x60000 + 0x200 * n.val + 4 * k.val) w x.rfin) ∧
    (∃ (s : State) (lvl : Fin 4) (n : Fin 128) (k : Fin 128) (w : Word) (x : Facts), s.accepts lvl (0x60000 + 0x200 * n.val + 4 * k.val) w x.rfin ∧ x.hits = [] ∧ s.memT.test = none ∧ s.poisoned (wordOf (hamperMem (0x60000 + 0x200 * n.val + 4 * k.val))) = false) ∧
    (∃ (s : State) (lvl : Fin 4) (k : Fin 4) (w : Word), s.accepts lvl (0x52050 + 4 * k.val) w 0xF) ∧
    (∃ (s : State), s.place.due = true ∧ s.place.running = false ∧ s.busUp = true ∧ s.en .place = true) ∧
    (∃ (s : State), s.place.running = true ∧ s.busUp = true) ∧
    (∃ (s : State) (h : Fin 128) (r : Report), r.state < 8 ∧ r.reason < 16 ∧ r.combined < 2 ∧ r.branches < 8 ∧ r.lanes < 2 ^ 32 ∧ r.units < 2 ^ 32 ∧ r.freq < 2 ^ 32 ∧ r.region < 2 ^ 32 ∧ r.alt < 2 ^ 32 ∧ s.shownReport h ≠ r) ∧
    (∃ (s : State) (h : Fin 128) (r : Report), r.state < 8 ∧ r.reason < 16 ∧ r.combined < 2 ∧ r.branches < 8 ∧ r.lanes < 2 ^ 32 ∧ r.units < 2 ^ 32 ∧ r.freq < 2 ^ 32 ∧ r.region < 2 ^ 32 ∧ r.alt < 2 ^ 32 ∧ s.shownReport h ≠ r ∧ r.state = 2 ∧ (s.shownReport h).state ≠ 2) ∧
    (∃ (s : State) (h : Fin 128) (r : Report), r.state < 8 ∧ r.reason < 16 ∧ r.combined < 2 ∧ r.branches < 8 ∧ r.lanes < 2 ^ 32 ∧ r.units < 2 ^ 32 ∧ r.freq < 2 ^ 32 ∧ r.region < 2 ^ 32 ∧ r.alt < 2 ^ 32 ∧ s.shownReport h ≠ r ∧ r.state ≠ 2 ∧ (s.shownReport h).state = 2) ∧
    (∃ (s : State) (n : Fin 128), s.placed n = true ∧ s.rd (F.HAMPER_RSTAT_QUAL n) < (s.ham n).req.minQual ∧ s.busUp = true) ∧
    (∃ (s : State) (c : PChain), s.rd F.PLACE_X_POLICY_HOT_SHED = 1 ∧ s.en .place = true ∧ 2 ≤ s.radio ∧ s.busUp = true ∧ (s.place.live.shedOrder (s.place.live.chains.filter fun d => (s.clu d.clus).hot)).find? (fun d => ((s.shedChain false s.place.live d.id).find d.id).isNone) = some c) :=
  ⟨⟨up, 0, 127, 11, 0, facts, acc (by decide +kernel)⟩,
   ⟨putMemT (fun q => { q with test := none }) up, 0, 127, 11, 0, facts, acc (by decide +kernel), by decide +kernel⟩,
   ⟨up, 0, 3, 0, acc (by decide +kernel)⟩,
   ⟨(putPlace (fun q => { q with running := false }) (putPlace (fun q => { q with due := true }) up)).wr (F.PAGE_EN .place 0) 1, by decide +kernel⟩,
   ⟨putPlace (fun q => { q with running := true }) up, by decide +kernel⟩,
   ⟨up, 127, report, by decide +kernel⟩,
   ⟨up, 127, report, by decide +kernel⟩,
   ⟨up.wr (F.HAMPER_RSTAT_STATE 127) 2, 127, { report with state := 3 }, by decide +kernel⟩,
   ⟨placedOn (chain 1 0 0) (fun h => { h with req := { h.req with minQual := 100 } }) up, 127, by decide +kernel⟩,
   ⟨(placedOn (chain 1 0 0) (fun h => { h with bearer := 1, freq := 100000000, req := { h.req with en := true, div := 1, divMin := 1, mask := 1, bearer := 1, freq := 100000000 } }) ((rx.wr F.PLACE_X_POLICY_HOT_SHED 1).wr (F.PAGE_EN .place 0) 1)).updClu 0 fun q => { q with hot := true }, chain 1 0 0, by decide +kernel⟩⟩

theorem witness_AnalogueEngines :
    (∃ (s : State) (e : Fin 16), s.engState (17 + e) = 0) ∧
    (∃ (s : State) (e : Fin 16) (w : AnaWin), s.rootOk = true ∧ s.engState (17 + e) = 1 ∧ w.counted = true ∧ 4 * (s.rd (F.ANA_ACQ_CFG_DET_SNR e) : Int) ≤ w.cnr4 ∧ 1 ≤ (s.anaS e).det ∧ 0 < s.rd (F.ANA_ACQ_CFG_LOSS e) ∧ w.invalid = false) ∧
    (∃ (s : State) (e : Fin 16) (w : AnaWin), s.rootOk = true ∧ 2 ≤ s.engState (17 + e) ∧ w.counted = false ∧ w.invalid = true) ∧
    (∃ (s : State) (e : Fin 16), s.rootOk = true ∧ s.engState (17 + e) = 1 ∧ (s.anaS e).timedOut = false) ∧
    (∃ (s : State) (e : Fin 16), (s.engState (17 + e) = 0 ∨ s.engState (17 + e) = 2 ∨ s.engState (17 + e) = 3 ∨ (s.anaS e).timedOut = true)) ∧
    (∃ (s : State) (e : Fin 16) (c : Nat), s.rootOk = true ∧ 2 ≤ s.engState (17 + e) ∧ s.isAm e = false ∧ c = (s.anaS e).bwDue.getD (s.rd (F.ANA_STAT_BW_IN_USE e))) ∧
    (∃ (s : State) (e : Fin 16) (c : Nat), s.rootOk = true ∧ 2 ≤ s.engState (17 + e) ∧ s.isAm e = true ∧ c = (s.anaS e).bwDue.getD (s.rd (F.ANA_STAT_BW_IN_USE e))) ∧
    (∃ (s : State) (e : Fin 16) (code : Nat), code < 5 ∧ (∀ n ∈ s.lanesOfEng (17 + e), s.laneExpert n = true ∨ ((s.nextBank n).code = code ∧ (s.nextBank n).preset = (s.lane n).preset))) ∧
    (∃ (s : State) (e : Fin 16) (code : Nat), code < 5 ∧ s.rd (F.ANA_STAT_BW_IN_USE e) ≠ code) ∧
    (∃ (s : State) (e : Fin 16) (code : Nat) (n : Nat), n ∈ s.lanesOfEng (17 + e) ∧ s.laneExpert n = false ∧ (s.nextBank n).code ≠ code) ∧
    (∃ (s : State) (e : Fin 16) (b : RdsBlock) (c : RdsSeek), s.rootOk = true ∧ s.rdsOn e 0 = true ∧ s.rd (F.ANA_ASSIGN_MODE e) = 1 ∧ 2 ≤ s.engState (17 + e) ∧ b.stream = 0 ∧ b.offset = .b ∧ b.burst = 0 ∧ (tget RdsStream.init (s.anaS e).rds 0).sync = false ∧ (tget RdsStream.init (s.anaS e).rds 0).seek.find? (fun c => decide (c.bit + 26 = b.bit) && decide ((c.slot + 1) % 4 = 1)) = some c) ∧
    (∃ (s : State) (e : Fin 16) (b : RdsBlock), s.rootOk = true ∧ s.rdsOn e b.stream = true ∧ s.rd (F.ANA_ASSIGN_MODE e) = 1 ∧ 2 ≤ s.engState (17 + e) ∧ b.burst = 0 ∧ (tget RdsStream.init (s.anaS e).rds b.stream).sync = false ∧ ((tget RdsStream.init (s.anaS e).rds b.stream).seek.all fun c => !decide (c.bit + 26 = b.bit)) = true) ∧
    (∃ (s : State) (e : Fin 16) (b : RdsBlock), (tget RdsStream.init (s.anaS e).rds b.stream).sync = true ∧ (rdsSlot b.offset ≠ (tget RdsStream.init (s.anaS e).rds b.stream).pos ∨ b.bit ≠ (tget RdsStream.init (s.anaS e).rds b.stream).bit)) ∧
    (∃ (s : State) (e : Fin 16) (b : RdsBlock) (r : RdsStream) (err : Nat), s.rootOk = true ∧ s.rdsOn e b.stream = true ∧ s.rd (F.ANA_ASSIGN_MODE e) = 1 ∧ 2 ≤ s.engState (17 + e) ∧ r = tget RdsStream.init (s.anaS e).rds b.stream ∧ r.sync = true ∧ r.pos = 1 ∧ b.offset = .b ∧ b.bit = r.bit ∧ b.afs = [] ∧ b.clock = none ∧ err = rdsErr (s.anaCfg e (F.ANA_RDS_CFG_ERR_MAX e)) b.burst ∧ (((decide (err = 3) :: r.bads).take 50).filter id).length ≤ s.rd (F.ANA_X_RDS_SYNC_BAD e)) ∧
    (∃ (s : State) (e : Fin 16) (b : RdsBlock) (r : RdsStream) (err : Nat), s.rootOk = true ∧ s.rdsOn e b.stream = true ∧ s.rd (F.ANA_ASSIGN_MODE e) = 1 ∧ 2 ≤ s.engState (17 + e) ∧ r = tget RdsStream.init (s.anaS e).rds b.stream ∧ r.sync = true ∧ r.pos = 1 ∧ b.offset = .b ∧ b.bit = r.bit ∧ b.afs = [] ∧ b.clock = none ∧ err = rdsErr (s.anaCfg e (F.ANA_RDS_CFG_ERR_MAX e)) b.burst ∧ s.rd (F.ANA_X_RDS_SYNC_BAD e) < (((decide (err = 3) :: r.bads).take 50).filter id).length) :=
  ⟨⟨up.wr (F.ANA_STAT_STATE 15) 0, 15, by decide +kernel⟩,
   ⟨(((up.wr F.PWR_STATE_STAT_STATE 3).wr (F.ANA_STAT_STATE 15) 1).updAna 15 fun q => { q with det := 1 }).wr (F.ANA_ACQ_CFG_LOSS 15) 1, 15, anaWin, by decide +kernel⟩,
   ⟨(up.wr F.PWR_STATE_STAT_STATE 3).wr (F.ANA_STAT_STATE 15) 2, 15, { anaWin with counted := false, invalid := true }, by decide +kernel⟩,
   ⟨((up.wr F.PWR_STATE_STAT_STATE 3).wr (F.ANA_STAT_STATE 15) 1).updAna 15 fun q => { q with timedOut := false }, 15, by decide +kernel⟩,
   ⟨up.wr (F.ANA_STAT_STATE 15) 0, 15, by decide +kernel⟩,
   ⟨(up.wr F.PWR_STATE_STAT_STATE 3).wr (F.ANA_STAT_STATE 15) 2, 15, 0, by decide +kernel⟩,
   ⟨((up.wr F.PWR_STATE_STAT_STATE 3).wr (F.ANA_STAT_STATE 15) 2).wr (F.ANA_ASSIGN_MODE 15) 2, 15, 0, by decide +kernel⟩,
   ⟨up, 15, 4, by decide +kernel⟩,
   ⟨up, 15, 4, by decide +kernel⟩,
   ⟨up.updLane 23 fun l => { l with engine := 32, run := true }, 15, 4, 23, by decide +kernel⟩,
   ⟨(((((((rx).wr F.PWR_STATE_STAT_STATE 3).wr (F.ANA_ASSIGN_MODE 15) 1).wr (F.ANA_STAT_STATE 15) 2).wr (F.ANA_ASSIGN_MODE 15) 1).wr (F.ANA_STAT_STATE 15) 2).updAna 15 fun q => { q with rdsCfg := 0xFFFFFFFF }).updAna 15 fun q => { q with rds := [(0, { RdsStream.init with seek := [{ bit := 0, slot := 0, info := 0, cPrime := false, start := 0 }] })] }, 15, { rdsB with stream := 0, offset := .b, burst := 0, bit := 26, afs := [], clock := none }, ({ bit := 0, slot := 0, info := 0, cPrime := false, start := 0 } : RdsSeek), by decide +kernel⟩,
   ⟨(((((((rx).wr F.PWR_STATE_STAT_STATE 3).wr (F.ANA_ASSIGN_MODE 15) 1).wr (F.ANA_STAT_STATE 15) 2).wr (F.ANA_ASSIGN_MODE 15) 1).wr (F.ANA_STAT_STATE 15) 2).updAna 15 fun q => { q with rdsCfg := 0xFFFFFFFF }).updAna 15 fun q => { q with rds := [(0, { RdsStream.init with seek := [{ bit := 0, slot := 0, info := 0, cPrime := false, start := 0 }] })] }, 15, { rdsB with stream := 0, offset := .b, burst := 0, bit := 27, afs := [], clock := none }, by decide +kernel⟩,
   ⟨up.updAna 15 fun a => { a with rds := [(0, { RdsStream.init with sync := true })] }, 15, { rdsB with stream := 0, offset := .b }, by decide +kernel⟩,
   ⟨((((((((rx).wr F.PWR_STATE_STAT_STATE 3).wr (F.ANA_ASSIGN_MODE 15) 1).wr (F.ANA_STAT_STATE 15) 2).wr (F.ANA_ASSIGN_MODE 15) 1).wr (F.ANA_STAT_STATE 15) 2).wr (F.ANA_X_RDS_SYNC_BAD 15) 45).updAna 15 fun q => { q with rdsCfg := 0xFFFFFFFF }).updAna 15 fun q => { q with rds := [(0, { RdsStream.init with sync := true, pos := 1, bit := 26 })] }, 15, { rdsB with stream := 0, offset := .b, burst := 6, bit := 26, afs := [], clock := none }, ({ RdsStream.init with sync := true, pos := 1, bit := 26 } : RdsStream), 3, by decide +kernel⟩,
   ⟨((((((((rx).wr F.PWR_STATE_STAT_STATE 3).wr (F.ANA_ASSIGN_MODE 15) 1).wr (F.ANA_STAT_STATE 15) 2).wr (F.ANA_ASSIGN_MODE 15) 1).wr (F.ANA_STAT_STATE 15) 2).wr (F.ANA_X_RDS_SYNC_BAD 15) 45).updAna 15 fun q => { q with rdsCfg := 0xFFFFFFFF }).updAna 15 fun q => { q with rds := [(0, { RdsStream.init with sync := true, pos := 1, bit := 26, bads := List.replicate 50 true })] }, 15, { rdsB with stream := 0, offset := .b, burst := 6, bit := 26, afs := [], clock := none }, ({ RdsStream.init with sync := true, pos := 1, bit := 26, bads := List.replicate 50 true } : RdsStream), 3, by decide +kernel⟩⟩

theorem witness_OfdmEngines :
    (∃ (s : State) (e : Fin 8), s.exporting e = false ∧ s.engState (1 + e) < 2) ∧
    (∃ (s : State) (e : Fin 8), s.rootOk = true ∧ s.exporting e = true) ∧
    (∃ (s : State) (e : Fin 8), s.rootOk = true ∧ s.exporting e = false ∧ s.engState (1 + e) = 2) ∧
    (∃ (s : State) (e : Fin 8) (c : Fin 4), s.on (F.BR_VALID e c) = true) ∧
    (∃ (s : State) (e : Fin 8), s.engState (1 + e) = 0) ∧
    (∃ (s : State) (e : Fin 8) (f : OfdmFrame), s.rootOk = true ∧ s.engState (1 + e) = 1 ∧ s.rd (F.OFDM_ASSIGN_STD e) ≤ 1 ∧ f.p1 = none ∧ f.drmMode = none ∧ f.counted = true ∧ f.ofs.natAbs ≤ s.rd (F.OFDM_X_ACQ_FREQ_RANGE e) * 1024 + 512 ∧ (s.rd (F.OFDM_X_ACQ_DET_THR e) : Int) ≤ f.peak2) ∧
    (∃ (s : State) (e : Fin 8) (f : OfdmFrame), ∃ p, s.rootOk = true ∧ 2 ≤ s.engState (1 + e) ∧ f.p1 = none ∧ f.drmMode = none ∧ (s.engState (1 + e) = 2 ∨ s.rd (F.OFDM_X_ACQ_CAPTURE_LOCKED e) = 1) ∧ s.capturePeak e f.peaks = some p) ∧
    (∃ (s : State) (e : Fin 8) (f : OfdmFrame), s.rootOk = true ∧ 2 ≤ s.engState (1 + e) ∧ f.p1 = none ∧ f.drmMode = none ∧ s.capturePeak e f.peaks = none ∧ f.invalid = false ∧ f.ofs.natAbs ≤ 30 * 1024 ∧ f.counted = true ∧ 0 < s.rd (F.OFDM_ACQ_CFG_LOSS e) ∧ (s.rd (F.OFDM_X_ACQ_DET_THR e) : Int) ≤ f.peak2) ∧
    (∃ (s : State) (e : Fin 8) (f : OfdmFrame), s.rootOk = true ∧ 2 ≤ s.engState (1 + e) ∧ f.p1 = none ∧ f.drmMode = none ∧ s.capturePeak e f.peaks = none ∧ f.invalid = true) ∧
    (∃ (s : State) (e : Fin 8), s.rootOk = true ∧ s.engState (1 + e) = 1 ∧ (s.ofdmS e).timedOut = false) :=
  ⟨⟨up, 7, by decide +kernel⟩,
   ⟨placedOn { chain 2 7 3 with use := .remote } (fun h => h) rx, 7, by decide +kernel⟩,
   ⟨(up.wr F.PWR_STATE_STAT_STATE 3).wr (F.OFDM_STAT_STATE 7) 2, 7, by decide +kernel⟩,
   ⟨up.wr (F.BR_VALID 7 3) 1, 7, 3, by decide +kernel⟩,
   ⟨up.wr (F.OFDM_STAT_STATE 7) 0, 7, by decide +kernel⟩,
   ⟨(up.wr F.PWR_STATE_STAT_STATE 3).wr (F.OFDM_STAT_STATE 7) 1, 7, frame, by decide +kernel⟩,
   ⟨((up.wr F.PWR_STATE_STAT_STATE 3).wr (F.OFDM_STAT_STATE 7) 2).wr (F.OFDM_STAT_STATE 7) 2, 7, { frame with peaks := [(255, 100000)] }, (255, 100000), by decide +kernel⟩,
   ⟨((up.wr F.PWR_STATE_STAT_STATE 3).wr (F.OFDM_STAT_STATE 7) 2).wr (F.OFDM_ACQ_CFG_LOSS 7) 1, 7, frame, by decide +kernel⟩,
   ⟨(up.wr F.PWR_STATE_STAT_STATE 3).wr (F.OFDM_STAT_STATE 7) 2, 7, { frame with invalid := true }, by decide +kernel⟩,
   ⟨((up.wr F.PWR_STATE_STAT_STATE 3).wr (F.OFDM_STAT_STATE 7) 1).updOfdm 7 fun q => { q with timedOut := false }, 7, by decide +kernel⟩⟩

theorem witness_FecDecoders :
    (∃ (s : State) (e : Fin 8), s.fecChain e = none) ∧
    (∃ (s : State) (e : Fin 8) (f : Fib) (c : PChain), s.rootOk = true ∧ s.fecChain e = some c ∧ c.bearer = 2 ∧ crc16Holds (payloadBytes f.words 0) = false) ∧
    (∃ (s : State) (e : Fin 8) (f : Fib) (c : PChain), s.rootOk = true ∧ s.fecChain e = some c ∧ c.bearer = 2 ∧ crc16Holds (payloadBytes f.words 0) = true ∧ s.on F.FEC_OUT_CFG_SIG_OUT = false ∧ s.engState (1 + e) = 3) ∧
    (∃ (s : State) (e : Fin 8) (f : Fib) (c : PChain), s.rootOk = true ∧ s.fecChain e = some c ∧ c.bearer = 2 ∧ crc16Holds (payloadBytes f.words 0) = true ∧ s.on F.FEC_OUT_CFG_SIG_OUT = false ∧ s.engState (1 + e) = 2 ∧ (s.ofdmS e).resid = true ∧ 2 ≤ (s.ofdmS e).fibs) ∧
    (∃ (s : State) (e : Fin 8) (f : LogicalFrame) (c : PChain) (key : Nat), s.rootOk = true ∧ s.fecChain e = some c ∧ c.bearer = 2 ∧ s.engState (1 + (e : Nat)) = 3 ∧ key = 64 * (e : Nat) + f.service.stream.toNat % 64 ∧ tget 0 s.fec.deint key < 15) ∧
    (∃ (s : State) (e : Fin 8) (f : LogicalFrame) (c : PChain) (key : Nat), s.rootOk = true ∧ s.fecChain e = some c ∧ c.bearer = 2 ∧ s.engState (1 + (e : Nat)) = 3 ∧ key = 64 * (e : Nat) + f.service.stream.toNat % 64 ∧ 15 ≤ tget 0 s.fec.deint key ∧ f.plus = false ∧ c.pair = none) ∧
    (∃ (s : State) (e : Fin 8) (f : Superframe) (c : PChain) (key : Nat), s.rootOk = true ∧ s.fecChain e = some c ∧ c.bearer = 2 ∧ s.engState (1 + (e : Nat)) = 3 ∧ key = 64 * (e : Nat) + f.service.stream.toNat % 64 ∧ tget 0 s.fec.deint key < 20) ∧
    (∃ (s : State) (e : Fin 8) (f : Superframe) (c : PChain) (key : Nat) (p : VrsPass) (v : Service), s.rootOk = true ∧ s.fecChain e = some c ∧ c.bearer = 2 ∧ s.engState (1 + (e : Nat)) = 3 ∧ key = 64 * (e : Nat) + f.service.stream.toNat % 64 ∧ 20 ≤ tget 0 s.fec.deint key ∧ c.pair = none ∧ (tget 0 s.fec.fire key = 0 ∨ tget 0 s.fec.phase key = f.cif.toNat % 5) ∧ f.passes = [p] ∧ p.fire = true ∧ (∀ w : Codeword, w ∈ p.words → 2 * (w.filter fun b => b.1).length ≤ 10) ∧ v = { f.service with packet := false, corrected := f.service.corrected || superDirty f }) ∧
    (∃ (w : Codeword), 2 * (w.filter fun b => b.1).length ≤ 10) ∧
    (∃ (s : State) (id : Nat) (h : Nat) (b : Block), s.adecFor h id = none ∧ b.corrected = false ∧ b.bad = true ∧ s.on F.FEC_OUT_CFG_PASS_BAD = false) ∧
    (∃ (s : State) (id : Nat) (h : Nat) (b : Block), s.adecFor h id = none ∧ b.corrected = false ∧ b.bad = false) ∧
    (∃ (s : State) (e : Fin 8) (c : PChain), s.rootOk = true ∧ s.fecChain e = some c ∧ c.bearer = 2 ∧ s.engState (1 + (e : Nat)) = 3) ∧
    (∃ (s : State) (e : Fin 8) (f : DrmFrame) (c : PChain), s.rootOk = true ∧ s.fecChain e = some c ∧ (c.bearer = 3 ∨ c.bearer = 4) ∧ facHolds f.fac = false ∧ f.sdc = none ∧ s.engState (1 + (e : Nat)) = 2) ∧
    (∃ (s : State) (e : Fin 8) (f : T2L1) (c : PChain), s.rootOk = true ∧ s.fecChain e = some c ∧ 5 ≤ c.bearer ∧ f.preOk = true ∧ f.postOk = false ∧ s.on (F.OFDM_STAT_MODE_VALID e) = true ∧ s.rd (F.OFDM_STAT_T2_FFT e) ≠ f.fft) ∧
    (∃ (s : State) (e : Fin 8) (f : T2L1) (c : PChain), s.rootOk = true ∧ s.fecChain e = some c ∧ 5 ≤ c.bearer ∧ f.preOk = true ∧ f.postOk = false ∧ s.on (F.OFDM_STAT_MODE_VALID e) = false ∧ (e : Nat) ∉ s.fec.l1Due ∧ f.announced = false) :=
  ⟨⟨up, 7, by decide +kernel⟩,
   ⟨((placedOn (chain 2 7 3) (fun h => h) (up.wr (F.OFDM_STAT_STATE 7) 2))).wr F.PWR_STATE_STAT_STATE 3, 7, { fib with words := [0, 0, 0, 0, 0, 0, 0, 0] }, chain 2 7 3, by decide +kernel⟩,
   ⟨((((placedOn (chain 2 7 3) (fun h => h) (up.wr (F.OFDM_STAT_STATE 7) 3))).wr F.PWR_STATE_STAT_STATE 3).wr F.FEC_OUT_CFG_SIG_OUT 0).wr (F.OFDM_STAT_STATE 7) 3, 7, fib, chain 2 7 3, by decide +kernel⟩,
   ⟨((((((placedOn (chain 2 7 3) (fun h => h) (up.wr (F.OFDM_STAT_STATE 7) 2))).wr F.PWR_STATE_STAT_STATE 3).wr F.FEC_OUT_CFG_SIG_OUT 0).wr (F.OFDM_STAT_STATE 7) 2).updOfdm 7 fun q => { q with resid := true }).updOfdm 7 fun q => { q with fibs := 2 }, 7, fib, chain 2 7 3, by decide +kernel⟩,
   ⟨(((placedOn (chain 2 7 3) (fun h => h) (up.wr (F.OFDM_STAT_STATE 7) 3))).wr F.PWR_STATE_STAT_STATE 3).wr (F.OFDM_STAT_STATE 7) 3, 7, lframe, chain 2 7 3, 448, by decide +kernel⟩,
   ⟨putFec (fun q => { q with deint := [(448, 15)] }) ((((placedOn (chain 2 7 3) (fun h => h) (up.wr (F.OFDM_STAT_STATE 7) 3))).wr F.PWR_STATE_STAT_STATE 3).wr (F.OFDM_STAT_STATE 7) 3), 7, lframe, chain 2 7 3, 448, by decide +kernel⟩,
   ⟨(((placedOn (chain 2 7 3) (fun h => h) (up.wr (F.OFDM_STAT_STATE 7) 3))).wr F.PWR_STATE_STAT_STATE 3).wr (F.OFDM_STAT_STATE 7) 3, 7, sframe, chain 2 7 3, 448, by decide +kernel⟩,
   ⟨putFec (fun q => { q with deint := [(448, 20)] }) ((((placedOn (chain 2 7 3) (fun h => h) (up.wr (F.OFDM_STAT_STATE 7) 3))).wr F.PWR_STATE_STAT_STATE 3).wr (F.OFDM_STAT_STATE 7) 3), 7, sframe, chain 2 7 3, 448, { words := [], fire := true }, { service with packet := false, corrected := service.corrected || superDirty sframe }, by decide +kernel⟩,
   ⟨[], by decide +kernel⟩,
   ⟨up.wr F.FEC_OUT_CFG_PASS_BAD 0, 0, 0, { block with uncorr := true }, by decide +kernel⟩,
   ⟨up, 0, 0, block, by decide +kernel⟩,
   ⟨(((placedOn (chain 2 7 3) (fun h => h) (up.wr (F.OFDM_STAT_STATE 7) 3))).wr F.PWR_STATE_STAT_STATE 3).wr (F.OFDM_STAT_STATE 7) 3, 7, chain 2 7 3, by decide +kernel⟩,
   ⟨(((placedOn (chain 3 7 3) (fun h => h) (up.wr (F.OFDM_STAT_STATE 7) 2))).wr F.PWR_STATE_STAT_STATE 3).wr (F.OFDM_STAT_STATE 7) 2, 7, drm, chain 3 7 3, by decide +kernel⟩,
   ⟨(((placedOn (chain 5 7 3) (fun h => h) (up.wr (F.OFDM_STAT_STATE 7) 2))).wr F.PWR_STATE_STAT_STATE 3).wr (F.OFDM_STAT_MODE_VALID 7) 1, 7, t2, chain 5 7 3, by decide +kernel⟩,
   ⟨(((placedOn (chain 5 7 3) (fun h => h) (up.wr (F.OFDM_STAT_STATE 7) 2))).wr F.PWR_STATE_STAT_STATE 3).wr (F.OFDM_STAT_MODE_VALID 7) 0, 7, t2, chain 5 7 3, by decide +kernel⟩⟩

theorem witness_LdpcAndCombining :
    (∃ (s : State) (e : Fin 8), s.fecChain e = none) ∧
    (∃ (s : State) (e : Fin 8) (h : Fin 128) (c : PChain) (u : Nat), s.rootOk = true ∧ s.fecChain e = some c ∧ 5 ≤ c.bearer ∧ (s.ham h).ldpc = some u ∧ s.fec.l1Drop.contains e.val = false ∧ ((s.ldpc u).fifo.filter fun b => decide (b.who = (h : Nat))).length < 16) ∧
    (∃ (s : State) (e : Fin 8) (h : Fin 128) (c : PChain) (u : Nat), s.rootOk = true ∧ s.fecChain e = some c ∧ 5 ≤ c.bearer ∧ (s.ham h).ldpc = some u ∧ s.fec.l1Drop.contains e.val = false ∧ 16 ≤ ((s.ldpc u).fifo.filter fun b => decide (b.who = (h : Nat))).length) ∧
    (∃ (s : State) (u : Fin 2), (s.en .fec = false ∨ (s.ldpc u).cur.isSome = true ∨ (s.ldpc u).fifo = [] ∨ s.rootOk = false)) ∧
    (∃ (s : State) (u : Fin 2) (b : LBlock) (n : Nat), s.en .fec = true ∧ s.rootOk = true ∧ (s.ldpc u).cur = none ∧ (s.ldpc u).choose s.blockPrio = some b ∧ n = (if s.rd F.FEC_X_LDPC_LOAD_THR < (s.ldpc u).fifo.length then min (s.rd F.FEC_LDPC_CFG_MAX_ITER) (s.rd F.FEC_X_LDPC_LOAD_ITER) else s.rd F.FEC_LDPC_CFG_MAX_ITER)) ∧
    (∃ (x : LdpcSt) (b : LBlock), (x.fifo.find? fun b => decide (128 ≤ b.who)) = some b) ∧
    (∃ (x : LdpcSt) (prio : LBlock → Nat) (b : LBlock), (x.fifo.find? fun b => decide (128 ≤ b.who)) = none ∧ x.choose prio = some b) ∧
    (∃ (x : LdpcSt) (prio : LBlock → Nat) (b : LBlock) (d : LBlock), (x.fifo.find? fun b => decide (128 ≤ b.who)) = none ∧ x.choose prio = some b ∧ d ∈ x.heads) ∧
    (∃ (s : State) (u : Fin 2), (s.ldpc u).cur = none) ∧
    (∃ (s : State) (k : Fin 2) (r : LdpcResult) (b : LBlock) (n : Nat), s.busUp = true ∧ (s.ldpc k).cur = some b ∧ b.who < 128 ∧ r.parity = some n ∧ n ≤ b.limit ∧ n < 128 ∧ b.stop = true ∧ 12 < r.bitErrors) ∧
    (∃ (s : State), s.on F.FEC_LAST_BAD_VALID = true) ∧
    (∃ (s : State) (u : Fin 2) (b : LBlock) (r : List LBlock), s.busUp = true ∧ (s.ldpc u).fifo = b :: r ∧ 128 ≤ b.who ∧ b.waited = false) ∧
    (∃ (s : State) (u : Fin 4) (c : CifPair) (p : PChain), s.en .fec = true ∧ s.rootOk = true ∧ s.pairOn u = some p ∧ (∀ l ∈ p.legs, s.engState (1 + l.eng) = 3) ∧ c.sameEid = true ∧ c.sameFig = true ∧ c.skew.natAbs ≤ 240 * s.rd F.FEC_COMB_CFG_SKEW_MAX ∧ s.on (F.FEC_COMB_STAT_ACTIVE u) = false ∧ c.complete = true ∧ c.frameEnd = true ∧ tget 0 s.fec.combRun u = 0) ∧
    (∃ (s : State) (u : Fin 4) (c : CifPair) (p : PChain), s.en .fec = true ∧ s.rootOk = true ∧ s.pairOn u = some p ∧ (∀ l ∈ p.legs, s.engState (1 + l.eng) = 3) ∧ c.sameEid = true ∧ c.sameFig = true ∧ c.skew.natAbs ≤ 240 * s.rd F.FEC_COMB_CFG_SKEW_MAX ∧ s.on (F.FEC_COMB_STAT_ACTIVE u) = false ∧ c.complete = true ∧ c.frameEnd = true ∧ 2 ≤ tget 0 s.fec.combRun u) ∧
    (∃ (s : State) (u : Fin 4) (c : CifPair) (p : PChain), s.en .fec = true ∧ s.rootOk = true ∧ s.pairOn u = some p ∧ (∀ l ∈ p.legs, s.engState (1 + l.eng) = 3) ∧ c.sameEid = true ∧ c.sameFig = true ∧ c.skew.natAbs ≤ 240 * s.rd F.FEC_COMB_CFG_SKEW_MAX ∧ s.on (F.FEC_COMB_STAT_ACTIVE u) = true) ∧
    (∃ (s : State) (u : Fin 4) (c : CifPair) (p : PChain), s.en .fec = true ∧ s.rootOk = true ∧ s.pairOn u = some p ∧ s.on (F.FEC_COMB_STAT_ACTIVE u) = true ∧ (∀ l ∈ p.legs, s.engState (1 + l.eng) = 3) ∧ c.sameEid = false) ∧
    (∃ (s : State), s.en .fec = true ∧ s.rootOk = true) :=
  ⟨⟨up, 7, by decide +kernel⟩,
   ⟨(placedOn (chain 5 7 3) (fun h => { h with ldpc := some 1 }) (rx.wr (F.OFDM_STAT_STATE 7) 2)), 7, 127, chain 5 7 3, 1, by decide +kernel⟩,
   ⟨(placedOn (chain 5 7 3) (fun h => { h with ldpc := some 1 }) (rx.wr (F.OFDM_STAT_STATE 7) 2)).updLdpc 1 fun q => { q with fifo := List.replicate 16 lblock }, 7, 127, chain 5 7 3, 1, by decide +kernel⟩,
   ⟨up.wr (F.PAGE_EN .fec 0) 0, 1, by decide +kernel⟩,
   ⟨rx.updLdpc 1 fun q => { q with fifo := [{ lblock with who := 128 }] }, 1, { lblock with who := 128 }, 50, by decide +kernel⟩,
   ⟨{ fifo := [{ lblock with who := 128 }], cur := none, turn := [] }, { lblock with who := 128 }, by decide +kernel⟩,
   ⟨{ fifo := [lblock], cur := none, turn := [] }, fun _ => 0, lblock, by decide +kernel⟩,
   ⟨{ fifo := [lblock], cur := none, turn := [] }, fun _ => 0, lblock, lblock, by decide +kernel⟩,
   ⟨up.updLdpc 1 fun q => { q with cur := none }, 1, by decide +kernel⟩,
   ⟨(up.updLdpc 1 fun q => { q with cur := some { lblock with stop := true } }).updLdpc 1 fun q => { q with cur := some { lblock with stop := true } }, 1, lres, { lblock with stop := true }, 0, by decide +kernel⟩,
   ⟨up.wr F.FEC_LAST_BAD_VALID 1, by decide +kernel⟩,
   ⟨rx.updLdpc 1 fun q => { q with fifo := [{ lblock with who := 128 }] }, 1, { lblock with who := 128 }, [], by decide +kernel⟩,
   ⟨((((placedOn pairChain (fun h => h) ((rx.wr (F.OFDM_STAT_STATE 6) 3).wr (F.OFDM_STAT_STATE 7) 3))).wr (F.PAGE_EN .fec 0) 1).wr F.PWR_STATE_STAT_STATE 3).wr (F.FEC_COMB_STAT_ACTIVE 3) 0, 3, cifs, pairChain, by decide +kernel⟩,
   ⟨putFec (fun q => { q with combRun := [(3, 2)] }) (((((placedOn pairChain (fun h => h) ((rx.wr (F.OFDM_STAT_STATE 6) 3).wr (F.OFDM_STAT_STATE 7) 3))).wr (F.PAGE_EN .fec 0) 1).wr F.PWR_STATE_STAT_STATE 3).wr (F.FEC_COMB_STAT_ACTIVE 3) 0), 3, cifs, pairChain, by decide +kernel⟩,
   ⟨((((placedOn pairChain (fun h => h) ((rx.wr (F.OFDM_STAT_STATE 6) 3).wr (F.OFDM_STAT_STATE 7) 3))).wr (F.PAGE_EN .fec 0) 1).wr F.PWR_STATE_STAT_STATE 3).wr (F.FEC_COMB_STAT_ACTIVE 3) 1, 3, cifs, pairChain, by decide +kernel⟩,
   ⟨((((placedOn pairChain (fun h => h) ((up.wr (F.OFDM_STAT_STATE 6) 3).wr (F.OFDM_STAT_STATE 7) 3))).wr (F.PAGE_EN .fec 0) 1).wr F.PWR_STATE_STAT_STATE 3).wr (F.FEC_COMB_STAT_ACTIVE 3) 1, 3, { cifs with sameEid := false }, pairChain, by decide +kernel⟩,
   ⟨(up.wr (F.PAGE_EN .fec 0) 1).wr F.PWR_STATE_STAT_STATE 3, by decide +kernel⟩⟩

theorem witness_Measurements :
    (∃ (s : State) (w : Fin 128), (s.measures w = false ∨ s.sampling = false ∨ s.rootOk = false ∨ (s.watcher w).meas.isSome = true)) ∧
    (∃ (s : State) (w : Fin 128) (n : Nat), s.rootOk = true ∧ s.measures w = true ∧ s.sampling = true ∧ (s.watcher w).meas = none ∧ (s.ham w).req.role = 4 ∧ s.watchLane w = some n ∧ s.measInput w (s.ham w).req.bearer (s.ham w).req.freq (s.rd (F.LANE_ASSIGN_INPUT n)) = none) ∧
    (∃ (s : State) (w : Fin 128) (n : Nat) (i : Nat), s.rootOk = true ∧ s.measures w = true ∧ s.sampling = true ∧ (s.watcher w).meas = none ∧ (s.ham w).req.role = 4 ∧ s.watchLane w = some n ∧ s.measInput w (s.ham w).req.bearer (s.ham w).req.freq (s.rd (F.LANE_ASSIGN_INPUT n)) = some (i, none)) ∧
    (∃ (s : State) (w : Fin 128) (m : Meas), s.rootOk = true ∧ (s.watcher w).meas = some m ∧ m.eng = none ∧ s.lendable w m.bearer = none) ∧
    (∃ (s : State) (w : Fin 128) (m : Meas), ∃ k, s.rootOk = true ∧ (s.watcher w).meas = some m ∧ m.eng = none ∧ s.lendable w m.bearer = some k) ∧
    (∃ (s : State) (w : Fin 128), (s.watcher w).meas = none) ∧
    (∃ (s : State) (w : Fin 128) (m : Meas) (k : Nat), s.rootOk = true ∧ (s.watcher w).meas = some m ∧ m.eng = some k ∧ m.verify = false ∧ (s.ham w).req.role = 2) ∧
    (∃ (s : State) (w : Fin 128) (r : MeasResult) (n : Nat) (f : FolSt) (sw : Switch), s.rootOk = true ∧ (s.follow.find? fun x => x.2.sw.any fun y => decide (y.watcher = (w : Nat)) && !y.asked) = some (n, f) ∧ f.sw = some sw ∧ (s.watcher w).meas = none ∧ r.valid = false ∧ s.measures w = false) ∧
    (∃ (s : State) (w : Fin 128) (r : MeasResult) (n : Nat) (f : FolSt) (sw : Switch), s.rootOk = true ∧ (s.follow.find? fun x => x.2.sw.any fun y => decide (y.watcher = (w : Nat)) && !y.asked) = some (n, f) ∧ f.sw = some sw ∧ (s.watcher w).meas = none ∧ r.valid = false ∧ s.measures w = true) ∧
    (∃ (s : State) (w : Fin 128) (r : MeasResult) (n : Nat) (f : FolSt) (sw : Switch), s.rootOk = true ∧ (s.follow.find? fun x => x.2.sw.any fun y => decide (y.watcher = (w : Nat)) && !y.asked) = some (n, f) ∧ f.sw = some sw ∧ (s.watcher w).meas = none ∧ r.valid = true ∧ r.ident = 0) ∧
    (∃ (s : State) (w : Fin 128) (r : MeasResult) (n : Nat) (f : FolSt) (sw : Switch), s.rootOk = true ∧ (s.follow.find? fun x => x.2.sw.any fun y => decide (y.watcher = (w : Nat)) && !y.asked) = some (n, f) ∧ f.sw = some sw ∧ (s.watcher w).meas = none ∧ r.valid = true ∧ identMatches (s.expectedOf w sw.bearer sw.freq) r.ident.toNat 0 = false ∧ r.ident ≠ 0) ∧
    (∃ (s : State) (w : Fin 128) (r : MeasResult) (n : Nat) (f : FolSt) (sw : Switch), s.rootOk = true ∧ (s.follow.find? fun x => x.2.sw.any fun y => decide (y.watcher = (w : Nat)) && !y.asked) = some (n, f) ∧ f.sw = some sw ∧ (s.watcher w).meas = none ∧ r.valid = true ∧ identMatches (s.expectedOf w sw.bearer sw.freq) r.ident.toNat 0 = true) ∧
    (∃ (n : Nat) (r : Nat), n < 128 ∧ r < 8) ∧
    (∃ (s : State) (w : Fin 128) (m : Meas) (k : Nat), s.rootOk = true ∧ (s.watcher w).meas = some m ∧ m.eng = some k ∧ (s.ham w).req.role = 4 ∧ m.bearer = 2) :=
  ⟨⟨up, 127, by decide +kernel⟩,
   ⟨((((placedOn { chain 2 0 0 with use := .borrow } (fun h => { h with req := { h.req with role := 4, bearer := 2, freq := 220352000, mask := 0 } }) rx)).wr F.PWR_STATE_STAT_STATE 3).wr F.PWR_STATE_STAT_STATE 3).updWatch 127 fun q => { q with meas := none }, 127, 0, by decide +kernel⟩,
   ⟨((((placedOn { chain 2 0 0 with use := .borrow } (fun h => { h with req := { h.req with role := 4, bearer := 2, freq := 220352000, mask := 15 } }) rx)).wr F.PWR_STATE_STAT_STATE 3).wr F.PWR_STATE_STAT_STATE 3).updWatch 127 fun q => { q with meas := none }, 127, 0, 0, by decide +kernel⟩,
   ⟨rx.updWatch 127 fun q => { q with meas := some meas }, 127, meas, by decide +kernel⟩,
   ⟨(placedOn { chain 2 0 0 with use := .borrow } (fun h => { h with req := { h.req with role := 4, bearer := 2, freq := 220352000, mask := 15 } }) rx).updWatch 127 fun q => { q with meas := some meas }, 127, meas, 1, by decide +kernel⟩,
   ⟨up.updWatch 127 fun q => { q with meas := none }, 127, by decide +kernel⟩,
   ⟨(placedOn { chain 2 0 0 with use := .borrow } (fun h => { h with req := { h.req with role := 2, bearer := 2, freq := 220352000, mask := 15 } }) rx).updWatch 127 fun q => { q with meas := some { meas with eng := some 1 } }, 127, { meas with eng := some 1 }, 1, by decide +kernel⟩,
   ⟨rx.updFol 5 fun _ => { FolSt.init with sw := some switch }, 127, { mres with valid := false }, 5, { FolSt.init with sw := some switch }, switch, by decide +kernel⟩,
   ⟨(placedOn { chain 2 0 0 with use := .borrow } (fun h => { h with req := { h.req with role := 2, bearer := 2, freq := 220352000, mask := 15 } }) rx).updFol 5 fun _ => { FolSt.init with sw := some switch }, 127, { mres with valid := false }, 5, { FolSt.init with sw := some switch }, switch, by decide +kernel⟩,
   ⟨rx.updFol 5 fun _ => { FolSt.init with sw := some switch }, 127, { mres with ident := 0 }, 5, { FolSt.init with sw := some switch }, switch, by decide +kernel⟩,
   ⟨rx.updFol 5 fun _ => { FolSt.init with sw := some switch }, 127, mres, 5, { FolSt.init with sw := some switch }, switch, by decide +kernel⟩,
   ⟨(placedOn (chain 2 7 3) (fun h => { h with req := { h.req with id0 := 1, id1 := 1, bearer := 2, link := 127 } }) rx).updFol 5 fun _ => { FolSt.init with sw := some switch }, 127, mres, 5, { FolSt.init with sw := some switch }, switch, by decide +kernel⟩,
   ⟨0, 0, by decide +kernel⟩,
   ⟨(placedOn { chain 2 0 0 with use := .borrow } (fun h => { h with req := { h.req with role := 4, bearer := 2, freq := 220352000, mask := 15 } }) rx).updWatch 127 fun q => { q with meas := some { meas with eng := some 1 } }, 127, { meas with eng := some 1 }, 1, by decide +kernel⟩⟩

theorem witness_SwitchesAndBlends :
    (∃ (s : State) (n : Fin 128), (s.fol n).sw = none) ∧
    (∃ (s : State) (n : Fin 128), (s.fol n).sw = none) ∧
    (∃ (s : State) (n : Fin 128) (sw : Switch), s.busUp = true ∧ (s.fol n).sw = some sw ∧ sw.published = true ∧ s.rd (F.PLACE_FOLLOW_W0_STATE n) = 2 ∧ sw.second = true) ∧
    (∃ (s : State) (n : Fin 128) (sw : Switch), s.busUp = true ∧ (s.fol n).sw = some sw ∧ sw.published = true ∧ s.rd (F.PLACE_FOLLOW_W0_STATE n) = 2 ∧ sw.second = false) ∧
    (∃ (s : State) (sw : Switch), ∃ c, c ∈ ((s.holdBad sw).watcher sw.watcher).cands ∧ c.bearer = sw.bearer ∧ c.freq = sw.freq) ∧
    (∃ (s : State) (w : Fin 128), s.busUp = true ∧ (s.ham w).req.role ≠ 2) ∧
    (∃ (s : State) (w : Fin 128), s.busUp = true ∧ (s.ham w).req.role = 2) ∧
    (∃ (s : State), s.busUp = true) ∧
    (∃ (s : State) (n : Nat) (w : Nat) (c : Cand) (qa : Int), (s.fol n).sw = none ∧ (s.fol n).holdoff = false ∧ s.isFollowed n = true ∧ bestCand (s.bearerNow n) ((s.candsOf n).filter fun x => s.qualifies x.1 x.2.1) = some (w, c, qa)) ∧
    (∃ (s : State) (n : Fin 128) (win : AlignWin) (sw : Switch), ∃ p o, s.busUp = true ∧ (s.fol n).sw = some sw ∧ sw.second = true ∧ s.rd (F.PLACE_FOLLOW_W0_STATE n) = 3 ∧ s.blendMuted n = false ∧ win.peak = some p ∧ getBits sw.blend 23 16 ≤ p ∧ win.ofs.natAbs ≤ 48 * getBits sw.blend 11 0 ∧ sw.lastOfs = some o ∧ (win.ofs - o).natAbs ≤ 1) ∧
    (∃ (s : State) (n : Fin 128) (win : AlignWin) (sw : Switch), s.busUp = true ∧ (s.fol n).sw = some sw ∧ sw.second = true ∧ s.rd (F.PLACE_FOLLOW_W0_STATE n) = 3 ∧ (win.peak = none ∨ s.blendMuted n = true) ∧ sw.tries + 1 < getBits sw.blend 15 12) ∧
    (∃ (s : State) (n : Fin 128) (win : AlignWin) (sw : Switch), s.busUp = true ∧ (s.fol n).sw = some sw ∧ sw.second = true ∧ s.rd (F.PLACE_FOLLOW_W0_STATE n) = 3 ∧ (win.peak = none ∨ s.blendMuted n = true) ∧ getBits sw.blend 15 12 ≤ sw.tries + 1) ∧
    (∃ (s : State) (n : Fin 128) (sw : Switch), s.busUp = true ∧ (s.fol n).sw = some sw ∧ sw.second = true ∧ s.rd (F.PLACE_FOLLOW_W0_STATE n) = 4) ∧
    (∃ (s : State) (n : Nat) (sw : Switch), n < 128 ∧ (s.fol n).sw = some sw) ∧
    (∃ (s : State) (n : Fin 128), s.rd (F.PLACE_FOLLOW_W3_STANDING n) = 0 ∨ s.keepsDelay n = true) ∧
    (∃ (s : State) (n : Fin 128), s.rd (F.PLACE_FOLLOW_W3_STANDING n) ≠ 0 ∧ s.keepsDelay n = false ∧ (s.fol n).sw = none ∧ s.busUp = true) :=
  ⟨⟨up.updFol 127 fun q => { q with sw := none }, 127, by decide +kernel⟩,
   ⟨up.updFol 127 fun q => { q with sw := none }, 127, by decide +kernel⟩,
   ⟨((up.updFol 127 fun q => { q with sw := some switch })).wr (F.PLACE_FOLLOW_W0_STATE 127) 2, 127, switch, by decide +kernel⟩,
   ⟨(((up.updFol 127 fun q => { q with sw := some { switch with second := false } })).updFol 127 fun q => { q with sw := some { switch with second := false } }).wr (F.PLACE_FOLLOW_W0_STATE 127) 2, 127, { switch with second := false }, by decide +kernel⟩,
   ⟨up.updWatch 127 fun q => { q with cands := [cand] }, switch, { cand with bad := true, run := 0 }, by decide +kernel⟩,
   ⟨up, 127, by decide +kernel⟩,
   ⟨(placedOn { chain 2 0 0 with use := .borrow } (fun h => { h with req := { h.req with role := 2, bearer := 2, freq := 220352000, mask := 15 } }) up), 127, by decide +kernel⟩,
   ⟨up, by decide +kernel⟩,
   ⟨(putPlace (fun p => { p with live := { Plan.init with hams := [(126, { HamSt.init with state := 2, req := { Req.init with bearer := 2 } }), (127, { HamSt.init with state := 2, req := { Req.init with role := 2, link := 126, id1 := 5, bearer := 2 } })] } }) (putTime (fun t => { t with now := 10 ^ 30 }) (up.wr F.PLACE_FOLLOW_CFG_EN 1))).updWatch 127 fun q => { q with cands := [{ cand with freq := 1 }] }, 126, 127, { cand with freq := 1 }, 100, by decide +kernel⟩,
   ⟨((up.updFol 127 fun q => { q with sw := some switch })).wr (F.PLACE_FOLLOW_W0_STATE 127) 3, 127, win, switch, 100, 0, by decide +kernel⟩,
   ⟨(((up.updFol 127 fun q => { q with sw := some { switch with blend := 0xF000 } })).updFol 127 fun q => { q with sw := some { switch with blend := 0xF000 } }).wr (F.PLACE_FOLLOW_W0_STATE 127) 3, 127, { win with peak := none }, { switch with blend := 0xF000 }, by decide +kernel⟩,
   ⟨(((up.updFol 127 fun q => { q with sw := some { switch with tries := 255 } })).updFol 127 fun q => { q with sw := some { switch with tries := 255 } }).wr (F.PLACE_FOLLOW_W0_STATE 127) 3, 127, { win with peak := none }, { switch with tries := 255 }, by decide +kernel⟩,
   ⟨((up.updFol 127 fun q => { q with sw := some switch })).wr (F.PLACE_FOLLOW_W0_STATE 127) 4, 127, switch, by decide +kernel⟩,
   ⟨up.updFol 0 fun q => { q with sw := some switch }, 0, switch, by decide +kernel⟩,
   ⟨up.wr (F.PLACE_FOLLOW_W3_STANDING 127) 0, 127, by decide +kernel⟩,
   ⟨(up.wr (F.PLACE_FOLLOW_W3_STANDING 127) 1).updFol 127 fun q => { q with sw := none }, 127, by decide +kernel⟩⟩

theorem witness_AudioFrames :
    (∃ (s : State) (e : Fin 6), (s.en .adec = false ∨ s.rootOk = false ∨ s.adecNext e = none)) ∧
    (∃ (s : State) (e : Fin 6) (f : AudioFrame) (h : Nat) (x : AdecIn), s.en .adec = true ∧ s.rootOk = true ∧ s.adecNext e = some h ∧ s.adec.ready.find? (fun y => decide (y.eng = (e : Nat)) && decide (y.ham = h)) = some x ∧ f.parses = true ∧ audioFits f ((s.place.live.find x.chain).elim 0 (·.bearer)) = true ∧ (x.check = some true ∨ (x.check = none ∧ f.check = some true))) ∧
    (∃ (s : State) (e : Fin 6) (f : AudioFrame) (h : Nat) (x : AdecIn), s.en .adec = true ∧ s.rootOk = true ∧ s.adecNext e = some h ∧ s.adec.ready.find? (fun y => decide (y.eng = (e : Nat)) && decide (y.ham = h)) = some x ∧ (x.check = some false ∨ f.parses = false ∨ (x.uncorr = true ∧ x.check = none ∧ f.check = none))) ∧
    (∃ (s : State) (h : Fin 128) (id : Nat), min 15 ((s.adecHam h id).bad + 1) < s.rd F.ADEC_CFG_CONCEAL_MAX) ∧
    (∃ (s : State) (h : Fin 128) (id : Nat), s.rd F.ADEC_CFG_CONCEAL_MAX ≤ min 15 ((s.adecHam h id).bad + 1) ∧ (s.adecHam h id).muted = false) ∧
    (∃ (s : State) (n : Fin 4), (s.en .aud n = false ∨ s.busUp = false)) ∧
    (∃ (s : State) (n : Fin 4), s.en .aud n = true ∧ s.busUp = true ∧ s.rd (F.AUD_CFG_MASTER n) = 1) ∧
    (∃ (s : State) (n : Fin 4), (s.port n).staged = false ∧ s.rd (F.AUD_CTRL_STOP n) = 0 ∧ s.rd (F.AUD_STAT_RUN n) = 1) ∧
    (∃ (s : State) (n : Fin 4), (s.port n).staged = false ∧ s.rd (F.AUD_CTRL_STOP n) = 0 ∧ s.rd (F.AUD_STAT_RUN n) = 0 ∧ s.rd (F.AUD_CTRL_START n) = 1) ∧
    (∃ (s : State) (n : Fin 4), (s.port n).staged = false ∧ s.rd (F.AUD_STAT_RUN n) = 1 ∧ s.rd (F.AUD_CTRL_STOP n) = 1) ∧
    (∃ (s : State) (n : Nat), s.rd (F.AUD_CFG_DATA24 n) = 1 ∧ s.rd (F.AUD_CFG_SLOT_W n) = 0) ∧
    (∃ (s : State) (n : Nat) (p : Nat) (right : Bool), (tget 0 (if right then (s.port n).fromR else (s.port n).fromL) p = 0 ∨ bit (if right then (s.port n).muteR else (s.port n).muteL) p = true)) ∧
    (∃ (s : State) (n : Nat) (p : Nat) (h : Nat) (right : Bool) (pcm : List PcmIn), ∃ v, tget 0 (if right then (s.port n).fromR else (s.port n).fromL) p = h + 1 ∧ bit (if right then (s.port n).muteR else (s.port n).muteL) p = false ∧ s.hamSample pcm h right = some v) ∧
    (∃ (s : State) (n : Nat) (p : Nat) (h : Nat) (right : Bool) (pcm : List PcmIn), tget 0 (if right then (s.port n).fromR else (s.port n).fromL) p = h + 1 ∧ bit (if right then (s.port n).muteR else (s.port n).muteL) p = false ∧ s.hamSample pcm h right = none ∧ s.rd (F.AUD_CFG_FILL_MODE n) = 0) ∧
    (∃ (s : State) (h : Nat) (id : Nat) (x : PcmIn) (pcm : List PcmIn), (s.ham h).alt = none ∧ (s.ham h).chain = some id ∧ pcm.find? (fun y => decide (y.ham.val = h) && decide (y.second = false)) = some x) ∧
    (∃ (s : State) (id : Nat) (c : PChain), s.place.live.find id = some c ∧ isAna c.bearer = true) ∧
    (∃ (s : State) (id : Nat) (c : PChain), s.place.live.find id = some c ∧ isAna c.bearer = false ∧ s.en .adec = false) ∧
    (∃ (s : State) (h : Nat) (id : Nat) (c : PChain), s.place.live.find id = some c ∧ isAna c.bearer = false ∧ s.en .adec = true ∧ (s.adecHam h id).channels = 0) ∧
    (∃ (s : State) (n : Fin 4) (p : Nat) (pcm : List PcmIn), p < 8 ∧ s.rd (F.AUD_ROUTE_VALID n p) = 1 ∧ bit (s.rd (F.AUD_STAT_UNDER n)) p = false ∧ s.hamSample pcm (s.rd (F.AUD_ROUTE_HAMPER n p)) false = none) ∧
    (∃ (s : State) (n : Fin 4) (p : Nat) (pcm : List PcmIn), p < 8 ∧ s.rd (F.AUD_ROUTE_VALID n p) = 1 ∧ bit (s.rd (F.AUD_STAT_UNDER n)) p = true ∧ s.hamSample pcm (s.rd (F.AUD_ROUTE_HAMPER n p)) false = none) ∧
    (∃ (s : State) (n : Fin 4) (p : Nat) (pcm : List PcmIn), p < 8 ∧ s.rd (F.AUD_ROUTE_VALID n p) = 1 ∧ bit (s.rd (F.AUD_STAT_UNDER n)) p = true ∧ (s.hamSample pcm (s.rd (F.AUD_ROUTE_HAMPER n p)) false).isSome = true) ∧
    (∃ (s : State) (n : Fin 4), s.en .aud n = true ∧ s.busUp = true ∧ s.rd (F.AUD_CFG_MASTER n) = 0 ∧ (s.port n).correct = 15 ∧ (s.port n).framed = true) ∧
    (∃ (s : State) (n : Fin 4), s.en .aud n = true ∧ s.busUp = true ∧ s.rd (F.AUD_CFG_MASTER n) = 0) ∧
    (∃ (s : State) (n : Fin 4), s.en .aud n = true ∧ s.busUp = true ∧ s.rd (F.AUD_CFG_MASTER n) = 0 ∧ s.rd (F.AUD_STAT_RUN n) = 1) ∧
    (∃ (s : State) (n : Fin 4), (s.port n).zc = []) ∧
    (∃ (s : State) (n : Fin 4), (s.port n).zc = []) ∧
    (∃ (s : State) (n : Fin 4) (p : Fin 8), (s.port n).zc = [{ pair := p, left := true, right := true }] ∧ s.busUp = true) :=
  ⟨⟨up.wr (F.PAGE_EN .adec 0) 0, 5, by decide +kernel⟩,
   ⟨putAdec (fun q => { q with ready := [{ eng := 5, ham := 127, chain := 0, uncorr := false, check := some true }] }) ((placedOn (chain 2 7 3) (fun h => h) rx).wr (F.PAGE_EN .adec 0) 1), 5, { aframe with format := 1 }, 127, { eng := 5, ham := 127, chain := 0, uncorr := false, check := some true }, by decide +kernel⟩,
   ⟨putAdec (fun q => { q with ready := [{ eng := 5, ham := 127, chain := 0, uncorr := false, check := some false }] }) ((placedOn (chain 2 7 3) (fun h => h) rx).wr (F.PAGE_EN .adec 0) 1), 5, aframe, 127, { eng := 5, ham := 127, chain := 0, uncorr := false, check := some false }, by decide +kernel⟩,
   ⟨up, 127, 0, by decide +kernel⟩,
   ⟨up.wr F.ADEC_CFG_CONCEAL_MAX 0, 127, 0, by decide +kernel⟩,
   ⟨up.wr (F.PAGE_EN .aud 3) 0, 3, by decide +kernel⟩,
   ⟨(up.wr (F.PAGE_EN .aud 3) 1).wr (F.AUD_CFG_MASTER 3) 1, 3, by decide +kernel⟩,
   ⟨((up.updAud 3 fun q => { q with staged := false }).wr (F.AUD_CTRL_STOP 3) 0).wr (F.AUD_STAT_RUN 3) 1, 3, by decide +kernel⟩,
   ⟨(((up.updAud 3 fun q => { q with staged := false }).wr (F.AUD_CTRL_STOP 3) 0).wr (F.AUD_STAT_RUN 3) 0).wr (F.AUD_CTRL_START 3) 1, 3, by decide +kernel⟩,
   ⟨((up.updAud 3 fun q => { q with staged := false }).wr (F.AUD_STAT_RUN 3) 1).wr (F.AUD_CTRL_STOP 3) 1, 3, by decide +kernel⟩,
   ⟨(up.wr (F.AUD_CFG_DATA24 0) 1).wr (F.AUD_CFG_SLOT_W 0) 0, 0, by decide +kernel⟩,
   ⟨up.wr (F.AUD_STAT_UNDER 0) 1, 0, 0, true, by decide +kernel⟩,
   ⟨(placedOn (chain 1 0 0) (fun h => h) up).updAud 0 fun a => { a with fromL := [(0, 128)] }, 0, 0, 127, false, [{ ham := 127, second := false, ch0 := 5, ch1 := 6 }], 5, by decide +kernel⟩,
   ⟨(up.wr (F.AUD_CFG_FILL_MODE 0) 0).updAud 0 fun a => { a with fromL := [(0, 128)] }, 0, 0, 127, false, [], by decide +kernel⟩,
   ⟨(placedOn (chain 1 0 0) (fun h => h) up), 127, 0, { ham := 127, second := false, ch0 := 5, ch1 := 6 }, [{ ham := 127, second := false, ch0 := 5, ch1 := 6 }], by decide +kernel⟩,
   ⟨(placedOn (chain 1 0 0) (fun h => h) up), 0, chain 1 0 0, by decide +kernel⟩,
   ⟨(placedOn (chain 2 7 3) (fun h => h) up).wr (F.PAGE_EN .adec 0) 0, 0, chain 2 7 3, by decide +kernel⟩,
   ⟨(placedOn (chain 2 7 3) (fun h => h) up).wr (F.PAGE_EN .adec 0) 1, 127, 0, chain 2 7 3, by decide +kernel⟩,
   ⟨up.wr (F.AUD_ROUTE_VALID 3 7) 1, 3, 7, [], by decide +kernel⟩,
   ⟨(up.wr (F.AUD_ROUTE_VALID 3 7) 1).wr (F.AUD_STAT_UNDER 3) 255, 3, 7, [], by decide +kernel⟩,
   ⟨(((placedOn (chain 1 0 0) (fun h => h) up).wr (F.AUD_ROUTE_VALID 3 7) 1).wr (F.AUD_ROUTE_HAMPER 3 7) 127).wr (F.AUD_STAT_UNDER 3) 255, 3, 7, [{ ham := 127, second := false, ch0 := 5, ch1 := 6 }], by decide +kernel⟩,
   ⟨(((up.wr (F.PAGE_EN .aud 3) 1).wr (F.AUD_CFG_MASTER 3) 0).updAud 3 fun q => { q with correct := 15 }).updAud 3 fun q => { q with framed := true }, 3, by decide +kernel⟩,
   ⟨(up.wr (F.PAGE_EN .aud 3) 1).wr (F.AUD_CFG_MASTER 3) 0, 3, by decide +kernel⟩,
   ⟨((up.wr (F.PAGE_EN .aud 3) 1).wr (F.AUD_CFG_MASTER 3) 0).wr (F.AUD_STAT_RUN 3) 1, 3, by decide +kernel⟩,
   ⟨up.updAud 3 fun q => { q with zc := [] }, 3, by decide +kernel⟩,
   ⟨up.updAud 3 fun q => { q with zc := [] }, 3, by decide +kernel⟩,
   ⟨up.updAud 3 fun q => { q with zc := [{ pair := 7, left := true, right := true }] }, 3, 7, by decide +kernel⟩⟩

theorem witness_AudioPortWrites :
    (∃ (s : State) (lvl : Fin 4) (n : Fin 4) (w : Word), s.accepts lvl (0xC044 + 0x1000 * n.val) w 0xF) ∧
    (∃ (s : State) (n : Fin 4), (s.port n).staged = true) ∧
    (∃ (s : State) (lvl : Fin 4) (n : Fin 4) (w : Word), s.accepts lvl (0xC04C + 0x1000 * n.val) (putBits w 0 0 1) 0xF ∧ getBits w 2 2 = 0 ∧ s.rd (F.AUD_CTRL_STOP n) = 0) ∧
    (∃ (s : State) (lvl : Fin 4) (n : Fin 4) (w : Word), s.accepts lvl (0xC04C + 0x1000 * n.val) (putBits w 2 2 1) 0xF) ∧
    (∃ (s : State) (lvl : Fin 4), s.accepts lvl 0xC084 1 0xF) ∧
    (∃ (s : State) (lvl : Fin 4) (n : Fin 4) (w : Word), s.accepts lvl (0xC048 + 0x1000 * n.val) w 0xF) ∧
    (∃ (s : State) (n : Fin 4) (p : Nat), p < 8 ∧ s.rd (F.AUD_STAT_RUN n) = 1) ∧
    (∃ (s : State) (n : Fin 4) (p : Nat), p < 8 ∧ s.rd (F.AUD_STAT_RUN n) = 0) :=
  ⟨⟨up, 0, 3, 0, acc (by decide +kernel)⟩,
   ⟨up.updAud 3 fun q => { q with staged := true }, 3, by decide +kernel⟩,
   ⟨up.wr (F.AUD_CTRL_STOP 3) 0, 0, 3, 0, acc (by decide +kernel), by decide +kernel⟩,
   ⟨up, 0, 3, 0, acc (by decide +kernel)⟩,
   ⟨up, 0, acc (by decide +kernel)⟩,
   ⟨up, 0, 3, 0, acc (by decide +kernel)⟩,
   ⟨up.wr (F.AUD_STAT_RUN 3) 1, 3, 0, by decide +kernel⟩,
   ⟨up.wr (F.AUD_STAT_RUN 3) 0, 3, 0, by decide +kernel⟩⟩

theorem witness_DatacastEvents :
    (∃ (s : State) (h : Fin 128) (b : AssyBlock), (s.en .data = false ∨ s.placed h = false ∨ b.src = 0 ∨ srcFits b.src (s.ham h).req.bearer (s.ham h).req.id1 = false ∨ (b.bad = true ∧ s.rd F.FEC_OUT_CFG_PASS_BAD = 0))) ∧
    (∃ (s : State) (h : Fin 128) (b : AssyBlock), s.busUp = true ∧ s.en .data = true ∧ s.placed h = true ∧ (s.ham h).aIn ≠ 0 ∧ srcFits b.src (s.ham h).req.bearer (s.ham h).req.id1 = true ∧ (b.bad = true → s.rd F.FEC_OUT_CFG_PASS_BAD = 1) ∧ b.intact = false) ∧
    (∃ (s : State) (h : Fin 128) (b : AssyBlock), s.busUp = true ∧ s.en .data = true ∧ s.placed h = true ∧ (s.ham h).aIn ≠ 0 ∧ srcFits b.src (s.ham h).req.bearer (s.ham h).req.id1 = true ∧ (b.bad = true → s.rd F.FEC_OUT_CFG_PASS_BAD = 1) ∧ b.intact = true ∧ (∀ a ∈ s.data.assy, a.hamper ≠ (h : Nat)) ∧ b.offset = 0 ∧ b.announced = none ∧ s.assySize h < b.bytes.length) ∧
    (∃ (s : State) (h : Fin 128) (b : AssyBlock), s.busUp = true ∧ s.en .data = true ∧ s.placed h = true ∧ (s.ham h).aIn ≠ 0 ∧ srcFits b.src (s.ham h).req.bearer (s.ham h).req.id1 = true ∧ (b.bad = true → s.rd F.FEC_OUT_CFG_PASS_BAD = 1) ∧ b.intact = true ∧ (∀ a ∈ s.data.assy, a.hamper ≠ (h : Nat)) ∧ b.offset = 0 ∧ b.announced = none ∧ b.bytes.length ≤ s.assySize h ∧ b.complete = false) ∧
    (∃ (s : State) (h : Fin 128) (b : AssyBlock), s.busUp = true ∧ s.en .data = true ∧ s.placed h = true ∧ (s.ham h).aIn ≠ 0 ∧ srcFits b.src (s.ham h).req.bearer (s.ham h).req.id1 = true ∧ (b.bad = true → s.rd F.FEC_OUT_CFG_PASS_BAD = 1) ∧ b.intact = true ∧ (∀ a ∈ s.data.assy, a.hamper ≠ (h : Nat)) ∧ b.offset = 0 ∧ b.announced = none ∧ b.bytes.length ≤ s.assySize h ∧ b.complete = true ∧ b.bcheck = 1) ∧
    (∃ (s : State), s.rd F.STORE_STAT_STATE = 1) ∧
    (∃ (s : State) (o : Obj), s.rd F.STORE_STAT_STATE ≠ 1 ∧ o.isCse = true) ∧
    (∃ (s : State), s.busUp = true) ∧
    (∃ (s : State), s.data.verify = .idle) ∧
    (∃ (s : State) (k : Bool) (now : Nat) (o : Obj) (r : List Obj), s.busUp = true ∧ s.data.verify = .running now ∧ s.data.envs = o :: r ∧ s.judge o now k = 0 ∧ o.type ≠ 1 ∧ s.envBasket o = none) ∧
    (∃ (s : State) (now : Nat) (o : Obj) (r : List Obj), s.busUp = true ∧ s.data.verify = .running now ∧ s.data.envs = o :: r ∧ s.judge o now true = 0 ∧ o.type = 1 ∧ s.data.burn = none ∧ o.action = 1) ∧
    (∃ (s : State) (now : Nat) (o : Obj) (r : List Obj), s.busUp = true ∧ s.data.verify = .running now ∧ s.data.envs = o :: r ∧ s.judge o now true = 11) ∧
    (∃ (s : State) (now : Nat) (o : Obj) (r : List Obj), ∃ n, s.busUp = true ∧ s.data.verify = .running now ∧ s.data.envs = o :: r ∧ s.judge o now true = n ∧ 1 ≤ n ∧ n ≠ 11) ∧
    (∃ (o : Obj), o.wellFormed = false) ∧
    (∃ (s : State) (o : Obj), o.wellFormed = true ∧ s.isRepeat o = true) ∧
    (∃ (s : State) (o : Obj), o.wellFormed = true ∧ s.isRepeat o = false ∧ (s.slot o.slot).active = none) ∧
    (∃ (s : State) (o : Obj), ∃ g key, o.wellFormed = true ∧ s.isRepeat o = false ∧ (s.slot o.slot).active = some (g, key) ∧ (s.slot o.slot).revoked = false ∧ s.on F.TIME_STAT_SET = false) ∧
    (∃ (s : State) (o : Obj) (now : Nat), ∃ g key, o.wellFormed = true ∧ s.isRepeat o = false ∧ (s.slot o.slot).active = some (g, key) ∧ (s.slot o.slot).revoked = false ∧ s.on F.TIME_STAT_SET = true ∧ now + s.rd F.DATA_CFG_TOL_S < o.notBefore) ∧
    (∃ (s : State) (o : Obj) (now : Nat), ∃ g key, o.wellFormed = true ∧ s.isRepeat o = false ∧ (s.slot o.slot).active = some (g, key) ∧ (s.slot o.slot).revoked = false ∧ s.on F.TIME_STAT_SET = true ∧ o.notBefore ≤ now + s.rd F.DATA_CFG_TOL_S ∧ o.notAfter + s.rd F.DATA_CFG_TOL_S < now) ∧
    (∃ (s : State) (o : Obj) (now : Nat), ∃ g key, o.wellFormed = true ∧ s.isRepeat o = false ∧ (s.slot o.slot).active = some (g, key) ∧ (s.slot o.slot).revoked = false ∧ s.on F.TIME_STAT_SET = true ∧ o.notBefore ≤ now + s.rd F.DATA_CFG_TOL_S ∧ now ≤ o.notAfter + s.rd F.DATA_CFG_TOL_S ∧ o.seq ≤ s.highWater o.slot) ∧
    (∃ (s : State) (t : EnvTag) (o : Obj) (r : List Obj), s.busUp = true ∧ s.data.verify = .commit t ∧ s.data.envs = o :: r ∧ o.type ≠ 1) ∧
    (∃ (s : State), s.data.burn = none) ∧
    (∃ (s : State) (k : Nat) (b : Burn), s.busUp = true ∧ k < 8 ∧ s.data.burn = some b ∧ s.data.verify = .idle) ∧
    (∃ (s : State) (t : EnvTag) (o : Obj) (r : List Obj) (k : Nat) (g : Nat) (key : List Nat), s.busUp = true ∧ k < 8 ∧ s.data.burn = some (.key k g key) ∧ s.data.verify = .commit t ∧ s.data.envs = o :: r ∧ t.type = 1) ∧
    (∃ (s : State), s.busUp = true ∧ s.rd F.DATA_NTC_INFO_VALID = 0) ∧
    (∃ (s : State), s.busUp = true ∧ s.rd F.DATA_NTC_INFO_VALID = 1) :=
  ⟨⟨up, 127, { assyB with src := 0 }, by decide +kernel⟩,
   ⟨((placedOn (chain 1 0 0) (fun h => { h with aIn := 1, req := { h.req with bearer := 2 } }) up)).wr (F.PAGE_EN .data 0) 1, 127, { assyB with intact := false }, by decide +kernel⟩,
   ⟨((placedOn (chain 1 0 0) (fun h => { h with aIn := 1, req := { h.req with bearer := 2 } }) up)).wr (F.PAGE_EN .data 0) 1, 127, { assyB with bytes := List.replicate 1025 0 }, by decide +kernel⟩,
   ⟨((placedOn (chain 1 0 0) (fun h => { h with aIn := 1, req := { h.req with bearer := 2 } }) up)).wr (F.PAGE_EN .data 0) 1, 127, { assyB with bytes := List.replicate 1024 0 }, by decide +kernel⟩,
   ⟨((placedOn (chain 1 0 0) (fun h => { h with aIn := 1, req := { h.req with bearer := 2 } }) up)).wr (F.PAGE_EN .data 0) 1, 127, { assyB with bytes := List.replicate 1024 0, complete := true }, by decide +kernel⟩,
   ⟨up.wr F.STORE_STAT_STATE 1, by decide +kernel⟩,
   ⟨up.wr F.STORE_STAT_STATE 2, env0, by decide +kernel⟩,
   ⟨up, by decide +kernel⟩,
   ⟨putData (fun q => { q with verify := .idle }) up, by decide +kernel⟩,
   ⟨verifying env9 key0, true, 0, env9, [], by decide +kernel⟩,
   ⟨verifying env1 key1, 0, env1, [], by decide +kernel⟩,
   ⟨putData (fun d => { d with store := [stored], hwm := [(0, 7)] }) (verifying env0 key0), 0, env0, [], by decide +kernel⟩,
   ⟨putData (fun d => { d with otp := [] }) (verifying env0 key0), 0, env0, [], 2, by decide +kernel⟩,
   ⟨{ env0 with data := [] }, by decide +kernel⟩,
   ⟨putData (fun d => { d with store := [stored], hwm := [(0, 7)] }) (verifying env0 key0), env0, by decide +kernel⟩,
   ⟨up, env0, by decide +kernel⟩,
   ⟨(verifying env0 key0).wr F.TIME_STAT_SET 0, env0, 0, key0, by decide +kernel⟩,
   ⟨verifying env0 key0, { env0 with data := env0.data.take 16 ++ List.replicate 12 255 ++ env0.data.drop 28 }, 0, 0, key0, by decide +kernel⟩,
   ⟨verifying env0 key0, env0, 10000, 0, key0, by decide +kernel⟩,
   ⟨putData (fun d => { d with hwm := [(0, 7)] }) (verifying env0 key0), env0, 0, 0, key0, by decide +kernel⟩,
   ⟨putData (fun d => { d with verify := .commit env0.tag, envs := [env0] }) up, env0.tag, env0, [], by decide +kernel⟩,
   ⟨putData (fun q => { q with burn := none }) up, by decide +kernel⟩,
   ⟨putData (fun q => { q with verify := .idle, burn := some (.lock 7) }) up, 7, .lock 7, by decide +kernel⟩,
   ⟨putData (fun q => { q with envs := [env0], verify := .commit { env0.tag with type := 1 }, burn := some (.key 7 3 key0) }) up, { env0.tag with type := 1 }, env0, [], 7, 3, key0, by decide +kernel⟩,
   ⟨up.wr F.DATA_NTC_INFO_VALID 0, by decide +kernel⟩,
   ⟨up.wr F.DATA_NTC_INFO_VALID 1, by decide +kernel⟩⟩

theorem witness_DatacastWrites :
    (∃ (s : State) (lvl : Fin 4) (w : Word), s.accepts lvl 0x53100 (putBits w 1 0 1) 0xF) ∧
    (∃ (s : State) (lvl : Fin 4) (w : Word), s.accepts lvl 0x53100 (putBits w 1 0 2) 0xF) ∧
    (∃ (s : State) (lvl : Fin 4) (w : Word), s.accepts lvl 0x53100 (putBits w 1 0 3) 0xF) ∧
    (∃ (lvl : Nat) (w : Word), lvl ≠ 0 ∧ getBits w 31 16 = 0x4F54 ∧ getBits w 1 0 ≠ 0) ∧
    (∃ (s : State) (lvl : Fin 4) (w : Word), s.accepts lvl 0x5308C w 0xF) ∧
    (∃ (s : State) (lvl : Fin 4) (w : Word), s.accepts lvl 0x53088 w 0xF) :=
  ⟨⟨withSlot [], 0, 0x4F540000, acc (by decide +kernel)⟩,
   ⟨withSlot [(0, { keys := [(0, key0)], lock := false, admin := false, revoked := false })], 0, 0x4F540000, acc (by decide +kernel)⟩,
   ⟨withSlot [], 0, 0x4F540700, acc (by decide +kernel)⟩,
   ⟨3, 0x4F540001, by decide +kernel⟩,
   ⟨putData (fun d => { d with store := [stored] }) (up.wr F.STORE_STAT_STATE 2), 0, 1, acc (by decide +kernel)⟩,
   ⟨up, 0, 0, acc (by decide +kernel)⟩⟩

theorem witness_StoreEvents :
    (∃ (s : State), (s.rd F.STORE_STAT_STATE ≠ 1 ∨ s.en .store = false)) ∧
    (∃ (s : State), s.busUp = true ∧ s.rd F.STORE_STAT_STATE = 1 ∧ s.en .store = true ∧ s.data.store = [] ∧ s.data.waiting = [] ∧ s.data.torn = false) ∧
    (∃ (s : State) (r : MountResult) (c : Nat), s.busUp = true ∧ s.rd F.STORE_STAT_STATE = 1 ∧ s.en .store = true ∧ s.data.waiting = [] ∧ (r = .noDevice ∧ c = 0 ∨ (∃ mib, r = .noJournal mib) ∧ c = 3 ∨ r = .failed ∧ c = 4 ∨ r = .otherKey ∧ c = 5)) ∧
    (∃ (s : State), s.data.writes = []) ∧
    (∃ (s : State) (b : Nat) (o : Obj) (r : List (Nat × Obj)), s.busUp = true ∧ b < 16 ∧ s.data.writes = (b, o) :: r ∧ s.rd F.STORE_STAT_STATE = 2 ∧ s.mgmtDenied storeAccess = none) ∧
    (∃ (s : State) (b : Nat) (o : Obj) (r : List (Nat × Obj)), s.busUp = true ∧ s.data.writes = (b, o) :: r ∧ s.rd F.STORE_STAT_STATE = 2 ∧ (s.mgmtDenied storeAccess).isSome = true) ∧
    (∃ (s : State), s.data.cmd = none) ∧
    (∃ (s : State) (c : StoreCmd), s.busUp = true ∧ s.data.cmd = some c ∧ s.en .store = true ∧ c.op = 1 ∧ s.data.store.find? (fun x => decide (x.num = c.arg)) = none) ∧
    (∃ (s : State) (c : StoreCmd), ∃ x, s.busUp = true ∧ s.data.cmd = some c ∧ s.en .store = true ∧ c.op = 1 ∧ s.data.store.find? (fun x => decide (x.num = c.arg)) = some x) ∧
    (∃ (s : State) (c : StoreCmd), ∃ x, s.busUp = true ∧ s.data.cmd = some c ∧ s.en .store = true ∧ c.op = 2 ∧ s.data.store.find? (fun x => decide (x.basket = c.basket) && decide (c.arg ≤ x.num)) = some x) ∧
    (∃ (s : State) (c : StoreCmd), ∃ x, s.busUp = true ∧ s.data.cmd = some c ∧ s.en .store = true ∧ c.op = 3 ∧ s.data.store.find? (fun x => decide (x.num = c.arg)) = some x ∧ s.writingBlocks x.basket = 0) ∧
    (∃ (s : State) (c : StoreCmd), s.busUp = true ∧ s.data.cmd = some c ∧ s.en .store = true ∧ c.op = 4 ∧ c.arg = 1 ∧ s.mgmtDenied storeAccess = none ∧ s.writingBlocks c.basket = 0) ∧
    (∃ (s : State) (c : StoreCmd), s.busUp = true ∧ s.data.cmd = some c ∧ s.en .store = true ∧ c.op = 5 ∧ s.data.writes = []) ∧
    (∃ (c : Nat), c < 8) ∧
    (∃ (s : State), s.busUp = true ∧ s.data.fails < 7) ∧
    (∃ (s : State), s.busUp = true ∧ 7 ≤ s.data.fails ∧ s.rd F.STORE_STAT_STATE ≠ 4 ∧ s.data.cmd = none) :=
  ⟨⟨up.wr F.STORE_STAT_STATE 0, by decide +kernel⟩,
   ⟨putData (fun q => { q with torn := false }) (putData (fun q => { q with waiting := [] }) (putData (fun q => { q with store := [] }) ((up.wr F.STORE_STAT_STATE 1).wr (F.PAGE_EN .store 0) 1))), by decide +kernel⟩,
   ⟨putData (fun q => { q with waiting := [] }) ((up.wr F.STORE_STAT_STATE 1).wr (F.PAGE_EN .store 0) 1), MountResult.noDevice, 0, by decide +kernel⟩,
   ⟨putData (fun q => { q with writes := [] }) up, by decide +kernel⟩,
   ⟨putData (fun q => { q with writes := [(15, env0)] }) (up.wr F.STORE_STAT_STATE 2), 15, env0, [], by decide +kernel⟩,
   ⟨((putData (fun q => { q with writes := [(0, env0)] }) up).wr F.STORE_STAT_STATE 2).setReg 0x5808 0, 0, env0, [], by decide +kernel⟩,
   ⟨putData (fun q => { q with cmd := none }) up, by decide +kernel⟩,
   ⟨putData (fun q => { q with cmd := some (cmd 1) }) up, cmd 1, by decide +kernel⟩,
   ⟨putData (fun q => { q with cmd := some (cmd 1), store := [stored] }) up, cmd 1, stored, by decide +kernel⟩,
   ⟨putData (fun q => { q with cmd := some (cmd 2), store := [stored] }) up, cmd 2, stored, by decide +kernel⟩,
   ⟨putData (fun q => { q with cmd := some (cmd 3), store := [stored] }) up, cmd 3, stored, by decide +kernel⟩,
   ⟨putData (fun q => { q with cmd := some (cmd 4), store := [stored] }) up, cmd 4, by decide +kernel⟩,
   ⟨putData (fun q => { q with cmd := some (cmd 5), store := [stored] }) up, cmd 5, by decide +kernel⟩,
   ⟨0, by decide +kernel⟩,
   ⟨up, by decide +kernel⟩,
   ⟨putData (fun q => { q with fails := 7 }) up, by decide +kernel⟩⟩

theorem witness_StoreWrites :
    (∃ (s : State) (lvl : Fin 4) (w : Word) (op : Nat) (c : Instr), (op = 1 ∧ c = .storeRead lvl w ∨ op = 2 ∧ c = .storeNext lvl w ∨ op = 3 ∧ c = .storeDelete lvl w ∨ op = 4 ∧ c = .storeTrim lvl w ∨ op = 5 ∧ c = .storeFormat lvl w) ∧ s.accepts lvl 0xB048 (putBits w 31 28 op) 0xF) ∧
    (∃ (s : State) (w : Word), getBits w 31 28 = 1 ∧ s.on F.STORE_STAT_BUSY = true) ∧
    (∃ (s : State) (w : Word), getBits w 31 28 = 1 ∧ s.rd F.STORE_STAT_STATE ≠ 2) ∧
    (∃ (s : State) (w : Word), getBits w 31 28 = 1 ∧ s.on F.STORE_STAT_BUSY = false ∧ s.rd F.STORE_STAT_STATE = 2) ∧
    (∃ (w : Word) (op : Nat), op = getBits w 31 28 ∧ (op = 0 ∨ 6 ≤ op)) ∧
    (∃ (w : Word) (op : Nat), op = getBits w 31 28 ∧ op = 5 ∧ getBits w 23 16 ≠ 0xA5) ∧
    (∃ (w : Word) (op : Nat), op = getBits w 31 28 ∧ 1 ≤ op ∧ op ≤ 5 ∧ op ≠ 3 ∧ (op = 5 → getBits w 23 16 = 0xA5)) ∧
    (∃ (s : State) (lvl : Fin 4) (b : Fin 16) (w : Word), s.accepts lvl (0xB080 + 8 * b.val) w 0xF) ∧
    (∃ (s : State) (b : Nat), b < 16 ∧ s.quotaBlocks b < s.usedBlocks b ∧ s.on (F.STORE_BASKET_USAGE_OVER b) = false) :=
  ⟨⟨up.wr F.STORE_STAT_STATE 2, 0, 0x00A50000, 5, .storeFormat 0 0x00A50000, (.inr (.inr (.inr (.inr ⟨rfl, rfl⟩)))), acc (by decide +kernel)⟩,
   ⟨up.wr F.STORE_STAT_BUSY 1, 0x10000000, by decide +kernel⟩,
   ⟨up, 0x10000000, by decide +kernel⟩,
   ⟨(up.wr F.STORE_STAT_BUSY 0).wr F.STORE_STAT_STATE 2, 0x10000000, by decide +kernel⟩,
   ⟨0, 0, by decide +kernel⟩,
   ⟨0x50A40000, 5, by decide +kernel⟩,
   ⟨0x50A50000, 5, by decide +kernel⟩,
   ⟨up, 0, 15, 0, acc (by decide +kernel)⟩,
   ⟨putData (fun q => { q with store := [stored] }) up, 0, by decide +kernel⟩⟩

theorem witness_TimeSources :
    (∃ (s : State) (r : Bool), (s.busUp = false ∨ s.en .time = false ∨ s.on F.TIME_CFG_PPS_EN = false ∨ s.usesCascade = true ∨ r = s.on F.TIME_CFG_PPS_POL)) ∧
    (∃ (s : State) (r : Bool) (w : Fin 16) (t : Nat) (p : Nat), s.busUp = true ∧ s.en .time = true ∧ s.on F.TIME_CFG_PPS_EN = true ∧ s.usesCascade = false ∧ r ≠ s.on F.TIME_CFG_PPS_POL ∧ t = s.time.now - s.ppsLatency w ∧ s.time.prev = some p ∧ p + secUnit + 100000 * nsUnit < t) ∧
    (∃ (s : State) (r : Bool) (w : Fin 16) (t : Nat), s.busUp = true ∧ s.en .time = true ∧ s.on F.TIME_CFG_PPS_EN = true ∧ s.usesCascade = false ∧ r ≠ s.on F.TIME_CFG_PPS_POL ∧ t = s.time.now - s.ppsLatency w ∧ s.time.prev = none ∧ s.time.set2 = none) ∧
    (∃ (s : State) (r : Bool) (w : Fin 16) (t : Nat) (sec : Nat) (unc : Nat), s.busUp = true ∧ s.en .time = true ∧ s.on F.TIME_CFG_PPS_EN = true ∧ s.usesCascade = false ∧ r ≠ s.on F.TIME_CFG_PPS_POL ∧ t = s.time.now - s.ppsLatency w ∧ s.time.prev = none ∧ s.time.set2 = some (sec, unc)) ∧
    (∃ (t : Nat), 2 * (t % secUnit) < secUnit) ∧
    (∃ (t : Nat), secUnit ≤ 2 * (t % secUnit)) ∧
    (∃ (s : State) (e : Int) (k : Nat), k = (if s.time.prev.isSome && decide ((e - s.time.prevE).natAbs ≤ 1000) then s.time.run + 1 else 1) ∧ s.time.qual = false ∧ k < s.rd F.TIME_CFG_QUAL_EDGES) ∧
    (∃ (s : State), s.busUp = true ∧ s.en .time = true ∧ s.usesCascade = false ∧ (s.time.prev.isSome = true ∨ s.time.qual = true)) ∧
    (∃ (s : State), s.busUp = true ∧ s.en .time = true ∧ s.on F.TIME_CFG_CASC_EN = true ∧ s.usesCascade = true) ∧
    (∃ (s : State), s.busUp = true ∧ s.en .time = true ∧ s.rd F.SYS_STRAP_CASC_ROLE ≠ 0 ∧ s.usesCascade = true ∧ (s.time.prev.isSome = true ∨ s.time.qual = true)) ∧
    (∃ (s : State), s.rd F.TIME_STAT_SLEWING = 0) ∧
    (∃ (s : State), s.busUp = true ∧ s.rd F.TIME_STAT_SLEWING = 1) ∧
    (∃ (s : State), s.time.set2 = none) ∧
    (∃ (s : State), s.busUp = true ∧ s.time.set2.isSome = true) ∧
    (∃ (s : State), s.rd F.TIME_UTC_NEXT_EN = 0) ∧
    (∃ (s : State), s.busUp = true ∧ s.rd F.TIME_UTC_NEXT_EN = 1 ∧ s.rd F.TIME_UTC_AT_LO_SEC + s.rd F.TIME_UTC_AT_HI_SEC * 2 ^ 32 ≤ s.nowSec) ∧
    (∃ (s : State), s.rd F.TIME_STAT_STATE ≠ 3) ∧
    (∃ (s : State) (k : Nat), s.busUp = true ∧ s.rd F.TIME_STAT_STATE = 3 ∧ 24 + 10 * k ≤ s.rd F.PWR_TEMP_SYS_CENTRE ∧ s.rd F.PWR_TEMP_SYS_CENTRE < 34 + 10 * k ∧ k < 16) ∧
    (∃ (s : State), s.time.armed = false) ∧
    (∃ (s : State), s.busUp = true ∧ s.time.armed = true) ∧
    (∃ (s : State), s.rd F.TIME_ALARM_HI_EN = 0) ∧
    (∃ (s : State), s.busUp = true ∧ s.rd F.TIME_ALARM_HI_EN = 1 ∧ s.rd F.TIME_ALARM_LO_SEC + s.rd F.TIME_ALARM_HI_SEC * 2 ^ 32 ≤ s.nowSec) :=
  ⟨⟨up, false, by decide +kernel⟩,
   ⟨putTime (fun q => { q with now := 10 * secUnit }) (putTime (fun q => { q with prev := some 0 }) ((((up.wr F.SYS_PIN_FILT0_PPS_FLT 0)).wr (F.PAGE_EN .time 0) 1).wr F.TIME_CFG_PPS_EN 1)), true, 15, 10 * secUnit, 0, by decide +kernel⟩,
   ⟨putTime (fun q => { q with set2 := none }) (putTime (fun q => { q with prev := none }) ((up.wr (F.PAGE_EN .time 0) 1).wr F.TIME_CFG_PPS_EN 1)), true, 15, 0, by decide +kernel⟩,
   ⟨putTime (fun q => { q with set2 := some (5, 1) }) (putTime (fun q => { q with prev := none }) ((up.wr (F.PAGE_EN .time 0) 1).wr F.TIME_CFG_PPS_EN 1)), true, 15, 0, 5, 1, by decide +kernel⟩,
   ⟨0, by decide +kernel⟩,
   ⟨secUnit / 2, by decide +kernel⟩,
   ⟨((putTime (fun q => { q with qual := false }) up).wr F.TIME_CFG_QUAL_EDGES 2).wr F.TIME_CFG_QUAL_EDGES 3, 0, 1, by decide +kernel⟩,
   ⟨putTime (fun q => { q with qual := true }) (up.wr (F.PAGE_EN .time 0) 1), by decide +kernel⟩,
   ⟨(((up.wr (F.PAGE_EN .time 0) 1).wr F.TIME_CFG_CASC_EN 1).wr F.SYS_STRAP_CASC_ROLE 3).wr F.CASC_STAT_UP 1, by decide +kernel⟩,
   ⟨putTime (fun q => { q with qual := true }) (((up.wr (F.PAGE_EN .time 0) 1).wr F.SYS_STRAP_CASC_ROLE 1).wr F.CASC_STAT_UP 1), by decide +kernel⟩,
   ⟨up.wr F.TIME_STAT_SLEWING 0, by decide +kernel⟩,
   ⟨up.wr F.TIME_STAT_SLEWING 1, by decide +kernel⟩,
   ⟨putTime (fun q => { q with set2 := none }) up, by decide +kernel⟩,
   ⟨putTime (fun q => { q with set2 := some (0, 0) }) up, by decide +kernel⟩,
   ⟨up.wr F.TIME_UTC_NEXT_EN 0, by decide +kernel⟩,
   ⟨up.wr F.TIME_UTC_NEXT_EN 1, by decide +kernel⟩,
   ⟨up.wr F.TIME_STAT_STATE 0, by decide +kernel⟩,
   ⟨(up.wr F.TIME_STAT_STATE 3).wr F.PWR_TEMP_SYS_CENTRE 33, 0, by decide +kernel⟩,
   ⟨putTime (fun q => { q with armed := false }) up, by decide +kernel⟩,
   ⟨putTime (fun q => { q with armed := true }) up, by decide +kernel⟩,
   ⟨up.wr F.TIME_ALARM_HI_EN 0, by decide +kernel⟩,
   ⟨up.wr F.TIME_ALARM_HI_EN 1, by decide +kernel⟩⟩

theorem witness_TimeCommands :
    (∃ (s : State), s.answers = false) ∧
    (∃ (s : State) (lvl : Fin 4), s.answers = true ∧ s.reserved lvl 0x4040 = false ∧ s.mayAccess lvl (artIndex 0x4040) false = true ∧ s.rstBusy .time 0 = false) ∧
    (∃ (s : State) (lvl : Fin 4), s.answers = true ∧ s.reserved lvl 0x4040 = false ∧ s.mayAccess lvl (artIndex 0x4040) false = false) ∧
    (∃ (s : State) (lvl : Fin 4) (unc : BitVec 16), s.accepts lvl 0x406C (BitVec.ofNat 32 (unc.toNat * 0x100 + 1)) 0xF) ∧
    (∃ (s : State) (lvl : Fin 4) (unc : BitVec 16), s.accepts lvl 0x406C (BitVec.ofNat 32 (unc.toNat * 0x100 + 2)) 0xF) ∧
    (∃ (s : State) (lvl : Fin 4) (bank : Fin 2), s.accepts lvl 0x4090 (BitVec.ofNat 32 (2 ^ 31 + bank.val * 0x100)) 0xF ∧ s.rd F.TIME_STAT_ITIN_RUN = 0) ∧
    (∃ (s : State) (lvl : Fin 4), s.accepts lvl 0x4090 (BitVec.ofNat 32 (s.rd F.TIME_ITIN_CTRL_START_BANK * 0x100)) 0xF ∧ s.rd F.TIME_STAT_ITIN_RUN = 0) ∧
    (∃ (s : State) (lvl : Fin 4), s.accepts lvl 0x4090 (BitVec.ofNat 32 (s.rd F.TIME_ITIN_CTRL_START_BANK * 0x100)) 0xF ∧ s.rd F.TIME_STAT_ITIN_RUN = 1) ∧
    (∃ (s : State) (lvl : Fin 4), s.accepts lvl 0x4090 (BitVec.ofNat 32 (2 ^ 31 + s.rd F.TIME_ITIN_CTRL_START_BANK * 0x100 + 1)) 0xF ∧ s.rd F.TIME_STAT_ITIN_RUN = 1) ∧
    (∃ (s : State), s.rd F.TIME_STAT_ITIN_RUN = 0) ∧
    (∃ (s : State) (h : Nat), s.time.armed = false ∧ s.time.hold = some h ∧ s.time.now < h) ∧
    (∃ (s : State), s.busUp = true ∧ s.rd F.TIME_STAT_ITIN_RUN = 1 ∧ s.time.cycle < s.cycleAt s.itinBank s.time.now) ∧
    (∃ (s : State), s.busUp = true ∧ s.time.armed = false ∧ s.rd F.TIME_STAT_ITIN_RUN = 1 ∧ s.time.hold = none ∧ s.rd F.TIME_STAT_SWITCH_PEND = 0) ∧
    (∃ (s : State), s.busUp = true ∧ s.time.armed = false ∧ s.rd F.TIME_STAT_ITIN_RUN = 1 ∧ s.time.hold = none ∧ s.rd F.TIME_STAT_SWITCH_PEND = 1 ∧ s.time.cycle < s.cycleAt s.itinBank s.time.now) ∧
    (∃ (s : State) (e : Nat), s.entryAt s.itinBank s.time.now = some e ∧ e < 64 ∧ s.memT.badItin.contains (64 * s.itinBank + e) = false ∧ s.mgmtDenied stateTask = none) ∧
    (∃ (s : State) (e : Nat), s.entryAt s.itinBank s.time.now = some e ∧ e < 64 ∧ s.memT.badItin.contains (64 * s.itinBank + e) = false ∧ (s.mgmtDenied stateTask).isSome = true ∧ s.rd F.PWR_STATE_STAT_ITIN_REQ ≠ s.itinPower s.itinBank e) :=
  ⟨⟨State.reset, by decide +kernel⟩,
   ⟨up, 0, by decide +kernel⟩,
   ⟨up.setReg 0x5804 0, 1, by decide +kernel⟩,
   ⟨up, 0, 0, acc (by decide +kernel)⟩,
   ⟨up, 0, 0, acc (by decide +kernel)⟩,
   ⟨(up.wr F.TIME_STAT_SET 1).wr (F.TIME_LEN 1) 1, 0, 1, acc (by decide +kernel), by decide +kernel⟩,
   ⟨up.wr F.TIME_STAT_ITIN_RUN 0, 0, acc (by decide +kernel), by decide +kernel⟩,
   ⟨up.wr F.TIME_STAT_ITIN_RUN 1, 0, acc (by decide +kernel), by decide +kernel⟩,
   ⟨(up.wr F.TIME_STAT_ITIN_RUN 1).wr (F.TIME_LEN 1) 1, 0, acc (by decide +kernel), by decide +kernel⟩,
   ⟨up.wr F.TIME_STAT_ITIN_RUN 0, by decide +kernel⟩,
   ⟨putTime (fun q => { q with hold := some 1 }) (putTime (fun q => { q with armed := false }) up), 1, by decide +kernel⟩,
   ⟨putTime (fun q => { q with cycle := -1 }) (up.wr F.TIME_STAT_ITIN_RUN 1), by decide +kernel⟩,
   ⟨(putTime (fun q => { q with hold := none }) ((putTime (fun q => { q with armed := false }) up).wr F.TIME_STAT_ITIN_RUN 1)).wr F.TIME_STAT_SWITCH_PEND 0, by decide +kernel⟩,
   ⟨putTime (fun q => { q with cycle := -1 }) ((putTime (fun q => { q with hold := none }) ((putTime (fun q => { q with armed := false }) up).wr F.TIME_STAT_ITIN_RUN 1)).wr F.TIME_STAT_SWITCH_PEND 1), by decide +kernel⟩,
   ⟨(up.wr (F.TIME_LEN 0) 1).wr (F.TIME_ITIN0_DUR_US 0) 1000, 0, by decide +kernel⟩,
   ⟨(((up.wr (F.TIME_LEN 0) 1).wr (F.TIME_ITIN0_DUR_US 0) 1000).wr F.PWR_STATE_STAT_ITIN_REQ 3).setReg 0x5800 0, 0, by decide +kernel⟩⟩

theorem witness_QueueAdmission :
    (∃ (s : State) (n : Fin 128), (s.sched.items.find? fun i => decide (i.hamper = (n : Nat))) = none) ∧
    (∃ (s : State) (n : Fin 128) (i : Item) (p : Packet), s.busUp = true ∧ (s.sched.items.find? fun i => decide (i.hamper = (n : Nat))) = some i ∧ (s.queue n).live = true ∧ i.payload.length ≤ 65535 ∧ s.on (F.SCHED_QCFG_GATE_ADMIT n) = false ∧ s.on (F.SCHED_QSTAT0_OVER n) = false ∧ p = s.packetOf n i ∧ (s.queue n).used + 4 * p.size ≤ s.quota n ∧ i.ok = true ∧ (s.qRate n = 0 ∨ 32 * p.size ≤ (s.queue n).credit)) ∧
    (∃ (s : State) (n : Fin 128) (i : Item) (p : Packet), s.busUp = true ∧ (s.sched.items.find? fun i => decide (i.hamper = (n : Nat))) = some i ∧ (s.queue n).live = true ∧ i.payload.length ≤ 65535 ∧ s.on (F.SCHED_QCFG_GATE_ADMIT n) = false ∧ s.on (F.SCHED_QSTAT0_OVER n) = false ∧ p = s.packetOf n i ∧ s.quota n < (s.queue n).used + 4 * p.size) ∧
    (∃ (s : State) (n : Fin 128) (i : Item) (p : Packet), s.busUp = true ∧ (s.sched.items.find? fun i => decide (i.hamper = (n : Nat))) = some i ∧ (s.queue n).live = true ∧ i.payload.length ≤ 65535 ∧ s.on (F.SCHED_QCFG_GATE_ADMIT n) = false ∧ s.on (F.SCHED_QSTAT0_OVER n) = false ∧ p = s.packetOf n i ∧ (s.queue n).used + 4 * p.size ≤ s.quota n ∧ 0 < s.qRate n ∧ (s.queue n).credit < 32 * p.size) ∧
    (∃ (s : State) (n : Fin 128), ((s.queue n).live = false ∨ s.qRate n = 0)) ∧
    (∃ (s : State) (n : Fin 128), (s.queue n).live = true ∧ 0 < s.qRate n ∧ s.busUp = true) ∧
    (∃ (s : State) (lvl : Fin 4) (n : Fin 128), s.accepts lvl 0x904C (BitVec.ofNat 32 (0x10000000 + n.val * 0x10000)) 0xF) ∧
    (∃ (s : State), s.sched.trim = none) ∧
    (∃ (s : State) (n : Nat) (k : Nat), s.busUp = true ∧ s.sched.trim = some (n, k)) ∧
    (∃ (s : State) (lvl : Fin 4) (n : Fin 128), s.accepts lvl 0x904C (BitVec.ofNat 32 (0x20000000 + n.val * 0x10000)) 0xF) ∧
    (∃ (s : State) (lvl : Fin 4), s.accepts lvl 0x904C 0x30000000 0xF) :=
  ⟨⟨up, 127, by decide +kernel⟩,
   ⟨queued 0 0 up, 127, item, (queued 0 0 up).packetOf 127 item, by decide +kernel⟩,
   ⟨putPlace (fun p => { p with live := Plan.init }) (queued 0 0 up), 127, item, (putPlace (fun p => { p with live := Plan.init }) (queued 0 0 up)).packetOf 127 item, by decide +kernel⟩,
   ⟨queued 1 0 up, 127, item, (queued 1 0 up).packetOf 127 item, by decide +kernel⟩,
   ⟨up.updQueue 127 fun q => { q with live := false }, 127, by decide +kernel⟩,
   ⟨queued 1 0 up, 127, by decide +kernel⟩,
   ⟨queued 0 0 up, 0, 127, acc (by decide +kernel)⟩,
   ⟨putSched (fun q => { q with trim := none }) up, by decide +kernel⟩,
   ⟨putSched (fun q => { q with trim := some (0, 0) }) up, 0, 0, by decide +kernel⟩,
   ⟨queued 0 0 up, 0, 127, acc (by decide +kernel)⟩,
   ⟨up, 0, acc (by decide +kernel)⟩⟩

theorem witness_StreamPort :
    (∃ (s : State), (s.busUp = false ∨ s.on F.STRM_STAT_SENDING = true ∨ s.en .strm = false ∨ s.radio < 2 ∨ (bit s.sched.cfg 0 = true ∧ s.on F.STRM_STAT_READY = false) ∨ s.eligible = [])) ∧
    (∃ (s : State) (n : Nat) (p : Packet), n < 128 ∧ s.busUp = true ∧ s.on F.STRM_STAT_SENDING = false ∧ s.en .strm = true ∧ 2 ≤ s.radio ∧ (bit s.sched.cfg 0 = false ∨ s.on F.STRM_STAT_READY = true) ∧ s.chooseQueue = some n ∧ (s.queue n).next = some p) ∧
    (∃ (s : State) (n : Nat), s.chooseQueue = some n) ∧
    (∃ (s : State) (n : Nat), ∃ m, m ∈ s.eligible ∧ s.chooseQueue = some n) ∧
    (∃ (s : State) (n : Nat), s.rd F.SCHED_CFG_LAT_WARN_MS = 0 ∧ n < 128) ∧
    (∃ (s : State), s.on F.STRM_STAT_SENDING = false) ∧
    (∃ (s : State) (n : Nat) (p : Packet), s.busUp = true ∧ s.on F.STRM_STAT_SENDING = true ∧ s.rd F.STRM_STAT_QUEUE = n ∧ (s.queue n).next = some p) ∧
    (∃ (p : Packet), p.sent = false ∧ p.drop = false) ∧
    (∃ (ws : List Nat) (i : Nat), i < ws.length ∧ ws.getD i 0 < 2 ^ 32) ∧
    (∃ (ws : List Nat) (i : Nat), ∃ k, i < ws.length ∧ ws.getD i 0 < 2 ^ 32 ∧ k < 8) ∧
    (∃ (s : State), (s.on F.STRM_STAT_SENDING = false ∨ s.sched.wait = true)) ∧
    (∃ (s : State), s.busUp = true) ∧
    (∃ (s : State), (s.on F.STRM_STAT_SENDING = false ∨ bit s.sched.cfg 0 = false ∨ s.on F.STRM_STAT_READY = true)) ∧
    (∃ (s : State), s.busUp = true ∧ s.on F.STRM_STAT_SENDING = true ∧ bit s.sched.cfg 0 = true ∧ s.on F.STRM_STAT_READY = false) ∧
    (∃ (s : State), (s.sched.cfgDue = false ∨ s.on F.STRM_STAT_SENDING = true)) ∧
    (∃ (s : State), s.busUp = true ∧ s.sched.cfgDue = true ∧ s.on F.STRM_STAT_SENDING = false) :=
  ⟨⟨up, by decide +kernel⟩,
   ⟨putSched (fun q => { q with cfg := 0 }) ((placedOn (chain 1 0 0) (fun h => { h with req := { h.req with dest := 0x10000 } }) ((rx.wr (F.PAGE_EN .sched 0) 1).wr (F.PAGE_EN .strm 0) 1)).updQueue 127 fun q => { q with live := true, pkts := [packet] }), 127, packet, by decide +kernel⟩,
   ⟨((placedOn (chain 1 0 0) (fun h => { h with req := { h.req with dest := 0x10000 } }) ((rx.wr (F.PAGE_EN .sched 0) 1).wr (F.PAGE_EN .strm 0) 1)).updQueue 127 fun q => { q with live := true, pkts := [packet] }), 127, by decide +kernel⟩,
   ⟨((placedOn (chain 1 0 0) (fun h => { h with req := { h.req with dest := 0x10000 } }) ((rx.wr (F.PAGE_EN .sched 0) 1).wr (F.PAGE_EN .strm 0) 1)).updQueue 127 fun q => { q with live := true, pkts := [packet] }), 127, 127, by decide +kernel⟩,
   ⟨up.wr F.SCHED_CFG_LAT_WARN_MS 0, 0, by decide +kernel⟩,
   ⟨up.wr F.STRM_STAT_SENDING 0, by decide +kernel⟩,
   ⟨(((placedOn (chain 1 0 0) (fun h => { h with req := { h.req with dest := 0x10000 } }) ((rx.wr (F.PAGE_EN .sched 0) 1).wr (F.PAGE_EN .strm 0) 1)).updQueue 127 fun q => { q with live := true, pkts := [packet] }).wr F.STRM_STAT_SENDING 1).wr F.STRM_STAT_QUEUE 127, 127, packet, by decide +kernel⟩,
   ⟨packet, by decide +kernel⟩,
   ⟨[5], 0, by decide +kernel⟩,
   ⟨[5], 0, 7, by decide +kernel⟩,
   ⟨up.wr F.STRM_STAT_SENDING 0, by decide +kernel⟩,
   ⟨up, by decide +kernel⟩,
   ⟨up.wr F.STRM_STAT_SENDING 0, by decide +kernel⟩,
   ⟨(up.wr F.STRM_STAT_SENDING 1).wr F.STRM_STAT_READY 0, by decide +kernel⟩,
   ⟨putSched (fun q => { q with cfgDue := false }) up, by decide +kernel⟩,
   ⟨(putSched (fun q => { q with cfgDue := true }) up).wr F.STRM_STAT_SENDING 0, by decide +kernel⟩⟩

theorem witness_ProbeCommands :
    (∃ (s : State), s.rd F.PROBE_CMD_GO = 0) ∧
    (∃ (s : State), s.rd F.PROBE_CMD_GO = 0) ∧
    (∃ (s : State) (lvl : Fin 4), s.accepts lvl 0x14054 1 0xF) ∧
    (∃ (s : State), ¬(s.radio = 3 ∧ s.pwr.trans = none)) ∧
    (∃ (s : State) (lvl : Fin 4), s.accepts lvl 0x14054 2 0xF ∧ s.rd F.PROBE_STAT_STATE ≠ 0) ∧
    (∃ (s : State) (lvl : Fin 4), s.accepts lvl 0x14054 2 0xF ∧ s.rd F.PROBE_STAT_STATE = 0) ∧
    (∃ (s : State) (l : Option Int), ∃ x, s.busUp = true ∧ s.rd F.PROBE_CMD_GO = 1 ∧ s.rd F.PROBE_STAT_STATE = 2 ∧ s.rd F.PROBE_CFG_MODE ≠ 1 ∧ l = some x ∧ ofField 16 (s.rd F.PROBE_OCC_THR_DBM) ≤ x) ∧
    (∃ (s : State) (l : Option Int), s.busUp = true ∧ s.rd F.PROBE_CMD_GO = 1 ∧ s.rd F.PROBE_STAT_STATE = 2 ∧ (s.rd F.PROBE_CFG_MODE = 1 ∨ l = none) ∧ s.pwr.trans = none) ∧
    (∃ (s : State) (p : Nat), s.busUp = true ∧ s.rd F.PROBE_CMD_GO = 1 ∧ s.rd F.PROBE_STAT_STATE = 3 ∧ s.rd F.PROBE_STAT_POINT = p ∧ s.probe.cal = false) ∧
    (∃ (s : State) (p : Nat), s.rd F.PROBE_SWEEP_POINTS ≤ p) ∧
    (∃ (s : State) (pow : Powers) (p : Nat), p < s.rd F.PROBE_SWEEP_POINTS ∧ s.occupied pow p = false ∧ s.radio = 4) ∧
    (∃ (s : State), s.radio = 4 ∧ s.pwr.trans = none ∧ s.probe.cal = false) ∧
    (∃ (s : State) (b : List SpecBin), s.busUp = true ∧ s.rd F.PROBE_CMD_GO = 1 ∧ s.rd F.PROBE_STAT_STATE = 3 ∧ b.any (s.overMask (s.rd F.PROBE_STAT_POINT)) = true) ∧
    (∃ (s : State) (b : List SpecBin), s.busUp = true ∧ s.rd F.PROBE_CMD_GO = 1 ∧ b.any (s.overMask (s.rd F.PROBE_STAT_POINT)) = false) ∧
    (∃ (s : State), s.busUp = true ∧ s.rd F.PROBE_CMD_GO = 1 ∧ 2 ≤ s.rd F.PROBE_STAT_STATE) ∧
    (∃ (s : State), s.busUp = true ∧ s.rd F.PROBE_CMD_GO = 1 ∧ (s.rd F.PROBE_STAT_STATE = 1 ∨ s.rd F.PROBE_STAT_STATE = 2) ∧ s.probe.cal = false ∧ s.pwr.trans = none ∧ s.radio ≠ 4) ∧
    (∃ (s : State) (r : Nat) (p : Nat), r < 8 ∧ s.rd F.PROBE_CMD_GO = 1 ∧ 2 ≤ s.rd F.PROBE_STAT_STATE ∧ s.rd F.PROBE_STAT_POINT = p ∧ s.radio = 4 ∧ s.pwr.trans = none ∧ s.probe.cal = false) ∧
    (∃ (s : State) (p : Nat) (b : SpecBin) (o : Nat) (l : Nat), s.binOffset p b = some o ∧ s.maskLimit o = some l) ∧
    (∃ (s : State) (k : Nat) (o : Nat) (l : Nat), k < 8 ∧ s.rd (F.PROBE_MASK_VALID k) = 1 ∧ s.rd (F.PROBE_MASK_OFS_KHZ k) * 1000 ≤ o ∧ (∀ m, m < 8 → m ≠ k → s.rd (F.PROBE_MASK_VALID m) = 0) ∧ l = s.rd (F.PROBE_MASK_LIMIT_DB k)) ∧
    (∃ (s : State) (n : Fin 24), s.busUp = true ∧ s.rd F.PROBE_CMD_GO = 1 ∧ s.rd F.PROBE_STAT_STATE = 3 ∧ s.laneBlocks [(n, 32767)] (s.rd F.PROBE_STAT_POINT) n = true) :=
  ⟨⟨up.wr F.PROBE_CMD_GO 0, by decide +kernel⟩,
   ⟨up.wr F.PROBE_CMD_GO 0, by decide +kernel⟩,
   ⟨(((rx.wr (F.PAGE_EN .probe 0) 1).wr (F.PAGE_EN .rfin 0) 0).wr F.PWR_STATE_STAT_TARGET 3).wr F.PROBE_START_HZ 100000000, 0, acc (by decide +kernel)⟩,
   ⟨up, by decide +kernel⟩,
   ⟨up.wr F.PROBE_STAT_STATE 1, 0, acc (by decide +kernel), by decide +kernel⟩,
   ⟨up.wr F.PROBE_STAT_STATE 0, 0, acc (by decide +kernel), by decide +kernel⟩,
   ⟨(((up.wr F.PROBE_CMD_GO 1).wr F.PROBE_STAT_STATE 2).wr F.PROBE_CFG_MODE 0).wr F.PROBE_OCC_THR_DBM 0, some 0, 0, by decide +kernel⟩,
   ⟨(putPwr (fun q => { q with trans := none }) (((up.wr F.PROBE_CMD_GO 1).wr F.PROBE_STAT_STATE 2).wr F.PROBE_CFG_MODE 1)).wr F.PROBE_CFG_MODE 1, none, by decide +kernel⟩,
   ⟨putProbe (fun q => { q with cal := false }) (((up.wr F.PROBE_CMD_GO 1).wr F.PROBE_STAT_STATE 3).wr F.PROBE_STAT_POINT 0), 0, by decide +kernel⟩,
   ⟨up, 64, by decide +kernel⟩,
   ⟨((up.wr F.PROBE_SWEEP_POINTS 1).wr F.PWR_STATE_STAT_STATE 4).wr F.PROBE_SWEEP_POINTS 1, [], 0, by decide +kernel⟩,
   ⟨putProbe (fun q => { q with cal := false }) (putPwr (fun q => { q with trans := none }) (up.wr F.PWR_STATE_STAT_STATE 4)), by decide +kernel⟩,
   ⟨(((((((((((up.wr F.PROBE_CFG_SHAPE 0).wr F.PROBE_START_HZ 100000000).setReg 0x14840 0x80000007).setReg 0x14844 0).setReg 0x14848 0).setReg 0x1484c 0).setReg 0x14850 0).setReg 0x14854 0).setReg 0x14858 0).setReg 0x1485c 0).wr F.PROBE_CMD_GO 1).wr F.PROBE_STAT_STATE 3, [{ close := false, lo := 1000000, hi := 1000000, level := 0 }], by decide +kernel⟩,
   ⟨up.wr F.PROBE_CMD_GO 1, [], by decide +kernel⟩,
   ⟨(up.wr F.PROBE_CMD_GO 1).wr F.PROBE_STAT_STATE 2, by decide +kernel⟩,
   ⟨putPwr (fun q => { q with trans := none }) (putProbe (fun q => { q with cal := false }) ((up.wr F.PROBE_CMD_GO 1).wr F.PROBE_STAT_STATE 1)), by decide +kernel⟩,
   ⟨putProbe (fun q => { q with cal := false }) (putPwr (fun q => { q with trans := none }) ((((up.wr F.PROBE_CMD_GO 1).wr F.PROBE_STAT_STATE 2).wr F.PROBE_STAT_POINT 0).wr F.PWR_STATE_STAT_STATE 4)), 0, 0, by decide +kernel⟩,
   ⟨(((((((((up.wr F.PROBE_CFG_SHAPE 0).wr F.PROBE_START_HZ 100000000).setReg 0x14840 0x80000007).setReg 0x14844 0).setReg 0x14848 0).setReg 0x1484c 0).setReg 0x14850 0).setReg 0x14854 0).setReg 0x14858 0).setReg 0x1485c 0, 0, { close := false, lo := 1000000, hi := 1000000, level := 0 }, 98990000, 7, by decide +kernel⟩,
   ⟨(((((((((up.wr F.PROBE_CFG_SHAPE 0).wr F.PROBE_START_HZ 100000000).setReg 0x14840 0x80000007).setReg 0x14844 0).setReg 0x14848 0).setReg 0x1484c 0).setReg 0x14850 0).setReg 0x14854 0).setReg 0x14858 0).setReg 0x1485c 0, 0, 98990000, 7, by decide +kernel⟩,
   ⟨(((((rx.wr (F.PAGE_EN .lane 23) 1).updLane 23 fun q => { q with run := true }).wr (F.LANE_FREQ_FREQ_HZ 23) 100000000).wr F.PROBE_START_HZ 100000000).wr F.PROBE_CMD_GO 1).wr F.PROBE_STAT_STATE 3, 23, by decide +kernel⟩⟩

theorem witness_CascadeEvents :
    (∃ (s : State) (p : Fin 2), s.portOn p = false) ∧
    (∃ (s : State) (p : Fin 2) (peer : Fin 4), s.busUp = true ∧ s.portOn p = true ∧ s.rd (F.CASC_LINK_STATE p) ≠ 2 ∧ s.peerWant p ≠ some peer.val) ∧
    (∃ (s : State) (p : Fin 2) (peer : Fin 4), s.busUp = true ∧ s.portOn p = true ∧ s.rd (F.CASC_LINK_STATE p) ≠ 2 ∧ s.peerWant p = some peer.val ∧ s.role = 0 ∧ (p : Nat) = 1) ∧
    (∃ (s : State) (p : Fin 2), s.busUp = true ∧ s.rd (F.CASC_LINK_STATE p) = 2) ∧
    (∃ (s : State) (p : Fin 2), s.busUp = true ∧ s.rd (F.CASC_LINK_STATE p) = 3) ∧
    (∃ (s : State) (p : Fin 2), s.busUp = true ∧ s.rd (F.CASC_LINK_STATE p) = 1) ∧
    (∃ (s : State) (p : Fin 2), s.rd (F.CASC_LINK_STATE p) = 2) ∧
    (∃ (s : State) (p : Nat), p < 2 ∧ s.role = 0 ∧ p = 0) ∧
    (∃ (s : State), s.rd F.CASC_TUN_STAT_BUSY = 0) ∧
    (∃ (s : State), s.busUp = true ∧ s.rd F.CASC_TUN_STAT_BUSY = 1 ∧ s.casc.tries < 3) ∧
    (∃ (s : State), s.busUp = true ∧ s.rd F.CASC_TUN_STAT_BUSY = 1 ∧ 3 ≤ s.casc.tries) ∧
    (∃ (s : State), s.busUp = true ∧ s.rd F.CASC_TUN_STAT_BUSY = 1 ∧ s.rd F.CASC_TUN_CMD_WRITE = 1) ∧
    (∃ (s : State), s.busUp = true ∧ s.rd F.CASC_TUN_STAT_BUSY = 1 ∧ s.rd F.CASC_TUN_CMD_WRITE = 0) ∧
    (∃ (r : Nat) (n : Nat), r < 8 ∧ n < 32) ∧
    (∃ (s : State), (s.answers = false ∨ s.role = 0 ∨ bit (s.rd F.CASC_STAT_UP) 0 = false)) ∧
    (∃ (s : State) (a : BitVec 24) (x : Facts) (w : Word), s.answers = true ∧ s.role ≠ 0 ∧ bit (s.rd F.CASC_STAT_UP) 0 = true ∧ s.boot ≠ .warm ∧ s.accepts 1 a.toNat w x.rfin ∧ (s.busWrite s 1 a.toNat w x).1.boot ≠ .warm) ∧
    (∃ (s : State) (a : BitVec 24) (x : Facts), s.answers = true ∧ s.role ≠ 0 ∧ bit (s.rd F.CASC_STAT_UP) 0 = true ∧ s.boot ≠ .warm ∧ (s.busRead s 1 a.toNat x.hits).1.boot ≠ .warm) ∧
    (∃ (s : State), s.role ≠ 0) ∧
    (∃ (s : State) (d : Fin 4), s.busUp = true ∧ s.role = 0 ∧ d ≠ 0 ∧ s.reaches d = true) ∧
    (∃ (s : State) (d : Fin 4) (k : Fin 8), s.busUp = true ∧ s.role = 0 ∧ d ≠ 0 ∧ s.reaches d = true ∧ s.rd (F.CASC_XREQ_DEV k) = d.val ∧ s.rd (F.CASC_XREQ_STATE k) = 1) ∧
    (∃ (s : State) (k : Fin 8), s.rd (F.CASC_XREQ_EN k) = 0) ∧
    (∃ (s : State) (k : Fin 8), s.busUp = true ∧ s.rd (F.CASC_XREQ_EN k) = 1 ∧ s.rd (F.CASC_XREQ_STATE k) = 2) ∧
    (∃ (s : State), s.busUp = true ∧ s.role ≠ 0 ∧ s.on F.CASC_STAT_MASTER_OK = true) ∧
    (∃ (s : State), (s.role = 0 ∨ s.on F.CASC_STAT_MASTER_OK = false)) ∧
    (∃ (s : State), s.busUp = true ∧ s.role ≠ 0 ∧ s.on F.CASC_STAT_MASTER_OK = true ∧ s.time.casc = false) :=
  ⟨⟨State.reset, 1, by decide +kernel⟩,
   ⟨up.wr (F.CASC_LINK_STATE 1) 0, 1, 3, by decide +kernel⟩,
   ⟨(((rx).wr (F.CASC_LINK_STATE 1) 0).wr F.CASC_CFG_PORT_EN 3).wr (F.CASC_LINK_STATE 1) 0, 1, 1, by decide +kernel⟩,
   ⟨up.wr (F.CASC_LINK_STATE 1) 2, 1, by decide +kernel⟩,
   ⟨up.wr (F.CASC_LINK_STATE 1) 3, 1, by decide +kernel⟩,
   ⟨up.wr (F.CASC_LINK_STATE 1) 1, 1, by decide +kernel⟩,
   ⟨up.wr (F.CASC_LINK_STATE 1) 2, 1, by decide +kernel⟩,
   ⟨up, 0, by decide +kernel⟩,
   ⟨up.wr F.CASC_TUN_STAT_BUSY 0, by decide +kernel⟩,
   ⟨up.wr F.CASC_TUN_STAT_BUSY 1, by decide +kernel⟩,
   ⟨putCasc (fun q => { q with tries := 3 }) (up.wr F.CASC_TUN_STAT_BUSY 1), by decide +kernel⟩,
   ⟨(up.wr F.CASC_TUN_STAT_BUSY 1).wr F.CASC_TUN_CMD_WRITE 1, by decide +kernel⟩,
   ⟨(up.wr F.CASC_TUN_STAT_BUSY 1).wr F.CASC_TUN_CMD_WRITE 0, by decide +kernel⟩,
   ⟨0, 0, by decide +kernel⟩,
   ⟨up, by decide +kernel⟩,
   ⟨(up.wr F.SYS_STRAP_CASC_ROLE 1).wr F.CASC_STAT_UP 1, 0x53088, facts, 0x800, by decide +kernel, by decide +kernel, by decide +kernel, by decide +kernel, acc (by decide +kernel), by decide +kernel⟩,
   ⟨(up.wr F.SYS_STRAP_CASC_ROLE 1).wr F.CASC_STAT_UP 1, 0, facts, by decide +kernel⟩,
   ⟨up.wr F.SYS_STRAP_CASC_ROLE 1, by decide +kernel⟩,
   ⟨up.wr F.CASC_STAT_REACH 8, 3, by decide +kernel⟩,
   ⟨((up.wr (F.CASC_XREQ_DEV 7) 3).wr (F.CASC_XREQ_STATE 7) 1).wr F.CASC_STAT_REACH 8, 3, 7, by decide +kernel⟩,
   ⟨up.wr (F.CASC_XREQ_EN 7) 0, 7, by decide +kernel⟩,
   ⟨(up.wr (F.CASC_XREQ_EN 7) 1).wr (F.CASC_XREQ_STATE 7) 2, 7, by decide +kernel⟩,
   ⟨(up.wr F.SYS_STRAP_CASC_ROLE 1).wr F.CASC_STAT_MASTER_OK 1, by decide +kernel⟩,
   ⟨up, by decide +kernel⟩,
   ⟨putTime (fun q => { q with casc := false }) ((up.wr F.SYS_STRAP_CASC_ROLE 1).wr F.CASC_STAT_MASTER_OK 1), by decide +kernel⟩⟩

theorem witness_CascadeWrites :
    (∃ (s : State) (lvl : Fin 4) (w : Word), s.accepts lvl 0x15060 (putBits w 31 31 1) 0xF ∧ s.rd F.CASC_TUN_CMD_GO = 0 ∧ s.reaches (getBits w 17 16) = true) ∧
    (∃ (s : State) (lvl : Fin 4) (w : Word), s.accepts lvl 0x15060 (putBits w 31 31 1) 0xF ∧ s.rd F.CASC_TUN_CMD_GO = 0 ∧ s.reaches (getBits w 17 16) = false) ∧
    (∃ (s : State) (lvl : Fin 4) (k : Fin 8) (w : Word), s.accepts lvl (0x150A0 + 4 * k.val) w 0xF) ∧
    (∃ (s : State), (∀ k, k < 8 → s.rd (F.CASC_XREQ_EN k) = 0)) ∧
    (∃ (s : State) (lvl : Fin 4) (i : Fin 4) (x : Facts), s.accepts lvl 0x15070 (BitVec.ofNat 32 (2 ^ 31 + i.val)) x.rfin ∧ s.rd F.CASC_CAL_CTRL_GO = 0) ∧
    (∃ (s : State) (r : Nat), r < 8 ∧ s.probe.cal = true) :=
  ⟨⟨(up.wr F.CASC_TUN_CMD_GO 0).wr F.CASC_STAT_REACH 8, 0, 0x00030000, acc (by decide +kernel), by decide +kernel⟩,
   ⟨up.wr F.CASC_TUN_CMD_GO 0, 0, 0x00030000, acc (by decide +kernel), by decide +kernel⟩,
   ⟨up, 0, 7, 0x01000100, acc (by decide +kernel)⟩,
   ⟨up, by decide +kernel⟩,
   ⟨((up.wr F.PROBE_CFG_MODE 2).wr F.PROBE_SWEEP_POINTS 1).wr (F.PAGE_EN .rfin 3) 1, 0, 3, facts, acc (by decide +kernel), by decide +kernel⟩,
   ⟨putProbe (fun q => { q with cal := true }) up, 0, by decide +kernel⟩⟩

theorem witness_MemoryTest :
    (∃ (s : State) (w : Fin 1638400), s.memT.single.contains w.val = false) ∧
    (∃ (s : State) (w : Fin 1638400), s.busUp = true ∧ s.poisoned w = false ∧ s.rd F.MEM_CFG_SCRUB_EN = 1) ∧
    (∃ (s : State) (w : Fin 1638400), s.poisoned w = true) ∧
    (∃ (s : State) (w : Fin 1638400), s.busUp = true ∧ s.poisoned w = false) ∧
    (∃ (hits : List MemHit) (w : Fin 1638400) (d : BitVec 64), portAWrite hits w = some d) ∧
    (∃ (hits : List MemHit) (w : Fin 1638400) (d : BitVec 64), portAWrite hits w = some d) ∧
    (∃ (s : State), (s.testOn = false ∨ s.memT.test.isSome = true)) ∧
    (∃ (s : State) (r : Nat), s.busUp = true ∧ s.testOn = true ∧ s.memT.test = none ∧ s.skipRegions s.memT.next = r ∧ s.mayAccess 3 80 false = true ∧ (s.mayAccess 3 80 true = true ∨ s.regionUsed r = true)) ∧
    (∃ (s : State) (r : Nat), s.busUp = true ∧ s.testOn = true ∧ s.memT.test = none ∧ s.skipRegions s.memT.next = r ∧ s.mayAccess 3 80 false = false) ∧
    (∃ (s : State), s.memT.test = none) ∧
    (∃ (s : State) (r : Nat), s.memT.test = some (r, true) ∧ s.memT.restoring = false ∧ s.memT.poison = [] ∧ s.busUp = true ∧ (∀ w, w ∈ s.memT.single → w / 512 ≠ r)) ∧
    (∃ (s : State) (r : Nat), s.memT.test = some (r, true) ∧ s.memT.restoring = false ∧ s.memT.poison = [] ∧ s.busUp = true ∧ (∀ w, w ∈ s.memT.single → w / 512 ≠ r) ∧ r < 3072) ∧
    (∃ (r : Nat), r < 3199) ∧
    (∃ (s : State) (r : Nat), s.memT.test = some (r, true) ∧ s.memT.restoring = false ∧ s.busUp = true) ∧
    (∃ (s : State) (r : Nat), s.memT.test = some (r, true) ∧ s.memT.restoring = true ∧ s.memT.restart = false ∧ s.busUp = true ∧ tget 0 s.memT.aborts r < 16) ∧
    (∃ (s : State) (r : Nat), s.memT.test = some (r, true) ∧ s.memT.restoring = true ∧ s.memT.restart = false ∧ s.busUp = true ∧ 16 ≤ tget 0 s.memT.aborts r) ∧
    (∃ (s : State) (b : Fin 50), s.busUp = true ∧ tget 0 s.memT.corr b ≤ s.rd F.MEM_CFG_CORR_WARN) ∧
    (∃ (s : State) (b : Fin 50), s.busUp = true ∧ s.rd F.MEM_CFG_CORR_WARN < tget 0 s.memT.corr b) ∧
    (∃ (s : State), s.busUp = true) ∧
    (∃ (s : State) (w : Nat), w < 48 * 32768 ∧ (tget [] s.memT.recent (w / 32768 / 12)).contains w = false ∧ s.rd F.MEM_CFG_FENCE_COUNT ≤ tget 0 s.memT.uncorr (w / 32768 / 12) + 1) :=
  ⟨⟨up, 1638399, by decide +kernel⟩,
   ⟨up.wr F.MEM_CFG_SCRUB_EN 1, 1638399, by decide +kernel⟩,
   ⟨putMemT (fun q => { q with poison := [3276799] }) up, 1638399, by decide +kernel⟩,
   ⟨up, 1638399, by decide +kernel⟩,
   ⟨[{ addr := BitVec.ofNat 24 (wordAddr 1638399), kind := .portA 5 }], 1638399, 5, by decide +kernel⟩,
   ⟨[{ addr := BitVec.ofNat 24 (wordAddr 1638399), kind := .portA 5 }], 1638399, 5, by decide +kernel⟩,
   ⟨State.reset, by decide +kernel⟩,
   ⟨((up.wr (F.PAGE_EN .mem 0) 1).wr F.MEM_CFG_TEST_EN 1), 3072, by decide +kernel⟩,
   ⟨((up.wr (F.PAGE_EN .mem 0) 1).wr F.MEM_CFG_TEST_EN 1).setReg 0x5850 0, 3072, by decide +kernel⟩,
   ⟨putMemT (fun q => { q with test := none }) up, by decide +kernel⟩,
   ⟨putMemT (fun q => { q with poison := [] }) (putMemT (fun q => { q with restoring := false }) (putMemT (fun q => { q with test := some (0, true) }) up)), 0, by decide +kernel⟩,
   ⟨putMemT (fun q => { q with poison := [] }) (putMemT (fun q => { q with restoring := false }) (putMemT (fun q => { q with test := some (0, true) }) up)), 0, by decide +kernel⟩,
   ⟨0, by decide +kernel⟩,
   ⟨putMemT (fun q => { q with restoring := false }) (putMemT (fun q => { q with test := some (0, true) }) up), 0, by decide +kernel⟩,
   ⟨putMemT (fun q => { q with restart := false }) (putMemT (fun q => { q with restoring := true }) (putMemT (fun q => { q with test := some (0, true) }) up)), 0, by decide +kernel⟩,
   ⟨putMemT (fun q => { q with aborts := [(0, 16)] }) (putMemT (fun q => { q with restart := false }) (putMemT (fun q => { q with restoring := true }) (putMemT (fun q => { q with test := some (0, true) }) up))), 0, by decide +kernel⟩,
   ⟨up, 49, by decide +kernel⟩,
   ⟨putMemT (fun q => { q with corr := [(49, 2 ^ 32)] }) up, 49, by decide +kernel⟩,
   ⟨up, by decide +kernel⟩,
   ⟨putMemT (fun q => { q with uncorr := [(3, 2 ^ 32)] }) up, 1572863, by decide +kernel⟩⟩

theorem witness_StepTakesTheFront :
    (∃ (s : State), s.pending = [] ∧ s.clk.xo = Xo.stable) ∧
    (∃ (s : State), s.pending = [] ∧ s.clk.xo ≠ Xo.stable) ∧
    (∃ (s : State) (u : Instr) (w : Instr) (rest : List Instr), s.pending = perCycle [u] (some w) ++ rest) :=
  ⟨⟨putClk (fun q => { q with xo := Xo.stable }) ({ up with pending := [] }), by decide +kernel⟩,
   ⟨State.reset, by decide +kernel⟩,
   ⟨{ up with pending := perCycle [.passStart] (some .intEdgeGapEnd) ++ [] }, .passStart, .intEdgeGapEnd, [], by decide +kernel⟩⟩

theorem witness_MisalignedAccess : ∃ (s : State) (a : BitVec 24), s.answers = true ∧ (bit a.toNat 0 = true ∨ bit a.toNat 1 = true) :=
  ⟨up, 1, by decide +kernel⟩

theorem witness_DeniedAccess :
    (∃ (s : State) (lvl : Fin 4) (a : BitVec 24), s.answers = true ∧ a.toNat % 4 = 0 ∧ s.reserved lvl a.toNat = false ∧ s.mayAccess lvl (artIndex a.toNat) true = false) ∧
    (∃ (s : State) (lvl : Fin 4) (a : BitVec 24), s.answers = true ∧ a.toNat % 4 = 0 ∧ s.reserved lvl a.toNat = false ∧ s.mayAccess lvl (artIndex a.toNat) false = false) :=
  ⟨⟨up, 2, 0, by decide +kernel⟩,
   ⟨up.setReg 0x5804 0, 1, 0x4040, by decide +kernel⟩⟩

theorem witness_ProbeTxTime : ∃ (s : State) (l : Option Int), s.busUp = true ∧ s.rd F.PROBE_CMD_GO = 1 ∧ s.rd F.PROBE_STAT_STATE = 2 ∧ s.rd F.PROBE_CFG_MODE = 2 ∧ (∀ x, l = some x → x < ofField 16 (s.rd F.PROBE_OCC_THR_DBM)) ∧ s.pwr.trans = none :=
  ⟨putPwr (fun q => { q with trans := none }) (((up.wr F.PROBE_CMD_GO 1).wr F.PROBE_STAT_STATE 2).wr F.PROBE_CFG_MODE 2), none, by decide +kernel, by decide +kernel, by decide +kernel, by decide +kernel, (fun x h => by cases h), by decide +kernel⟩

theorem witness_IrqSources :
    (∃ (g : Fin 16) (i : Nat) (t : PageType) (k : Nat), (pagesOfGroup g)[i]? = some (t, k)) ∧
    (∃ (g : Fin 16) (i : Nat), (pagesOfGroup g).length ≤ i) :=
  ⟨⟨14, 3, .data, 0, by decide +kernel⟩,
   ⟨15, 2, by decide +kernel⟩⟩

theorem witness_CreditRule :
    (∃ (n : Nat), n < 128) ∧
    (∃ (s : State) (n : Fin 128), s.busUp = true ∧ (s.queue n).live = true ∧ 0 < (s.ham n).req.rate / 0x10000) ∧
    (∃ (s : State) (n : Fin 128), (s.ham n).req.rate / 0x10000 = 0) ∧
    (∃ (s : State) (n : Fin 128) (i : Item), s.busUp = true ∧ (s.sched.items.find? fun i => decide (i.hamper = (n : Nat))) = some i ∧ (s.queue n).live = true ∧ i.payload.length ≤ 65535 ∧ s.on (F.SCHED_QCFG_GATE_ADMIT n) = false ∧ s.on (F.SCHED_QSTAT0_OVER n) = false ∧ (s.queue n).used + 4 * (s.packetOf n i).size ≤ s.quota n ∧ 0 < (s.ham n).req.rate / 0x10000 ∧ (s.queue n).credit ≤ s.qCap n ∧ s.qCap n < 32 * (s.packetOf n i).size) ∧
    (∃ (s : State) (n : Fin 128) (i : Item), s.busUp = true ∧ (s.sched.items.find? fun i => decide (i.hamper = (n : Nat))) = some i ∧ (s.queue n).live = true ∧ i.payload.length ≤ 65535 ∧ s.on (F.SCHED_QCFG_GATE_ADMIT n) = false ∧ s.on (F.SCHED_QSTAT0_OVER n) = false ∧ (s.queue n).used + 4 * (s.packetOf n i).size ≤ s.quota n ∧ (s.ham n).req.rate / 0x10000 = 0 ∧ i.ok = true) :=
  ⟨⟨0, by decide +kernel⟩,
   ⟨queued 1 0 up, 127, by decide +kernel⟩,
   ⟨up, 127, by decide +kernel⟩,
   ⟨queued 1 0 up, 127, item, by decide +kernel⟩,
   ⟨queued 0 0 up, 127, item, by decide +kernel⟩⟩

theorem witness_ResetState : ∃ (t : PageType) (i : Fin 24), i.val < t.map.2.1 ∧ t ≠ .hamper ∧ t ≠ .qw :=
  ⟨.lane, 23, by decide +kernel⟩

theorem witness_StepKeepsCanonical : ∃ (s : State), s.canonical :=
  ⟨State.reset, (⟨rfl, rfl⟩)⟩

theorem witness_ClusterEventsComplete :
    (∃ (s : State) (c : Fin 4), (s.clu c).unfencing = false ∧ (∀ n : Nat, n < 24 → (s.lane n).due = false)) ∧
    (∃ (s : State) (lvl : Fin 4) (mask : BitVec 4), s.accepts lvl 0x2064 (putBits (fieldWord F.PWR_CLUS_CTRL_UNFENCE mask.toNat) 0 0 (s.rd F.PWR_CLUS_CTRL_IDLE_OFF)) 0xF) :=
  ⟨⟨up.updClu 3 fun q => { q with unfencing := false }, 3, by decide +kernel⟩,
   ⟨up, 0, 0, acc (by decide +kernel)⟩⟩

theorem witness_StoreCommandsComplete :
    (∃ (s : State) (lvl : Fin 4) (w : Word), s.accepts lvl 0xB048 (putBits w 31 28 1) 0xF) ∧
    (∃ (s : State) (lvl : Fin 4) (w : Word), s.accepts lvl 0xB048 (putBits w 31 28 2) 0xF) ∧
    (∃ (s : State) (lvl : Fin 4) (w : Word), s.accepts lvl 0xB048 (putBits w 31 28 3) 0xF) ∧
    (∃ (s : State) (lvl : Fin 4) (w : Word), s.accepts lvl 0xB048 (putBits w 31 28 4) 0xF) ∧
    (∃ (s : State) (lvl : Fin 4) (w : Word), s.accepts lvl 0xB048 (putBits w 31 28 5) 0xF) ∧
    (∃ (s : State), (s.busUp = false ∨ s.data.cmd = none ∨ s.en .store = false)) ∧
    (∃ (s : State) (c : StoreCmd), s.busUp = true ∧ s.en .store = true ∧ s.data.cmd = some c ∧ c.op = 2) ∧
    (∃ (s : State) (c : StoreCmd), s.busUp = true ∧ s.en .store = true ∧ s.data.cmd = some c ∧ c.op = 5 ∧ s.data.writes = []) ∧
    (∃ (s : State), (s.busUp = false ∨ s.data.writes = [] ∨ s.rd F.STORE_STAT_STATE ≠ 2)) ∧
    (∃ (s : State) (b : Nat) (o : Obj) (r : List (Nat × Obj)), s.busUp = true ∧ s.data.writes = (b, o) :: r ∧ s.rd F.STORE_STAT_STATE = 2 ∧ s.mgmtDenied storeAccess = none) ∧
    (∃ (s : State), (s.busUp = false ∨ s.rd F.STORE_STAT_STATE ≠ 1 ∨ s.en .store = false)) ∧
    (∃ (s : State), s.busUp = true ∧ s.rd F.STORE_STAT_STATE = 1 ∧ s.en .store = true ∧ s.data.waiting = []) ∧
    (∃ (s : State) (final : Bool), (s.busUp = false ∨ final = false)) ∧
    (∃ (s : State), s.busUp = true ∧ s.data.fails < 7) ∧
    (∃ (s : State) (c : StoreCmd), s.busUp = true ∧ s.data.fails < 7 ∧ s.data.cmd = some c) :=
  ⟨⟨up.wr F.STORE_STAT_STATE 2, 0, 0, acc (by decide +kernel)⟩,
   ⟨up.wr F.STORE_STAT_STATE 2, 0, 0, acc (by decide +kernel)⟩,
   ⟨up.wr F.STORE_STAT_STATE 2, 0, 0, acc (by decide +kernel)⟩,
   ⟨up.wr F.STORE_STAT_STATE 2, 0, 0, acc (by decide +kernel)⟩,
   ⟨up.wr F.STORE_STAT_STATE 2, 0, 0x00A50000, acc (by decide +kernel)⟩,
   ⟨up, by decide +kernel⟩,
   ⟨putData (fun q => { q with cmd := some (cmd 2), store := [stored] }) up, cmd 2, by decide +kernel⟩,
   ⟨putData (fun q => { q with cmd := some (cmd 5) }) up, cmd 5, by decide +kernel⟩,
   ⟨up, by decide +kernel⟩,
   ⟨putData (fun q => { q with writes := [(15, env0)] }) (up.wr F.STORE_STAT_STATE 2), 15, env0, [], by decide +kernel⟩,
   ⟨up, by decide +kernel⟩,
   ⟨putData (fun q => { q with waiting := [] }) ((up.wr F.STORE_STAT_STATE 1).wr (F.PAGE_EN .store 0) 1), by decide +kernel⟩,
   ⟨up, false, by decide +kernel⟩,
   ⟨up, by decide +kernel⟩,
   ⟨putData (fun q => { q with cmd := some (cmd 1) }) up, (cmd 1), by decide +kernel⟩⟩

theorem witness_StoppedDomains :
    (∃ s : State, s.busUp = false) ∧
    (∃ s : State, s.rootOk = false) :=
  ⟨⟨State.reset, by decide +kernel⟩,
   ⟨State.reset, by decide +kernel⟩⟩

theorem witness_LaneDataPath :
    (∃ (d : DspSt) (k : Nat), d.count + 1 < k) ∧
    (∃ (d : DspSt) (k : Nat), k ≤ d.count + 1) ∧
    (∃ (d : DspSt) (k : Nat) (x : Smp) (y : Smp), k ≤ d.count + 1 ∧ (d.cic k x).2 = some y) ∧
    (∃ (k : Nat), 8 ≤ k ∧ k ≤ 64) ∧
    (∃ (n : Nat), 0 < n) ∧
    (∃ (x : Smp) (n : Nat), 0 < n ∧ -(2 ^ (n - 1) : Int) ≤ x.i ∧ x.i < 2 ^ (n - 1)) ∧
    (∃ (b : HbSt) (x : Smp) (y : Smp), (b.push x).2 = some y) ∧
    (∃ (d : DspSt) (f2 : Bool) (bank : BankSt) (x : Smp) (y : Smp), (d.fir f2 bank x).2 = some y) ∧
    (∃ (invalid : Bool), invalid = true) ∧
    (∃ (d : DspSt), d.jumped = true) ∧
    (∃ (d : DspSt), 0 < d.jumpLeft ∨ 0 < d.extraLeft) ∧
    (∃ (n : Nat), n < 24) :=
  ⟨⟨DspSt.init, 8, by decide +kernel⟩,
   ⟨dsp2, 8, by decide +kernel⟩,
   ⟨dsp2, 8, smp, ((dsp2.cic 8 smp).2.getD smp), by decide +kernel, (rfl)⟩,
   ⟨64, by decide +kernel⟩,
   ⟨1, by decide +kernel⟩,
   ⟨smp, 18, by decide +kernel⟩,
   ⟨hb2, smp, ((hb2.push smp).2.getD smp), (rfl)⟩,
   ⟨dsp2, true, BankSt.init, smp, ((dsp2.fir true BankSt.init smp).2.getD smp), (rfl)⟩,
   ⟨true, by decide +kernel⟩,
   ⟨dsp2, by decide +kernel⟩,
   ⟨dsp2, by decide +kernel⟩,
   ⟨0, by decide +kernel⟩⟩

theorem witness_SignalBalls :
    (∃ (s : State), s.ballsReset = true) ∧
    (∃ (s : State), s.ballsReset = true) ∧
    (∃ (s : State), s.ballsReset = true) ∧
    (∃ (s : State), s.ballsReset = true) ∧
    (∃ (s : State), s.ballsReset = false ∧ s.pins.gpioSleep = false) ∧
    (∃ (s : State), s.clk.xo = Xo.stable ∧ s.pwr.trans = some .standbyToSleep ∧ s.pwr.wakePend = 0) ∧
    (∃ (s : State), s.intPin = false ∧ s.on F.IRQ_INT_CFG_MODE = false) ∧
    (∃ (s : State), s.ball .alertN = .low) ∧
    (∃ (s : State), s.rd F.STRM_STAT_RUN = 0 ∧ s.rd F.STRM_STAT_SENDING = 0) ∧
    (∃ (s : State), s.boot = .held ∧ s.pins.porHeld = false ∧ s.pins.testEn = false) :=
  ⟨⟨State.reset, by decide +kernel⟩,
   ⟨State.reset, by decide +kernel⟩,
   ⟨State.reset, by decide +kernel⟩,
   ⟨State.reset, by decide +kernel⟩,
   ⟨putPins (fun q => { q with gpioSleep := false }) up, by decide +kernel⟩,
   ⟨putPwr (fun q => { q with wakePend := 0 }) (putPwr (fun q => { q with trans := some .standbyToSleep }) (putClk (fun q => { q with xo := Xo.stable }) up)), by decide +kernel⟩,
   ⟨(putTwi (fun q => { q with alertOwed := true }) up).wr F.TWI_ALERT_CFG_EN 1, by decide +kernel⟩,
   ⟨(putTwi (fun q => { q with alertOwed := true }) up).wr F.TWI_ALERT_CFG_EN 1, by decide +kernel⟩,
   ⟨(up.wr F.STRM_STAT_RUN 0).wr F.STRM_STAT_SENDING 0, by decide +kernel⟩,
   ⟨putPins (fun q => { q with testEn := false }) (putPins (fun q => { q with porHeld := false }) ({ up with boot := .held })), by decide +kernel⟩⟩

theorem witness_RadioCommandsComplete :
    (∃ (s : State) (i : Fin 4) (code : Nat) (zone : Nat), s.rootOk = true ∧ (s.rfi i).filtDue = some (code, zone) ∧ code < 4 ∧ zone = s.rd (F.RFIN_FILT_CTRL_ZONE2 i)) ∧
    (∃ (s : State), s.busUp = true) ∧
    (∃ (s : State) (i : Fin 4), s.busUp = true ∧ s.rd (F.RFIN_ANT_STAT_PWR i) = 1) ∧
    (∃ (s : State) (i : Fin 4), s.busUp = true ∧ (s.rfi i).retryDue = true) ∧
    (∃ (s : State) (lvl : Fin 4) (i : Fin 4) (w : Word), s.accepts lvl (0x100A0 + 0x1000 * i.val) (putBits w 2 2 1) 0xF) ∧
    (∃ (s : State) (n : Fin 24), s.rootOk = true ∧ s.clusOn (n / 6) = true ∧ s.laneExpert n = false ∧ (s.lane n).due = true ∧ s.rd (F.LANE_ASSIGN_PRESET n) ≠ 0 ∧ s.rate (s.rd (F.LANE_ASSIGN_INPUT n)) ≠ 0) ∧
    (∃ (s : State) (lvl : Fin 4) (n : Fin 24), s.accepts lvl (0x20428 + 0x1000 * n.val) 1 0xF) ∧
    (∃ (s : State) (lvl : Fin 4) (n : Fin 24), s.accepts lvl (0x20428 + 0x1000 * n.val) 2 0xF) ∧
    (∃ (s : State) (n : Fin 24), s.rootOk = true ∧ s.clusOn (n / 6) = true ∧ ((s.lane n).swapDue = true ∨ s.rd (F.LANE_X_APPLY_SWAP n) = 1)) ∧
    (∃ (s : State) (n : Fin 24), s.rootOk = true ∧ s.clusOn (n / 6) = true ∧ (s.lane n).delayDue = true) ∧
    (∃ (s : State) (n : Fin 24), s.rootOk = true ∧ s.clusOn (n / 6) = true ∧ s.rd (F.LANE_STAT_SLEWING n) = 1 ∧ s.rd (F.LANE_DELAY_NOW n) < s.rd (F.LANE_DELAY_TARGET n)) ∧
    (∃ (s : State) (who : DelayWriter), (∀ lvl : Fin 4, who ≠ .host lvl) ∧ s.rootOk = true) ∧
    (∃ (s : State) (n : Fin 24) (lim : Int), s.rootOk = true ∧ s.laneRunning n = true ∧ 1 ≤ (s.lane n).engine ∧ (s.lane n).engine < 17 ∧ (s.ofdmS ((s.lane n).engine - 1)).trimmed = false ∧ (s.lane n).chain.hold = false ∧ lim = ((s.lane n).chain.ratio / 1000 : Nat)) ∧
    (∃ (s : State) (n : Fin 24), s.rootOk = true ∧ (s.lane n).runMarked = true ∧ s.laneInterval n = false ∧ (s.lane n).dsp.unsettled (s.lane n).chain (s.rd (F.LANE_DELAY_NOW n)) = false) ∧
    (∃ (s : State), s.rootOk = true) ∧
    (∃ (s : State) (e : Fin 16) (w : AnaWin), s.rootOk = true ∧ s.engState (17 + e) = 1 ∧ w.counted = true ∧ (s.anaS e).det = 0) ∧
    (∃ (s : State) (e : Fin 16), s.rootOk = true ∧ s.engState (17 + e) = 1 ∧ (s.anaS e).timedOut = false) ∧
    (∃ (s : State) (e : Fin 16), s.rootOk = true ∧ 2 ≤ s.engState (17 + e)) ∧
    (∃ (s : State) (e : Fin 16) (b : RdsBlock), s.rootOk = true ∧ s.rdsOn e b.stream = true ∧ s.rd (F.ANA_ASSIGN_MODE e) = 1 ∧ 2 ≤ s.engState (17 + e) ∧ b.burst = 0 ∧ (tget RdsStream.init (s.anaS e).rds b.stream).sync = false ∧ ((tget RdsStream.init (s.anaS e).rds b.stream).seek.all fun c => !decide (c.bit + 26 = b.bit)) = true) :=
  ⟨⟨((rx).wr F.PWR_STATE_STAT_STATE 3).updRf 3 fun q => { q with filtDue := some (1, 0) }, 3, 1, 0, by decide +kernel⟩,
   ⟨up, by decide +kernel⟩,
   ⟨up.wr (F.RFIN_ANT_STAT_PWR 3) 1, 3, by decide +kernel⟩,
   ⟨up.updRf 3 fun q => { q with retryDue := true }, 3, by decide +kernel⟩,
   ⟨up, 0, 3, 0x640F0500, acc (by decide +kernel)⟩,
   ⟨(((((rx).wr F.PWR_STATE_STAT_STATE 3).wr (F.CLUS_STAT_POWER (23 / 6)) 4).wr (F.PAGE_LEVEL .lane 23) 0).updLane 23 fun q => { q with due := true }).wr (F.LANE_ASSIGN_PRESET 23) 1, 23, by decide +kernel⟩,
   ⟨((rx).wr (F.PAGE_LEVEL .lane 23) 1).wr (F.LANE_X_CHAIN_HB 23) 4, 0, 23, acc (by decide +kernel)⟩,
   ⟨up.wr (F.PAGE_LEVEL .lane 23) 1, 0, 23, acc (by decide +kernel)⟩,
   ⟨(((rx).wr F.PWR_STATE_STAT_STATE 3).wr (F.CLUS_STAT_POWER (23 / 6)) 4).updLane 23 fun q => { q with swapDue := true }, 23, by decide +kernel⟩,
   ⟨(((rx).wr F.PWR_STATE_STAT_STATE 3).wr (F.CLUS_STAT_POWER (23 / 6)) 4).updLane 23 fun q => { q with delayDue := true }, 23, by decide +kernel⟩,
   ⟨((((rx).wr F.PWR_STATE_STAT_STATE 3).wr (F.CLUS_STAT_POWER (23 / 6)) 4).wr (F.LANE_STAT_SLEWING 23) 1).wr (F.LANE_DELAY_TARGET 23) 5, 23, by decide +kernel⟩,
   ⟨(rx).wr F.PWR_STATE_STAT_STATE 3, .engine, by decide +kernel⟩,
   ⟨((((((rx).wr F.PWR_STATE_STAT_STATE 3).updLane 23 fun q => { q with engine := 1 }).wr (F.PAGE_EN .lane 23) 1).updLane 23 fun q => { q with run := true }).updLane 23 fun q => { q with engine := 1 }).updLane 23 fun q => { q with chain := { q.chain with hold := false, ratio := 4294967296 } }, 23, 4294967, by decide +kernel⟩,
   ⟨((((rx).wr F.PWR_STATE_STAT_STATE 3).updLane 23 fun q => { q with runMarked := true }).wr (F.PAGE_EN .rfin 0) 1).updLane 23 fun q => { q with dsp := { DspSt.init with groups := List.replicate 4 false, line := List.replicate 128 smp, hist := List.replicate 528 smp } }, 23, by decide +kernel⟩,
   ⟨(((rx).wr F.PWR_STATE_STAT_STATE 3).wr (F.PAGE_EN .lane 23) 1).updLane 23 fun q => { q with run := true }, by decide +kernel⟩,
   ⟨((up.wr F.PWR_STATE_STAT_STATE 3).wr (F.ANA_STAT_STATE 15) 1).updAna 15 fun q => { q with det := 0 }, 15, { anaWin with counted := true, invalid := false }, by decide +kernel⟩,
   ⟨((up.wr F.PWR_STATE_STAT_STATE 3).wr (F.ANA_STAT_STATE 15) 1).updAna 15 fun q => { q with timedOut := false }, 15, by decide +kernel⟩,
   ⟨(up.wr F.PWR_STATE_STAT_STATE 3).wr (F.ANA_STAT_STATE 15) 2, 15, by decide +kernel⟩,
   ⟨(((((((rx).wr F.PWR_STATE_STAT_STATE 3).wr (F.ANA_ASSIGN_MODE 15) 1).wr (F.ANA_STAT_STATE 15) 2).wr (F.ANA_ASSIGN_MODE 15) 1).wr (F.ANA_STAT_STATE 15) 2).updAna 15 fun q => { q with rdsCfg := 0xFFFFFFFF }).updAna 15 fun q => { q with rds := [(0, { RdsStream.init with seek := [{ bit := 0, slot := 0, info := 0, cPrime := false, start := 0 }] })] }, 15, { rdsB with stream := 0, offset := .b, burst := 0, bit := 27, afs := [], clock := none }, by decide +kernel⟩⟩

end Sys2Proof.Tests
end

section
/-! PROOF. IRQ.SRC and IRQ.SUMMARY as numbers given bit by bit, and the pages of each interrupt group (R123, R125). -/
namespace Sys2Proof.Machine
open Sys2Proof

/-- The number whose bit `k`, below `n`, is set where `p k` holds: the shape in which IRQ.SRC and IRQ.SUMMARY are built. -/
def bitsWhere (n : Nat) (p : Nat → Bool) : Nat :=
  (List.range n).foldl (fun acc k => if p k then acc + 2 ^ k else acc) 0

theorem bitsWhere_succ (n : Nat) (p : Nat → Bool) :
    bitsWhere (n + 1) p = if p n then bitsWhere n p + 2 ^ n else bitsWhere n p := by
  simp [bitsWhere, List.range_succ]

theorem bitsWhere_lt (n : Nat) (p : Nat → Bool) : bitsWhere n p < 2 ^ n := by
  induction n with
  | zero => exact Nat.one_pos
  | succ n ih =>
    rw [bitsWhere_succ, Nat.pow_succ]
    split <;> omega

theorem bit_bitsWhere (n : Nat) (p : Nat → Bool) (i : Nat) : bit (bitsWhere n p) i = (decide (i < n) && p i) := by
  rw [bit_eq_testBit]
  induction n with
  | zero => simp [bitsWhere]
  | succ n ih =>
    have hlt := bitsWhere_lt n p
    have top : (bitsWhere n p).testBit n = false := Nat.testBit_lt_two_pow hlt
    rw [bitsWhere_succ]
    rcases Nat.lt_trichotomy i n with hi | rfl | hi
    · have keep : (bitsWhere n p + 2 ^ n).testBit i = (bitsWhere n p).testBit i := by
        rw [Nat.add_comm, Nat.testBit_two_pow_add_gt hi]
      split <;> simp [*, Nat.lt_succ_of_lt hi]
    · have set : (bitsWhere i p + 2 ^ i).testBit i = true := by
        rw [Nat.add_comm, Nat.testBit_two_pow_add_eq, top, Bool.not_false]
      split <;> simp [*]
    · have above : (if p n then bitsWhere n p + 2 ^ n else bitsWhere n p) < 2 ^ i := by
        have := bitsWhere_lt (n + 1) p
        rw [bitsWhere_succ] at this
        exact Nat.lt_of_lt_of_le this (Nat.pow_le_pow_right (by decide) hi)
      rw [Nat.testBit_lt_two_pow above]
      simp [show ¬ i < n + 1 by omega]

/-- A page holds an enabled cause: the condition of R125 on one page. -/
def State.feeds (s : State) (p : PageType × Nat) : Bool := decide (s.rd (F.CAUSE p.1 p.2) &&& s.rd (F.CAUSE_EN p.1 p.2) ≠ 0)

theorem State.irqSrc_eq_bitsWhere (s : State) (g : Nat) :
    s.irqSrc g = bitsWhere (pagesOfGroup g).length (fun k => (pagesOfGroup g)[k]?.any s.feeds) := by
  unfold State.irqSrc bitsWhere
  dsimp only
  congr 1
  funext acc k
  rcases Option.eq_none_or_eq_some (pagesOfGroup g)[k]? with h | ⟨p, h⟩
  · simp only [h, Option.any_none, Bool.false_eq_true, if_false]
  · simp only [h, Option.any_some, State.feeds, decide_eq_true_eq]

theorem State.bit_irqSrc (s : State) (g i : Nat) : bit (s.irqSrc g) i = (pagesOfGroup g)[i]?.any s.feeds := by
  rw [s.irqSrc_eq_bitsWhere, bit_bitsWhere]
  by_cases h : i < (pagesOfGroup g).length
  · simp [h]
  · simp [List.getElem?_eq_none (Nat.le_of_not_lt h)]

theorem State.bit_irqSummary (s : State) (g : Fin 16) : bit s.irqSummary g = decide (s.irqSrc g ≠ 0) := by
  have e : s.irqSummary = bitsWhere 16 (fun k => decide (s.irqSrc k ≠ 0)) := by
    simp [State.irqSummary, bitsWhere]
  rw [e, bit_bitsWhere, decide_eq_true g.isLt, Bool.true_and]

theorem State.pageWord_irqSrc (s : State) (g : Nat) : s.pageWord 0 .irq 0 (0x100 + 4 * g) = BitVec.ofNat 32 (s.irqSrc g) := by
  have h1 : ¬ 0x100 + 4 * g = 0x040 := by omega
  have h2 : ¬ 0x100 + 4 * g = 0x04C := by omega
  have h3 : 0x100 ≤ 0x100 + 4 * g := by omega
  have h4 : (0x100 + 4 * g - 0x100) / 4 = g := by omega
  simp only [State.pageWord, h1, h2, h3, h4, if_true, if_false]

/-- Every page that feeds a group is one of the page map's block types: the two windows feed none. -/
theorem PageType.mem_all_of_group {t : PageType} {g : Nat} (h : t.group = some g) : t ∈ PageType.all := by
  cases t
  case hamper | qw => simp [PageType.group] at h
  all_goals decide

theorem mem_pagesOfGroup {g : Nat} {t : PageType} {k : Nat} :
    (t, k) ∈ pagesOfGroup g ↔ t.group = some g ∧ k < t.map.2.1 := by
  unfold pagesOfGroup
  constructor
  · intro h
    obtain ⟨u, -, hu⟩ := List.mem_flatMap.mp h
    split at hu
    · obtain ⟨j, hj, e⟩ := List.mem_map.mp hu
      obtain ⟨rfl, rfl⟩ := Prod.mk.inj e
      exact ⟨‹_›, List.mem_range.mp hj⟩
    · exact absurd hu List.not_mem_nil
  · rintro ⟨hg, hk⟩
    refine List.mem_flatMap.mpr ⟨t, PageType.mem_all_of_group hg, ?_⟩
    rw [if_pos hg]
    exact List.mem_map.mpr ⟨k, List.mem_range.mpr hk, rfl⟩

/-- Settles O50: a bit of IRQ.SRC or IRQ.SUMMARY is the condition it is built from; the map of pages is finite. -/
theorem irqSources : Obligations.IrqSources := by
  unfold Obligations.IrqSources
  refine ⟨fun s g i t k h => ?_, fun s g i h => ?_, fun s g => ⟨?_, s.pageWord_irqSrc g⟩, fun _ _ _ => mem_pagesOfGroup,
    by decide, by decide, by decide, by decide⟩
  · simp [s.bit_irqSrc, h, State.feeds]
  · simp [s.bit_irqSrc, List.getElem?_eq_none h]
  · simp [s.bit_irqSummary]

end Sys2Proof.Machine
end

section
/-! PROOF. What a refused access and a rejected write leave in PROT (R112, R118), stage by stage: the count, the capture or
CAPT_OVF, the cause, and for level 3 MGMT_FAULT. -/
namespace Sys2Proof.Machine
open Sys2Proof

/-! ### Frames through the stages -/

theorem State.reg_sat_ne (s : State) (f : Fld) (n : Nat) {b : Nat} (h : b ≠ f.addr) : (s.sat f n).reg b = s.reg b :=
  s.reg_wr_ne f _ h

/-- A counter that saturates reads one more, or its highest value. -/
theorem State.rd_sat_same (s : State) (f : Fld) (h1 : f.lo ≤ f.hi) (h2 : f.hi < 32) :
    (s.sat f).rd f = min (s.rd f + 1) (2 ^ (f.hi + 1 - f.lo) - 1) := by
  have := Nat.two_pow_pos (f.hi + 1 - f.lo)
  unfold State.sat
  rw [State.rd_wr_same _ _ _ h1 h2, Nat.mod_eq_of_lt (by omega)]

theorem State.rd_of_reg {s t : State} {f : Fld} (h : t.reg f.addr = s.reg f.addr) : t.rd f = s.rd f := by
  unfold State.rd
  rw [h]

/-- A page is enabled as before when its PAGE_CTRL is outside what changed. -/
theorem State.en_of_sameRegsBut {s u : State} {l : List Nat} (t : PageType) (i : Nat) (h : s.sameRegsBut l u)
    (ha : t.base i + 4 ∉ l) : u.en t i = s.en t i := by
  unfold State.en State.on
  rw [State.rd_of_reg (h _ ha)]

/-- A cause raised in PROT leaves every register of PROT but CAUSE as it was. -/
theorem State.reg_raise_prot (s : State) (b : Nat) {a : Nat} (hb : b < 8) (ha : a ∉ causeRegs .prot 0) :
    (s.raise .prot b).reg a = s.reg a :=
  s.reg_raise .prot b 0 hb (fun e => ha (by rw [e]; exact List.mem_cons_self)) (fun e => ha (List.mem_cons_of_mem _ e))

/-- The registers in which MGMT_FAULT is recorded (R128). -/
def mgmtFaultRegs : List Nat := 0x70 :: causeRegs .sys 0

theorem State.sameRegsBut_mgmtFault (s : State) (code addr : Nat) : s.sameRegsBut mgmtFaultRegs (s.mgmtFault code addr) :=
  State.sameRegsBut_raise .sys C.SYS_MGMT_FAULT 0 (by decide)
    (State.sameRegsBut_wr _ (State.sameRegsBut_wr _ (s.sameRegsBut_refl _) (by decide)) (by decide))
    (fun _ ha => List.mem_cons_of_mem _ ha)

theorem State.mgmtFault_mem (s : State) (code addr : Nat) : (s.mgmtFault code addr).mem = s.mem := by
  simp [State.mgmtFault]

/-- MGMT_FAULT leaves the causes of PROT standing. -/
theorem State.raises_mgmtFault {s u : State} {b : Nat} (code addr : Nat) (h : s.raises .prot b 0 u) :
    s.raises .prot b 0 (u.mgmtFault code addr) := fun he =>
  (State.caused_congr (u.sameRegsBut_mgmtFault code addr _ (by decide))).mpr (h he)

/-! ### A refused access -/

/-- PROT.ACCESS_CAPT of a refused access (R112, R118). -/
def accessCapture (lvl a : Nat) (write : Bool) (kind : Nat) : Word :=
  BitVec.ofNat 32 (2 ^ 31 + b2n write * 2 ^ 30 + kind * 2 ^ 27 + lvl * 2 ^ 24 + a % 2 ^ 24)

/-- The first stages of `State.refuse`: the refusal counted, and captured or, with a capture standing, CAPT_OVF. -/
def State.recordRefusal (s : State) (lvl a : Nat) (write : Bool) (kind : Nat) : State :=
  if s.on F.PROT_ACCESS_CAPT_VALID then (s.sat F.PROT_COUNT_ACCESS).raise .prot C.PROT_CAPT_OVF
  else (s.sat F.PROT_COUNT_ACCESS).setReg 0x5048 (accessCapture lvl a write kind)

theorem State.refuse_eq (s : State) (lvl a : Nat) (write : Bool) (kind : Nat) :
    s.refuse lvl a write kind =
      (let u := (s.recordRefusal lvl a write kind).raise .prot (kindCause kind)
       if lvl = 3 then u.mgmtFault 1 a else u) := by
  have h : (s.sat F.PROT_COUNT_ACCESS).on F.PROT_ACCESS_CAPT_VALID = s.on F.PROT_ACCESS_CAPT_VALID := by
    unfold State.on
    rw [State.rd_of_reg (s.reg_sat_ne _ _ (by decide))]
  simp only [State.refuse, State.recordRefusal, h]
  rfl

theorem kindCause_lt (kind : Fin 5) : kindCause kind < 8 := by
  revert kind
  decide

/-- The registers of the first stages. -/
def recordRefusalRegs : List Nat := 0x504C :: 0x5048 :: causeRegs .prot 0

theorem State.sameRegsBut_recordRefusal (s : State) (lvl a : Nat) (write : Bool) (kind : Nat) :
    s.sameRegsBut recordRefusalRegs (s.recordRefusal lvl a write kind) := by
  have count : s.sameRegsBut recordRefusalRegs (s.sat F.PROT_COUNT_ACCESS) :=
    State.sameRegsBut_wr _ (s.sameRegsBut_refl _) (by decide)
  unfold State.recordRefusal
  split
  · exact State.sameRegsBut_raise .prot _ 0 (by decide) count (by decide)
  · exact State.sameRegsBut_setReg _ count (by decide)

/-- What follows the first stages touches causes and MGMT_FAULT only. -/
theorem State.reg_refuse (s : State) (lvl a : Nat) (write : Bool) (kind : Fin 5) {b : Nat}
    (hb : b ∉ causeRegs .prot 0 ++ mgmtFaultRegs) :
    (s.refuse lvl a write kind).reg b = (s.recordRefusal lvl a write kind).reg b := by
  rw [List.mem_append, not_or] at hb
  rw [State.refuse_eq]
  dsimp only
  split
  · rw [State.sameRegsBut_mgmtFault _ _ _ _ hb.2, State.reg_raise_prot _ _ (kindCause_lt kind) hb.1]
  · exact State.reg_raise_prot _ _ (kindCause_lt kind) hb.1

/-- Each refusal counts, up to the highest value of the count (R112). -/
theorem State.rd_count_refuse (s : State) (lvl a : Nat) (write : Bool) (kind : Fin 5) :
    (s.refuse lvl a write kind).rd F.PROT_COUNT_ACCESS = min (s.rd F.PROT_COUNT_ACCESS + 1) 0xFFFF := by
  have count : (s.recordRefusal lvl a write kind).reg 0x504C = (s.sat F.PROT_COUNT_ACCESS).reg 0x504C := by
    unfold State.recordRefusal
    split
    · exact State.reg_raise_prot _ _ (by decide) (by decide)
    · exact State.reg_setReg_ne _ _ (by decide)
  rw [State.rd_of_reg ((s.reg_refuse lvl a write kind (by decide)).trans count)]
  exact s.rd_sat_same F.PROT_COUNT_ACCESS (by decide) (by decide)

/-- Bits `hi` to `lo` of a word given as a number. -/
theorem getBits_ofNat {n : Nat} (hi lo : Nat) (h : n < 2 ^ 32) :
    getBits (BitVec.ofNat 32 n) hi lo = n / 2 ^ lo % 2 ^ (hi + 1 - lo) := by
  unfold getBits
  rw [BitVec.toNat_ofNat, Nat.mod_eq_of_lt h]

/-- The first refusal is captured (R112), with the code of its kind (R118). -/
theorem State.refuse_captures (s : State) (lvl : Fin 4) (a : BitVec 24) (write : Bool) (kind : Fin 5)
    (h : s.rd F.PROT_ACCESS_CAPT_VALID = 0) :
    (s.refuse lvl a.toNat write kind).rd F.PROT_ACCESS_CAPT_VALID = 1 ∧
      (s.refuse lvl a.toNat write kind).rd F.PROT_ACCESS_CAPT_WRITE = b2n write ∧
      (s.refuse lvl a.toNat write kind).rd F.PROT_ACCESS_CAPT_KIND = kind ∧
      (s.refuse lvl a.toNat write kind).rd F.PROT_ACCESS_CAPT_INIT = lvl ∧
      (s.refuse lvl a.toNat write kind).rd F.PROT_ACCESS_CAPT_ADDR = a.toNat := by
  have hv : s.on F.PROT_ACCESS_CAPT_VALID = false := by simp [State.on, h]
  have captured (hi lo : Nat) : (s.refuse lvl a.toNat write kind).rd ⟨0x5048, hi, lo⟩ =
      getBits (accessCapture lvl a.toNat write kind) hi lo := by
    unfold State.rd
    dsimp only
    rw [s.reg_refuse lvl _ write kind (by decide)]
    simp [State.recordRefusal, hv]
  have ha := a.isLt
  have hl := lvl.isLt
  have hk := kind.isLt
  have hw : b2n write < 2 := by cases write <;> decide
  refine ⟨(captured 31 31).trans ?_, (captured 30 30).trans ?_, (captured 29 27).trans ?_, (captured 25 24).trans ?_,
    (captured 23 0).trans ?_⟩ <;> rw [accessCapture, getBits_ofNat _ _ (by omega)] <;> omega

/-- A refusal that finds a capture standing leaves it, and raises CAPT_OVF (R112). -/
theorem State.refuse_keeps_capture (s : State) (lvl a : Nat) (write : Bool) (kind : Fin 5) (h : s.rd F.PROT_ACCESS_CAPT_VALID = 1) :
    (s.refuse lvl a write kind).reg 0x5048 = s.reg 0x5048 ∧ s.raises .prot C.PROT_CAPT_OVF 0 (s.refuse lvl a write kind) := by
  have hv : s.on F.PROT_ACCESS_CAPT_VALID = true := by simp [State.on, h]
  have e : s.recordRefusal lvl a write kind = (s.sat F.PROT_COUNT_ACCESS).raise .prot C.PROT_CAPT_OVF := by
    simp [State.recordRefusal, hv]
  constructor
  · rw [s.reg_refuse lvl a write kind (by decide), e, State.reg_raise_prot _ _ (by decide) (by decide)]
    exact s.reg_sat_ne _ _ (by decide)
  · have ovf : s.raises .prot C.PROT_CAPT_OVF 0 (s.recordRefusal lvl a write kind) := by
      rw [e]
      exact State.raises_self _ _ _ _ _ (by decide) (by decide)
        (State.en_of_sameRegsBut (l := [0x504C]) _ _ (State.sameRegsBut_wr _ (s.sameRegsBut_refl _) (by decide)) (by decide))
    have both := State.raises_keep _ _ .prot _ (kindCause kind) 0 _ _ (kindCause_lt kind) (by decide) ovf
    rw [State.refuse_eq]
    dsimp only
    split
    · exact State.raises_mgmtFault _ _ both
    · exact both

/-- Each refusal raises the cause of its kind (R112, R129). -/
theorem State.refuse_raises_kind (s : State) (lvl a : Nat) (write : Bool) (kind : Fin 5) :
    s.raises .prot (kindCause kind) 0 (s.refuse lvl a write kind) := by
  have cause := State.raises_self s (s.recordRefusal lvl a write kind) .prot (kindCause kind) 0 (kindCause_lt kind) (by decide)
    (State.en_of_sameRegsBut _ _ (s.sameRegsBut_recordRefusal lvl a write kind) (by decide))
  rw [State.refuse_eq]
  dsimp only
  split
  · exact State.raises_mgmtFault _ _ cause
  · exact cause

/-- A refusal touches the count, the capture, MGMT_FAULT and the causes of PROT and SYS only. -/
theorem State.sameRegsBut_refuse (s : State) (lvl a : Nat) (write : Bool) (kind : Fin 5) :
    s.sameRegsBut ([0x504C, 0x5048, 0x70] ++ causeRegs .prot 0 ++ causeRegs .sys 0) (s.refuse lvl a write kind) := by
  intro b hb
  simp only [List.mem_append, List.mem_cons, List.not_mem_nil, or_false, not_or] at hb
  obtain ⟨⟨⟨hcount, hcapt, hfault⟩, hprot⟩, hsys⟩ := hb
  rw [s.reg_refuse lvl a write kind (by simp [mgmtFaultRegs, *])]
  exact s.sameRegsBut_recordRefusal lvl a write kind b (by simp [recordRefusalRegs, *])

theorem State.refuse_mem (s : State) (lvl a : Nat) (write : Bool) (kind : Nat) : (s.refuse lvl a write kind).mem = s.mem := by
  have h : (s.recordRefusal lvl a write kind).mem = s.mem := by
    unfold State.recordRefusal State.sat
    split <;> simp
  rw [State.refuse_eq]
  dsimp only
  split <;> simp [State.mgmtFault_mem, h]

/-! ### A rejected write -/

/-- PROT.RANGE_CAPT of a rejected write (R112). -/
def rangeCapture (lvl a reason : Nat) : Word := BitVec.ofNat 32 (2 ^ 31 + reason * 2 ^ 26 + lvl * 2 ^ 24 + a % 2 ^ 24)

/-- `State.rangeReject` before its cause: the rejected write counted, and captured with its word or, with a capture standing,
CAPT_OVF. -/
def State.recordReject (s : State) (lvl a : Nat) (w : Word) (reason : Nat) : State :=
  if s.on F.PROT_RANGE_CAPT_VALID then (s.sat F.PROT_COUNT_RANGE).raise .prot C.PROT_CAPT_OVF
  else ((s.sat F.PROT_COUNT_RANGE).setReg 0x5040 (rangeCapture lvl a reason)).setReg 0x5044 w

theorem State.rangeReject_eq (s : State) (lvl a : Nat) (w : Word) (reason : Nat) :
    s.rangeReject lvl a w reason = (s.recordReject lvl a w reason).raise .prot C.PROT_RANGE := by
  have h : (s.sat F.PROT_COUNT_RANGE).on F.PROT_RANGE_CAPT_VALID = s.on F.PROT_RANGE_CAPT_VALID := by
    unfold State.on
    rw [State.rd_of_reg (s.reg_sat_ne _ _ (by decide))]
  simp only [State.rangeReject, State.recordReject, h]
  rfl

theorem State.reg_rangeReject (s : State) (lvl a : Nat) (w : Word) (reason : Nat) {b : Nat} (hb : b ∉ causeRegs .prot 0) :
    (s.rangeReject lvl a w reason).reg b = (s.recordReject lvl a w reason).reg b := by
  rw [State.rangeReject_eq]
  exact State.reg_raise_prot _ _ (by decide) hb

/-- A rejected write touches the count, the capture and the causes of PROT only. -/
theorem State.sameRegsBut_recordReject (s : State) (lvl a : Nat) (w : Word) (reason : Nat) :
    s.sameRegsBut ([0x504C, 0x5040, 0x5044] ++ causeRegs .prot 0) (s.recordReject lvl a w reason) := by
  have count : s.sameRegsBut ([0x504C, 0x5040, 0x5044] ++ causeRegs .prot 0) (s.sat F.PROT_COUNT_RANGE) :=
    State.sameRegsBut_wr _ (s.sameRegsBut_refl _) (by decide)
  unfold State.recordReject
  split
  · exact State.sameRegsBut_raise .prot _ 0 (by decide) count (by decide)
  · exact State.sameRegsBut_setReg _ (State.sameRegsBut_setReg _ count (by decide)) (by decide)

theorem State.sameRegsBut_rangeReject (s : State) (lvl a : Nat) (w : Word) (reason : Nat) :
    s.sameRegsBut ([0x504C, 0x5040, 0x5044] ++ causeRegs .prot 0) (s.rangeReject lvl a w reason) := by
  rw [State.rangeReject_eq]
  exact State.sameRegsBut_raise .prot _ 0 (by decide) (s.sameRegsBut_recordReject lvl a w reason)
    (fun _ ha => List.mem_append_right _ ha)

/-- Each rejected write counts, up to the highest value of the count (R112). -/
theorem State.rd_count_rangeReject (s : State) (lvl a : Nat) (w : Word) (reason : Nat) :
    (s.rangeReject lvl a w reason).rd F.PROT_COUNT_RANGE = min (s.rd F.PROT_COUNT_RANGE + 1) 0xFFFF := by
  have count : (s.recordReject lvl a w reason).reg 0x504C = (s.sat F.PROT_COUNT_RANGE).reg 0x504C := by
    unfold State.recordReject
    split
    · exact State.reg_raise_prot _ _ (by decide) (by decide)
    · rw [State.reg_setReg_ne _ _ (by decide), State.reg_setReg_ne _ _ (by decide)]
  rw [State.rd_of_reg ((s.reg_rangeReject lvl a w reason (by decide)).trans count)]
  exact s.rd_sat_same F.PROT_COUNT_RANGE (by decide) (by decide)

/-- The first rejected write is captured with its word (R112). -/
theorem State.rangeReject_captures (s : State) (lvl : Fin 4) (a : BitVec 24) (w : Word) (reason : Fin 7)
    (h : s.rd F.PROT_RANGE_CAPT_VALID = 0) :
    (s.rangeReject lvl a.toNat w reason).rd F.PROT_RANGE_CAPT_VALID = 1 ∧
      (s.rangeReject lvl a.toNat w reason).rd F.PROT_RANGE_CAPT_REASON = reason ∧
      (s.rangeReject lvl a.toNat w reason).rd F.PROT_RANGE_CAPT_INIT = lvl ∧
      (s.rangeReject lvl a.toNat w reason).rd F.PROT_RANGE_CAPT_ADDR = a.toNat ∧
      (s.rangeReject lvl a.toNat w reason).reg 0x5044 = w := by
  have hv : s.on F.PROT_RANGE_CAPT_VALID = false := by simp [State.on, h]
  have captured (hi lo : Nat) : (s.rangeReject lvl a.toNat w reason).rd ⟨0x5040, hi, lo⟩ =
      getBits (rangeCapture lvl a.toNat reason) hi lo := by
    unfold State.rd
    dsimp only
    rw [s.reg_rangeReject lvl _ w reason (by decide)]
    simp [State.recordReject, hv, State.reg_setReg_ne]
  have word : (s.rangeReject lvl a.toNat w reason).reg 0x5044 = w := by
    rw [s.reg_rangeReject lvl _ w reason (by decide)]
    simp [State.recordReject, hv]
  have ha := a.isLt
  have hl := lvl.isLt
  have hr := reason.isLt
  refine ⟨(captured 31 31).trans ?_, (captured 29 26).trans ?_, (captured 25 24).trans ?_, (captured 23 0).trans ?_, word⟩ <;>
    rw [rangeCapture, getBits_ofNat _ _ (by omega)] <;> omega

/-- A rejected write that finds a capture standing leaves it, and raises CAPT_OVF (R112). -/
theorem State.rangeReject_keeps_capture (s : State) (lvl a : Nat) (w : Word) (reason : Nat) (h : s.rd F.PROT_RANGE_CAPT_VALID = 1) :
    (s.rangeReject lvl a w reason).reg 0x5040 = s.reg 0x5040 ∧ (s.rangeReject lvl a w reason).reg 0x5044 = s.reg 0x5044 ∧
      s.raises .prot C.PROT_CAPT_OVF 0 (s.rangeReject lvl a w reason) := by
  have hv : s.on F.PROT_RANGE_CAPT_VALID = true := by simp [State.on, h]
  have e : s.recordReject lvl a w reason = (s.sat F.PROT_COUNT_RANGE).raise .prot C.PROT_CAPT_OVF := by
    simp [State.recordReject, hv]
  have kept {b : Nat} (hc : b ≠ 0x504C) (hb : b ∉ causeRegs .prot 0) : (s.rangeReject lvl a w reason).reg b = s.reg b := by
    rw [s.reg_rangeReject lvl a w reason hb, e, State.reg_raise_prot _ _ (by decide) hb]
    exact s.reg_sat_ne _ _ hc
  refine ⟨kept (by decide) (by decide), kept (by decide) (by decide), ?_⟩
  rw [State.rangeReject_eq, e]
  exact State.raises_keep _ _ _ _ _ _ _ _ (by decide) (by decide) (State.raises_self _ _ _ _ _ (by decide) (by decide)
    (State.en_of_sameRegsBut (l := [0x504C]) _ _ (State.sameRegsBut_wr _ (s.sameRegsBut_refl _) (by decide)) (by decide)))

theorem State.rangeReject_raises (s : State) (lvl a : Nat) (w : Word) (reason : Nat) :
    s.raises .prot C.PROT_RANGE 0 (s.rangeReject lvl a w reason) := by
  rw [State.rangeReject_eq]
  exact State.raises_self _ _ _ _ _ (by decide) (by decide)
    (State.en_of_sameRegsBut _ _ (s.sameRegsBut_recordReject lvl a w reason) (by decide))

theorem State.rangeReject_mem (s : State) (lvl a : Nat) (w : Word) (reason : Nat) :
    (s.rangeReject lvl a w reason).mem = s.mem := by
  rw [State.rangeReject_eq, State.raise_mem]
  unfold State.recordReject State.sat
  split <;> simp

/-! ### Clearing VALID re-arms a capture -/

theorem exec_registerWrite (s : State) (lvl : Fin 4) (a : BitVec 24) (w : Word) (x : Facts) :
    exec (.registerWrite lvl a w x) s = .next (s.write lvl a.toNat w x) := (rfl)

/-- An accepted write to a register of PROT stores its word and has the register's effect. -/
theorem State.write_prot (s : State) (lvl o : Nat) (w : Word) (x : Facts) (h : s.accepts lvl (0x5000 + o) w x.rfin)
    (h1 : 0x40 ≤ o) (h2 : o < 0x1000) (h3 : (findReg (regsOf .prot) o).isSome = true) :
    s.write lvl (0x5000 + o) w x =
      (s.setReg (0x5000 + o) (s.writtenWord .prot o (s.reg (0x5000 + o)) w)).afterWrite .prot 0 o (s.reg (0x5000 + o)) w x := by
  have hpage : pageOf (0x5000 + o) = some (.prot, 0, o) := by
    have hp : (0x5000 + o) / 0x1000 = 5 := by omega
    have ho : (0x5000 + o) % 0x1000 = o := by omega
    simp [pageOf, hp, ho, PageType.all]
  have hsram : isSram (0x5000 + o) = false := by
    simp [isSram, bankAddr]
    omega
  rw [s.write_of_accepts lvl _ w x .prot 0 o h hsram hpage (by decide)]
  exact s.perform_reg lvl .prot 0 o w x (by decide) (by decide) h1 h3 (.inl (by decide)) (.inl (by decide))

/-- Writing 1 to VALID of either capture clears that bit alone: the others are RO. -/
theorem State.writtenWord_clear_capture (s : State) {o : Nat} (ho : o = 0x40 ∨ o = 0x48) (old : Word) :
    s.writtenWord .prot o old 0x80000000 = putBits old 31 31 0 := by
  have cleared : maskSub (getBits old 31 31) (getBits 0x80000000 31 31) = 0 := by
    have : getBits old 31 31 = 0 ∨ getBits old 31 31 = 1 := by have := getBits_lt old 31 31; omega
    rcases this with e | e <;> rw [e] <;> decide
  rw [← cleared]
  rcases ho with rfl | rfl <;> rfl

/-- A write of 1 to VALID re-arms a capture, and changes nothing else (R112). -/
theorem State.write_clear_capture (s : State) (lvl : Nat) {o : Nat} (ho : o = 0x40 ∨ o = 0x48) (x : Facts)
    (h : s.accepts lvl (0x5000 + o) 0x80000000 x.rfin) :
    s.write lvl (0x5000 + o) 0x80000000 x = s.setReg (0x5000 + o) (putBits (s.reg (0x5000 + o)) 31 31 0) := by
  rw [s.write_prot lvl o _ x h (by omega) (by omega) (by rcases ho with rfl | rfl <;> decide), s.writtenWord_clear_capture ho]
  have h1 : ¬ o = 0x050 := by omega
  have h2 : ¬ 0x800 ≤ o := by omega
  simp only [State.afterWrite, h1, h2, false_and, if_false]

theorem State.registerWrite_rearms (s : State) (lvl : Fin 4) (a : BitVec 24) {o : Nat} (ho : o = 0x40 ∨ o = 0x48)
    (ha : a.toNat = 0x5000 + o) (x : Facts) (h : s.accepts lvl (0x5000 + o) 0x80000000 x.rfin) :
    ∃ t : State, exec (.registerWrite lvl a 0x80000000 x) s = .next t ∧ t.rd ⟨0x5000 + o, 31, 31⟩ = 0 ∧
      s.sameRegsBut [0x5000 + o] t ∧ s.sameMem t := by
  refine ⟨_, exec_registerWrite .., ?_⟩
  rw [ha, s.write_clear_capture lvl ho x h]
  refine ⟨?_, State.sameRegsBut_setReg _ (s.sameRegsBut_refl _) List.mem_cons_self, State.sameMem_of_mem (s.setReg_mem _ _)⟩
  unfold State.rd
  dsimp only
  rw [State.reg_setReg_same, getBits_putBits_same _ _ (by decide) (by decide), Nat.zero_mod]

/-- Settles O11: the stages of a refusal and of a rejection one by one, and the write that re-arms a capture. -/
theorem refusalsAreRecorded : Obligations.RefusalsAreRecorded := by
  unfold Obligations.RefusalsAreRecorded
  intro s lvl a
  refine ⟨fun write kind => ?_, fun w reason => ?_, s.registerWrite_rearms lvl _ (.inr rfl) rfl,
    s.registerWrite_rearms lvl _ (.inl rfl) rfl⟩
  · exact ⟨s.rd_count_refuse lvl _ write kind, s.refuse_captures lvl a write kind, s.refuse_keeps_capture lvl _ write kind,
      s.refuse_raises_kind lvl _ write kind, s.sameRegsBut_refuse lvl _ write kind, State.sameMem_of_mem (s.refuse_mem lvl _ write kind)⟩
  · exact ⟨s.rd_count_rangeReject lvl _ w reason, s.rangeReject_captures lvl a w reason, s.rangeReject_keeps_capture lvl _ w reason,
      s.rangeReject_raises lvl _ w reason, s.sameRegsBut_rangeReject lvl _ w reason,
      State.sameMem_of_mem (s.rangeReject_mem lvl _ w reason)⟩

end Sys2Proof.Machine
end

section
/-! PROOF. The word of the Access Rights Table that holds entry 5, and the rights of level 0 on PROT (R114, R116). -/
namespace Sys2Proof.Machine
open Sys2Proof

theorem getBits_or (v w : Word) (hi lo : Nat) : getBits (v ||| w) hi lo = getBits v hi lo ||| getBits w hi lo := by
  unfold getBits
  rw [BitVec.toNat_or, ← Nat.shiftRight_eq_div_pow, Nat.shiftRight_or_distrib, Nat.or_mod_two_pow,
    Nat.shiftRight_eq_div_pow, Nat.shiftRight_eq_div_pow]

/-- Writing every bit of a word leaves nothing of the old one. -/
theorem putBits_all (old w : Word) : putBits old 31 0 (getBits w 31 0) = w := by
  apply BitVec.eq_of_toNat_eq
  have ho := old.isLt
  have hw := w.isLt
  rw [putBits_toNat _ _ (by decide) (by decide)]
  unfold getBits
  omega

/-- The word of entries 4 to 7 takes what is written, with bits 1:0 of entry 5 at 1 (R116). -/
theorem State.writtenWord_entry5 (s : State) (old w : Word) : s.writtenWord .prot 0x804 old w = w ||| 0x300 := by
  have merged : mergeWord (fieldsAt .prot 0x804) old w = w := putBits_all old w
  simp [State.writtenWord, merged]

/-- A write to the word of entry 5 leaves it so; the cause it may raise is elsewhere. -/
theorem State.reg_write_entry5 (s : State) (lvl : Nat) (w : Word) (x : Facts) (h : s.accepts lvl 0x5804 w x.rfin) :
    (s.write lvl 0x5804 w x).reg 0x5804 = w ||| 0x300 := by
  rw [s.write_prot lvl 0x804 w x h (by decide) (by decide) (by decide), s.writtenWord_entry5]
  simp only [State.afterWrite, show ¬ 0x804 = 0x050 by decide, if_false]
  split
  · rw [State.reg_raise_prot _ _ (by decide) (by decide), State.reg_setReg_same]
  · exact State.reg_setReg_same _ _ _

/-- The bits that entry 5 holds at 1 read 1, and no other bit of the word is touched (R116). -/
theorem getBits_or_entry5 (w : Word) : getBits (w ||| 0x300) 9 8 = 3 ∧ getBits (w ||| 0x300) 31 10 = getBits w 31 10 ∧
    getBits (w ||| 0x300) 7 0 = getBits w 7 0 := by
  have forced : ∀ n : Fin 4, n.val ||| 3 = 3 := by decide
  refine ⟨?_, ?_, ?_⟩ <;> rw [getBits_or]
  · exact forced ⟨getBits w 9 8, getBits_lt w 9 8⟩
  · exact Nat.or_zero _
  · exact Nat.or_zero _

/-- With bits 1:0 of entry 5 at 1, level 0 has both rights of the entry (R114). -/
theorem State.mayAccess_entry5 (s : State) (write : Bool) (h : getBits (s.reg 0x5804) 9 8 = 3) :
    s.mayAccess 0 5 write = true := by
  have e : s.art 5 = (s.reg 0x5804).toNat / 2 ^ 0 % 2 ^ 32 / 2 ^ 8 % 256 := rfl
  unfold getBits at h
  unfold State.mayAccess bit
  rw [e, decide_eq_true_eq]
  have hw : b2n write = 0 ∨ b2n write = 1 := by cases write <;> decide
  rcases hw with hw | hw <;> rw [hw] <;> omega

/-- Settles O12: the write forces the two bits, and they alone decide level 0's rights on PROT. -/
theorem artKeepsLevelZero : Obligations.ArtKeepsLevelZero := by
  unfold Obligations.ArtKeepsLevelZero
  refine ⟨by decide, fun s lvl w h => ⟨s.write lvl 0x5804 w Facts.plain, rfl, ?_⟩, fun s write h a hp => ?_⟩
  · rw [s.reg_write_entry5 lvl w Facts.plain h]
    exact getBits_or_entry5 w
  · have e : artIndex a.toNat = 5 := by simp [artIndex, hp, PageType.map]
    rw [e]
    exact s.mayAccess_entry5 write h

end Sys2Proof.Machine
end

section
/-! PROOF. The checks of an access in their order (R111): one lemma for each check that ends it, one for each way it is performed. -/
namespace Sys2Proof.Machine
open Sys2Proof

/-! ### From a command to the bus -/

/-- A word that the management controller never writes (R120). -/
theorem State.write_never (s : State) {lvl a : Nat} (w : Word) (x : Facts) (h : mgmtNever lvl a = true) : s.write lvl a w x = s := by
  simp [State.write, h]

theorem State.write_eq_busWrite (s : State) {lvl a : Nat} (w : Word) (x : Facts) (hb : s.answers = true)
    (h : mgmtNever lvl a = false) : s.write lvl a w x = (s.busWrite s lvl a w x).1 := by
  simp [State.write, hb, h]

/-- Below the SRAM window, what no page holds is reserved (R99). -/
theorem State.pageOf_of_not_reserved {s : State} {lvl a : Nat} (hs : isSram a = false) (h : s.reserved lvl a = false) :
    ∃ t i o, pageOf a = some (t, i, o) := by
  cases hp : pageOf a with
  | none => simp [State.reserved, hs, hp] at h
  | some p => exact ⟨p.1, p.2.1, p.2.2, rfl⟩

/-! ### A read -/

section Read
variable (s : State) {lvl a : Nat} (hits : List MemHit)

theorem State.busRead_misaligned (h : a % 4 ≠ 0) :
    s.busRead s lvl a hits = (s.refuse lvl a false 2, { word := 0, refused := true, bad := false }) := by
  simp only [State.busRead, if_pos h]

theorem State.busRead_reserved (h : a % 4 = 0) (hr : s.reserved lvl a = true) :
    s.busRead s lvl a hits = (s.refuse lvl a false 1, { word := 0, refused := true, bad := false }) := by
  simp [State.busRead, h, hr]

theorem State.busRead_denied (h : a % 4 = 0) (hr : s.reserved lvl a = false) (hm : s.mayAccess lvl (artIndex a) false = false) :
    s.busRead s lvl a hits = (s.refuse lvl a false 0, { word := 0, refused := true, bad := false }) := by
  simp [State.busRead, h, hr, hm]

/-- A read that the table allows is answered: from the SRAM, the Hamper table's window or a page (R98). -/
theorem State.busRead_allowed (h : a % 4 = 0) (hr : s.reserved lvl a = false) (hm : s.mayAccess lvl (artIndex a) false = true) :
    (s.busRead s lvl a hits).2.refused = false := by
  simp only [State.busRead, h, hr, hm, ne_eq, not_true_eq_false, Bool.false_eq_true, Bool.true_eq_false, if_false]
  split
  · rfl
  · next hnone =>
    have hs : isSram a = false := by
      cases hs : isSram a with
      | false => rfl
      | true => simp [hs] at hnone
    obtain ⟨t, i, o, hp⟩ := State.pageOf_of_not_reserved hs hr
    rw [hp]

end Read

/-! ### A write -/

/-- The state in which a rejected write is recorded: one of its reasons picked, and the page's count of rejects gone up. -/
def State.pickedAndCounted (s : State) (a : Nat) (reasons : List Nat) : State :=
  (pageOf a).elim (s.pickReason reasons).2 fun p => (s.pickReason reasons).2.countReject p.1 p.2.1

section Write
variable (s : State) {lvl a : Nat} (w : Word) (x : Facts)

theorem State.busWrite_misaligned (h : a % 4 ≠ 0) : (s.busWrite s lvl a w x).1 = s.refuse lvl a true 2 := by
  simp only [State.busWrite, if_pos h]

theorem State.busWrite_reserved (h : a % 4 = 0) (hr : s.reserved lvl a = true) :
    (s.busWrite s lvl a w x).1 = s.refuse lvl a true 1 := by
  simp [State.busWrite, h, hr]

theorem State.busWrite_denied (h : a % 4 = 0) (hr : s.reserved lvl a = false) (hm : s.mayAccess lvl (artIndex a) true = false) :
    (s.busWrite s lvl a w x).1 = s.refuse lvl a true 0 := by
  simp [State.busWrite, h, hr, hm]

variable (h : a % 4 = 0) (hr : s.reserved lvl a = false) (hm : s.mayAccess lvl (artIndex a) true = true)
include h hr hm

theorem State.busWrite_locked {t : PageType} {i o kind : Nat} (hp : pageOf a = some (t, i, o))
    (hl : s.lockKind lvl t i o w = some kind) : (s.busWrite s lvl a w x).1 = (s.countReject t i).refuse lvl a true kind := by
  simp [State.busWrite, h, hr, hm, hp, hl]

variable (hl : ∀ t i o, pageOf a = some (t, i, o) → s.lockKind lvl t i o w = none)
include hl

theorem State.busWrite_rejected (hw : s.rangeReasons lvl a w x.rfin ≠ []) :
    (s.busWrite s lvl a w x).1 = (s.pickedAndCounted a (s.rangeReasons lvl a w x.rfin)).rangeReject lvl a w
      (s.pickReason (s.rangeReasons lvl a w x.rfin)).1 := by
  cases hp : pageOf a with
  | none => simp [State.busWrite, State.pickedAndCounted, h, hr, hm, hp, hw]
  | some p =>
    obtain ⟨t, i, o⟩ := p
    simp [State.busWrite, State.pickedAndCounted, h, hr, hm, hp, hl t i o hp, hw]

theorem State.busWrite_sram (hw : s.rangeReasons lvl a w x.rfin = []) (hs : isSram a = true) :
    (s.busWrite s lvl a w x).1 = (s.sramWrite x.hits a w).1 := by
  cases hp : pageOf a with
  | none => simp [State.busWrite, h, hr, hm, hp, hw, hs]
  | some p =>
    obtain ⟨t, i, o⟩ := p
    simp [State.busWrite, h, hr, hm, hp, hl t i o hp, hw, hs]

theorem State.busWrite_page (hw : s.rangeReasons lvl a w x.rfin = []) (hs : isSram a = false) {t : PageType} {i o : Nat}
    (hp : pageOf a = some (t, i, o)) :
    (s.busWrite s lvl a w x).1 = if t = .hamper then s.hamperWrite x.hits a w else s.perform lvl t i o w x := by
  simp only [State.busWrite, h, hr, hm, hp, hl t i o hp, hw, hs, ne_eq, not_true_eq_false, Bool.false_eq_true, Bool.true_eq_false,
    if_false]
  cases t <;> rfl

end Write

/-! ### The reason that is recorded -/

/-- The reason is one of those that hold, and choosing it touches no register and no memory (assumption 1). -/
theorem State.pickReason_spec (s : State) {l : List Nat} (h : l ≠ []) :
    (s.pickReason l).1 ∈ l ∧ (s.pickReason l).2.regs = s.regs ∧ (s.pickReason l).2.mem = s.mem := by
  unfold State.pickReason
  split
  · next r e => exact ⟨List.mem_eraseDups.mp (by rw [e]; exact List.mem_cons_self), rfl, rfl⟩
  · obtain ⟨r, hr⟩ := List.exists_mem_of_ne_nil l h
    have pos : 0 < l.eraseDups.length := List.length_pos_of_mem (List.mem_eraseDups.mpr hr)
    have lt := Nat.mod_lt s.take.1.toNat pos
    refine ⟨?_, s.take_regs, s.take_mem⟩
    rw [List.getD_eq_getElem?_getD, List.getElem?_eq_getElem lt, Option.getD_some]
    exact List.mem_eraseDups.mp (List.getElem_mem lt)

/-- Counting a rejected write touches the page's count only (R103). -/
theorem State.sameRegsBut_countReject (s : State) (t : PageType) (i : Nat) :
    s.sameRegsBut [(F.PAGE_REJECTS t i).addr] (s.countReject t i) := by
  unfold State.countReject
  split
  · exact s.sameRegsBut_refl _
  · exact State.sameRegsBut_wr _ (s.sameRegsBut_refl _) List.mem_cons_self

theorem State.countReject_mem (s : State) (t : PageType) (i : Nat) : (s.countReject t i).mem = s.mem := by
  unfold State.countReject State.sat
  split <;> simp

theorem State.pickedAndCounted_mem (s : State) (a : Nat) {l : List Nat} (h : l ≠ []) : (s.pickedAndCounted a l).mem = s.mem := by
  obtain ⟨-, -, hmem⟩ := s.pickReason_spec h
  unfold State.pickedAndCounted
  cases pageOf a with
  | none => exact hmem
  | some p => exact (State.countReject_mem _ _ _).trans hmem

theorem State.reg_pickedAndCounted (s : State) (a : Nat) {l : List Nat} (h : l ≠ []) {b : Nat}
    (hb : ∀ t i o, pageOf a = some (t, i, o) → b ≠ (F.PAGE_REJECTS t i).addr) : (s.pickedAndCounted a l).reg b = s.reg b := by
  obtain ⟨-, hregs, -⟩ := s.pickReason_spec h
  unfold State.pickedAndCounted
  cases hp : pageOf a with
  | none => exact State.reg_congr hregs b
  | some p =>
    have := State.sameRegsBut_countReject (s.pickReason l).2 p.1 p.2.1 b (by simpa using hb p.1 p.2.1 p.2.2 hp)
    exact this.trans (State.reg_congr hregs b)

/-- Settles O10: the lemma of the first check that fails, or of the way the access is performed. -/
theorem accessChecksInOrder : Obligations.AccessChecksInOrder := by
  unfold Obligations.AccessChecksInOrder
  intro s lvl a w x hits hb
  simp only [exec_registerWrite, Host.Outcome.next.injEq]
  refine ⟨s.write_never w x, fun h => ⟨fun hn => ?_, s.busRead_misaligned hits h⟩,
    fun h hr => ⟨fun hn => ?_, s.busRead_reserved hits h hr⟩,
    fun h hr => ⟨s.busRead_denied hits h hr, s.busRead_allowed hits h hr, fun hn hm => ?_, fun hn hm => ?_⟩⟩
    <;> rw [s.write_eq_busWrite w x hb hn]
  · exact s.busWrite_misaligned w x h
  · exact s.busWrite_reserved w x h hr
  · exact s.busWrite_denied w x h hr hm
  · refine ⟨fun t i o kind => s.busWrite_locked w x h hr hm, fun hl => ⟨fun hw => ?_, fun hw => ⟨s.busWrite_sram w x h hr hm hl hw,
      fun hs t i o => s.busWrite_page w x h hr hm hl hw hs⟩⟩⟩
    exact ⟨_, _, (s.pickReason_spec hw).1, s.busWrite_rejected w x h hr hm hl hw, State.sameMem_of_mem (s.pickedAndCounted_mem _ hw),
      fun b => s.reg_pickedAndCounted _ hw⟩

end Sys2Proof.Machine
end

section
/-! PROOF. What an error of a QSPI frame records in HOST (R147), and that a rejected header records it and does nothing else (R138). -/
namespace Sys2Proof.Machine
open Sys2Proof

/-! ### The header checks -/

/-- A header passes R138 when its CRC, OP, WIDTH, CMD[1:0], ADDR and LEN all pass. -/
theorem headError_eq_none_iff (h : FrameHead) : headError h = none ↔
    crc16 (headBytes h) = h.hcrc.toNat ∧ (h.cmd.toNat / 16 = 1 ∨ h.cmd.toNat / 16 = 2) ∧ h.cmd.toNat / 4 % 4 ≠ 3 ∧
      h.cmd.toNat % 4 = 0 ∧ h.addr.toNat % 4 = 0 ∧ h.len.toNat ≤ (if h.cmd.toNat / 16 = 1 then 0x0FFF else 0x00FF) := by
  unfold headError headOp
  generalize (if h.cmd.toNat / 16 = 1 then 0xFFF else 0xFF) = maxLen
  split
  · next hcrc => exact iff_of_false nofun (fun p => hcrc p.1)
  · split
    · next hcmd => exact iff_of_false nofun (fun ⟨_, hop, hwidth, hlow, _⟩ => by omega)
    · next hcrc hcmd =>
      rw [Classical.not_not] at hcrc
      split
      · next haddr => exact iff_of_false nofun (fun ⟨_, _, _, _, halign, hlen⟩ => haddr.elim (· halign) (Nat.not_lt.mpr hlen))
      · next haddr =>
        rw [not_or, Classical.not_not, Nat.not_lt] at haddr
        exact iff_of_true rfl ⟨hcrc, by omega, by omega, by omega, haddr⟩

/-- The codes of rejected headers are among those of R147. -/
theorem headError_lt {h : FrameHead} {code : Nat} (he : headError h = some code) : code < 8 := by
  have codes : code = 1 ∨ code = 3 ∨ code = 4 := by
    unfold headError at he
    generalize (if headOp h = 1 then 0xFFF else 0xFF) = maxLen at he
    split at he
    · exact .inl (Option.some.inj he).symm
    · split at he
      · exact .inr (.inl (Option.some.inj he).symm)
      · split at he
        · exact .inr (.inr (Option.some.inj he).symm)
        · nomatch he
  omega

/-! ### The record of a frame error -/

/-- HOST.ERR_CAPT of a frame of which `got` header bytes arrived (R147). -/
def errCapture (h : FrameHead) (got code : Nat) : Word :=
  BitVec.ofNat 32 (2 ^ 31 + code * 2 ^ 28 + (if 4 ≤ got then h.addr.toNat else 0))

/-- HOST.ERR_HDR of such a frame. -/
def errHeader (h : FrameHead) (got : Nat) : Word :=
  BitVec.ofNat 32 ((if 1 ≤ got then h.cmd.toNat else 0) * 2 ^ 24 + (if 6 ≤ got then h.len.toNat else 0) * 2 ^ 8)

/-- `State.frameError` before its cause: the error counted and, with no capture standing, captured. -/
def State.recordFrameError (s : State) (h : FrameHead) (got code : Nat) : State :=
  if s.on F.HOST_ERR_CAPT_VALID then s.sat F.HOST_COUNT_ERRORS
  else ((s.sat F.HOST_COUNT_ERRORS).setReg 0x8048 (errCapture h got code)).setReg 0x804C (errHeader h got)

theorem State.frameError_eq (s : State) (h : FrameHead) (got code : Nat) :
    s.frameError h got code = (s.recordFrameError h got code).raise .host (frameCause code) := by
  have hv : (s.sat F.HOST_COUNT_ERRORS).on F.HOST_ERR_CAPT_VALID = s.on F.HOST_ERR_CAPT_VALID := by
    unfold State.on
    rw [State.rd_of_reg (s.reg_sat_ne _ _ (by decide))]
  simp only [State.frameError, State.recordFrameError, hv]
  rfl

theorem frameCause_lt (code : Nat) : frameCause code < 8 := by
  unfold frameCause
  repeat' split
  all_goals decide

/-- The registers that hold the count and the capture of frame errors. -/
def frameErrorRegs : List Nat := [0x8048, 0x804C, 0x8050]

theorem State.sameRegsBut_recordFrameError (s : State) (h : FrameHead) (got code : Nat) :
    s.sameRegsBut frameErrorRegs (s.recordFrameError h got code) := by
  have count : s.sameRegsBut frameErrorRegs (s.sat F.HOST_COUNT_ERRORS) :=
    State.sameRegsBut_wr _ (s.sameRegsBut_refl _) (by decide)
  unfold State.recordFrameError
  split
  · exact count
  · exact State.sameRegsBut_setReg _ (State.sameRegsBut_setReg _ count (by decide)) (by decide)

/-- The cause of a frame error leaves the count and the capture as recorded. -/
theorem State.rd_frameError (s : State) (h : FrameHead) (got code : Nat) {f : Fld} (hf : f.addr ∈ frameErrorRegs) :
    (s.frameError h got code).rd f = (s.recordFrameError h got code).rd f := by
  have apart : ∀ a ∈ frameErrorRegs, a ≠ (F.CAUSE .host 0).addr ∧ a ∉ twiRouteRegs := by decide
  rw [State.frameError_eq]
  exact State.rd_raise _ .host _ 0 f (frameCause_lt code) (apart _ hf).1 (apart _ hf).2

/-- A frame error touches its count, its capture and the causes of HOST only. -/
theorem State.sameRegsBut_frameError (s : State) (h : FrameHead) (got code : Nat) :
    s.sameRegsBut (frameErrorRegs ++ causeRegs .host 0) (s.frameError h got code) := by
  rw [State.frameError_eq]
  exact State.sameRegsBut_raise .host _ 0 (frameCause_lt code)
    (fun a ha => s.sameRegsBut_recordFrameError h got code a fun hm => ha (List.mem_append_left _ hm))
    (fun _ ha => List.mem_append_right _ ha)

/-- Each frame error counts, up to the highest value of the count (R147). -/
theorem State.rd_count_frameError (s : State) (h : FrameHead) (got code : Nat) :
    (s.frameError h got code).rd F.HOST_COUNT_ERRORS = min (s.rd F.HOST_COUNT_ERRORS + 1) 0xFFFF := by
  have count : (s.recordFrameError h got code).reg 0x8050 = (s.sat F.HOST_COUNT_ERRORS).reg 0x8050 := by
    unfold State.recordFrameError
    split
    · rfl
    · rw [State.reg_setReg_ne _ _ (by decide), State.reg_setReg_ne _ _ (by decide)]
  rw [s.rd_frameError h got code (by decide), State.rd_of_reg count]
  exact s.rd_sat_same F.HOST_COUNT_ERRORS (by decide) (by decide)

/-- The first frame error is captured with its code (R147). -/
theorem State.frameError_captures (s : State) (h : FrameHead) (got : Nat) {code : Nat} (hc : code < 8)
    (hv : s.rd F.HOST_ERR_CAPT_VALID = 0) :
    (s.frameError h got code).rd F.HOST_ERR_CAPT_VALID = 1 ∧ (s.frameError h got code).rd F.HOST_ERR_CAPT_CODE = code := by
  have off : s.on F.HOST_ERR_CAPT_VALID = false := by simp [State.on, hv]
  have captured (hi lo : Nat) : (s.frameError h got code).rd ⟨0x8048, hi, lo⟩ = getBits (errCapture h got code) hi lo := by
    rw [s.rd_frameError h got code (f := ⟨0x8048, hi, lo⟩) List.mem_cons_self]
    simp [State.rd, State.recordFrameError, off, State.reg_setReg_ne]
  have haddr : (if 4 ≤ got then h.addr.toNat else 0) < 2 ^ 24 := by
    split
    · exact h.addr.isLt
    · decide
  refine ⟨(captured 31 31).trans ?_, (captured 30 28).trans ?_⟩ <;> rw [errCapture, getBits_ofNat _ _ (by omega)] <;> omega

theorem State.frameError_raises (s : State) (h : FrameHead) (got code : Nat) :
    s.raises .host (frameCause code) 0 (s.frameError h got code) := by
  rw [State.frameError_eq]
  exact State.raises_self _ _ _ _ _ (frameCause_lt code) (by decide)
    (State.en_of_sameRegsBut _ _ (s.sameRegsBut_recordFrameError h got code) (by decide))

@[simp] theorem State.frameError_mem (s : State) (h : FrameHead) (got code : Nat) : (s.frameError h got code).mem = s.mem := by
  rw [State.frameError_eq, State.raise_mem]
  unfold State.recordFrameError
  split <;> simp

@[simp] theorem State.frameError_host (s : State) (h : FrameHead) (got code : Nat) : (s.frameError h got code).host = s.host := by
  rw [State.frameError_eq, State.raise_host]
  unfold State.recordFrameError
  split <;> simp

/-! ### A frame with a rejected header -/

theorem exec_qspiRead (s : State) (h : FrameHead) (late : List (Fin 4096)) (x : Facts) :
    exec (.qspiRead h late x) s = .next (s.frame h [] 0 (late.map Fin.val) x) := (rfl)

theorem exec_qspiWrite (s : State) (h : FrameHead) (data : List Word) (dcrc : BitVec 16) :
    exec (.qspiWrite h data dcrc) s = .next (s.frame h data dcrc.toNat [] Facts.plain) := (rfl)

/-- Whatever follows a rejected header, the frame is the record of the error and no more (R138). -/
theorem State.frame_of_rejected (s : State) {h : FrameHead} {code : Nat} (data : List Word) (dcrc : Nat) (late : List Nat) (x : Facts)
    (ha : s.answers = true) (he : headError h = some code) : s.frame h data dcrc late x = s.newFrame.frameError h 8 code := by
  simp only [State.frame, ha, he, if_true]

/-- Settles O16: with a rejected header both frames are the frame error of a port that has driven nothing yet. -/
theorem rejectedHeader : Obligations.RejectedHeader := by
  unfold Obligations.RejectedHeader
  refine ⟨headError_eq_none_iff, fun s h code ha he =>
    ⟨fun late x => ⟨_, exec_qspiRead s h late x, ?_⟩, fun data dcrc => ⟨_, exec_qspiWrite s h data dcrc, ?_⟩⟩⟩ <;>
    rw [s.frame_of_rejected _ _ _ _ ha he, State.frameError_host]
  all_goals
    exact ⟨rfl, rfl, s.newFrame.rd_count_frameError h 8 code, s.newFrame.frameError_captures h 8 (headError_lt he),
      s.newFrame.frameError_raises h 8 code, s.newFrame.sameRegsBut_frameError h 8 code,
      State.sameMem_of_mem (s.newFrame.frameError_mem h 8 code)⟩

end Sys2Proof.Machine
end

section
/-! PROOF. Output queues: what an update of one queue leaves, and the event, refusal and admission that judge a packet (R460, R475). -/
namespace Sys2Proof.Machine
open Sys2Proof

/-! ### One queue updated -/

@[simp] theorem State.updQueue_regs (s : State) (n : Nat) (f : QueueSt → QueueSt) : (s.updQueue n f).regs = s.regs := (rfl)

@[simp] theorem State.updQueue_mem (s : State) (n : Nat) (f : QueueSt → QueueSt) : (s.updQueue n f).mem = s.mem := (rfl)

/-- Queues stay as they were under a change of the other fields. -/
theorem State.queue_congr {s t : State} (h : t.sched.queues = s.sched.queues) (n : Nat) : t.queue n = s.queue n := by
  unfold State.queue
  rw [h]

@[simp] theorem State.queue_wr (s : State) (f : Fld) (v n : Nat) : (s.wr f v).queue n = s.queue n := (rfl)

@[simp] theorem State.queue_sat (s : State) (f : Fld) (k n : Nat) : (s.sat f k).queue n = s.queue n := (rfl)

@[simp] theorem State.queue_updQueue_same (s : State) (n : Nat) (f : QueueSt → QueueSt) : (s.updQueue n f).queue n = f (s.queue n) :=
  tget_tput_same _ _ _ _

theorem State.queue_updQueue_ne (s : State) {n m : Nat} (f : QueueSt → QueueSt) (h : m ≠ n) : (s.updQueue n f).queue m = s.queue m :=
  tget_tput_ne _ _ _ h _

/-- A queue as it is created (R455, R461). -/
theorem State.queue_makeQueue (s : State) (n : Nat) : (s.makeQueue n).queue n =
    { QueueSt.init with live := true, credit := s.qCap n, latWarned := (s.queue n).latWarned } := by
  rw [State.makeQueue, State.queue_wr, State.queue_updQueue_same]

/-! ### An event of the SCHED page -/

/-- The registers in which an event of the SCHED page is recorded (R475). -/
def schedEventRegs : List Nat := F.SCHED_EVENT_VALID.addr :: causeRegs .sched 0

theorem State.sameRegsBut_schedEvent (s : State) (code n : Nat) : s.sameRegsBut schedEventRegs (s.schedEvent code n) := by
  unfold State.schedEvent
  refine State.sameRegsBut_raise .sched _ 0 (by decide) ?_ (fun _ => List.mem_cons_of_mem _)
  split
  · exact s.sameRegsBut_refl _
  · exact State.sameRegsBut_wr _ (State.sameRegsBut_wr _ (State.sameRegsBut_wr _ (s.sameRegsBut_refl _) (by decide)) (by decide)) (by decide)

@[simp] theorem State.schedEvent_sched (s : State) (code n : Nat) : (s.schedEvent code n).sched = s.sched := by
  unfold State.schedEvent
  rw [State.raise_sched]
  split <;> simp

/-- The counts of refused and policed packets lie above every register of an event. -/
theorem qstat1_not_mem_schedEventRegs (n : Nat) : (F.SCHED_QSTAT1_POLICED n).addr ∉ schedEventRegs := fun hm => by
  have below : ∀ a ∈ schedEventRegs, a < 0x9C04 := by decide
  exact absurd (below _ hm) (Nat.not_lt.mpr (Nat.le_add_right _ _))

/-! ### A packet policed -/

/-- A queue that has policed a packet: the next one admitted carries GAP, and no further policed one raises the event. -/
def QueueSt.policed (q : QueueSt) : QueueSt := { q with gapDue := true, polArmed := false }

/-- `State.turnAway` of a policed packet before its event: the count and the queue. -/
def State.recordPoliced (s : State) (n : Nat) : State := (s.sat (F.SCHED_QSTAT1_POLICED n)).updQueue n QueueSt.policed

@[simp] theorem State.queue_recordPoliced (s : State) (n : Nat) : (s.recordPoliced n).queue n = (s.queue n).policed := by
  rw [State.recordPoliced, State.queue_updQueue_same, State.queue_sat]

/-- The event is that of the first packet policed since an admission (R475). -/
theorem State.turnAway_policed (s : State) (n : Nat) : s.turnAway n true =
    if (s.queue n).polArmed then (s.recordPoliced n).schedEvent 1 n else s.recordPoliced n := by
  have armed : QueueSt.policed = fun q => { q with gapDue := true, polArmed := false } := rfl
  simp [State.turnAway, State.recordPoliced, armed]

/-- Policing leaves the packets, the sequence number and the credit of the queue. -/
theorem State.queue_policed (s : State) (n : Nat) :
    (s.turnAway n true).queue n = (s.queue n).policed := by
  rw [State.turnAway_policed]
  split
  · rw [State.queue_congr (congrArg SchedSt.queues (State.schedEvent_sched _ _ _)), State.queue_recordPoliced]
  · exact s.queue_recordPoliced n

/-- Each policed packet counts, up to the highest value of the count (R460). -/
theorem State.rd_policed (s : State) (n : Nat) :
    (s.turnAway n true).rd (F.SCHED_QSTAT1_POLICED n) = min (s.rd (F.SCHED_QSTAT1_POLICED n) + 1) 0xFFFF := by
  have counted : (s.recordPoliced n).rd (F.SCHED_QSTAT1_POLICED n) = min (s.rd (F.SCHED_QSTAT1_POLICED n) + 1) 0xFFFF := by
    rw [State.recordPoliced, State.rd_congr (State.updQueue_regs _ _ _),
      State.rd_sat_same _ _ (by simp [F.SCHED_QSTAT1_POLICED]) (by simp [F.SCHED_QSTAT1_POLICED])]
    simp [F.SCHED_QSTAT1_POLICED]
  rw [State.turnAway_policed]
  split
  · rw [State.rd_of_reg (State.sameRegsBut_schedEvent _ _ _ _ (qstat1_not_mem_schedEventRegs n)), counted]
  · exact counted

/-! ### The oldest item of a queue judged -/

/-- The item taken from those that wait for their admission. -/
def State.takeItem (s : State) (i : Item) : State := { s with sched := { s.sched with items := s.sched.items.erase i } }

theorem State.takeItem_eq (s : State) (i : Item) :
    s.takeItem i = { s with sched := { s.sched with items := s.sched.items.erase i } } := (rfl)

/-- `State.enqueue` before its publication: the packet last in its queue, which pays for it when it has a rate (R461). -/
def State.appendPacket (s : State) (n : Nat) (p : Packet) : State :=
  s.updQueue n fun q =>
    { q with pkts := q.pkts ++ [p], seq := (q.seq + 1) % 0x10000, gapDue := false, polArmed := true, refArmed := true,
             credit := if s.qRate n = 0 then q.credit else q.credit - 32 * p.size }

theorem State.enqueue_eq (s : State) (n : Nat) (p : Packet) : s.enqueue n p = (s.appendPacket n p).publishQueue n := (rfl)

theorem exec_packetAdmit (s : State) (n : Fin 128) (broken : Bool) :
    exec (.packetAdmit n broken) s = execPacketAdmit n broken s := (rfl)

section
variable {s : State} {n : Fin 128} {i : Item} (broken : Bool) (hup : s.busUp = true)
  (hitem : (s.sched.items.find? fun i => decide (i.hamper = (n : Nat))) = some i) (hlive : (s.queue n).live = true)
  (hlen : i.payload.length ≤ 65535) (hgate : s.on (F.SCHED_QCFG_GATE_ADMIT n) = false)
  (hover : s.on (F.SCHED_QSTAT0_OVER n) = false) (hquota : (s.queue n).used + 4 * (s.packetOf n i).size ≤ s.quota n)
include hup hitem hlive hlen hgate hover hquota

/-- A packet that no length, gate or quota keeps out is judged by the credit, and only then by its own check (R460). -/
theorem exec_packetAdmit_within_quota : exec (.packetAdmit n broken) s = .next (
    if 0 < s.qRate n ∧ (s.queue n).credit < 32 * (s.packetOf n i).size then (s.takeItem i).turnAway n true
    else if !i.ok then
      ((s.takeItem i).updQueue n fun q => { q with gapDue := true }).chainBreak (if i.cls = 4 then 7 else 1) n
    else (s.takeItem i).enqueue n { s.packetOf n i with bad := broken }) := by
  have taken : (s.takeItem i).queue n = s.queue n ∧ (s.takeItem i).packetOf n i = s.packetOf n i ∧
      (s.takeItem i).on (F.SCHED_QCFG_GATE_ADMIT n) = s.on (F.SCHED_QCFG_GATE_ADMIT n) ∧
      (s.takeItem i).on (F.SCHED_QSTAT0_OVER n) = s.on (F.SCHED_QSTAT0_OVER n) ∧
      (s.takeItem i).quota n = s.quota n ∧ (s.takeItem i).qRate n = s.qRate n := ⟨rfl, rfl, rfl, rfl, rfl, rfl⟩
  obtain ⟨hq, hp, hg, ho, hQ, hr⟩ := taken
  rw [exec_packetAdmit, execPacketAdmit, State.whenUp_up _ hup]
  simp only [hitem, ← State.takeItem_eq, hq, hp, hg, ho, hQ, hr, hlive, hgate, hover, Nat.not_lt.mpr hlen, Nat.not_lt.mpr hquota,
    Bool.not_true, Bool.false_and, Bool.false_or, decide_false, Bool.false_eq_true, if_false]

/-- A queue with a rate polices the packet that its credit does not cover (R461). -/
theorem exec_packetAdmit_policed (hrate : 0 < s.qRate n) (hcredit : (s.queue n).credit < 32 * (s.packetOf n i).size) :
    exec (.packetAdmit n broken) s = .next ((s.takeItem i).turnAway n true) := by
  rw [exec_packetAdmit_within_quota broken hup hitem hlive hlen hgate hover hquota, if_pos ⟨hrate, hcredit⟩]

/-- An intact packet is admitted and published when its queue has no rate or the credit covers it (R461). -/
theorem exec_packetAdmit_admitted (hok : i.ok = true)
    (hcredit : s.qRate n = 0 ∨ 32 * (s.packetOf n i).size ≤ (s.queue n).credit) :
    exec (.packetAdmit n broken) s =
      .next (((s.takeItem i).appendPacket n { s.packetOf n i with bad := broken }).publishQueue n) := by
  rw [exec_packetAdmit_within_quota broken hup hitem hlive hlen hgate hover hquota, if_neg (by omega), hok,
    if_neg (by decide), State.enqueue_eq]

end

end Sys2Proof.Machine
end

section
/-! PROOF. The credit of a queue (R461). -/
namespace Sys2Proof.Machine
open Sys2Proof

theorem exec_creditTick (s : State) (n : Fin 128) : exec (.creditTick n) s = execCreditTick n s := (rfl)

/-- Without a rate a tick does nothing, whether or not the bus is up. -/
theorem exec_creditTick_of_no_rate {s : State} {n : Fin 128} (h : s.qRate n = 0) : exec (.creditTick n) s = .next s := by
  rw [exec_creditTick, execCreditTick]
  congr 1
  refine State.whenUp_keeps (P := (· = s)) rfl fun _ => if_neg ?_
  rw [h]
  exact fun hr => absurd hr.2 (by decide)

theorem exec_creditTick_of_rate {s : State} {n : Fin 128} (hup : s.busUp = true) (hlive : (s.queue n).live = true)
    (hrate : 0 < s.qRate n) :
    exec (.creditTick n) s = .next (s.updQueue n fun q => { q with credit := min (s.qCap n) (q.credit + s.qRate n) }) := by
  rw [exec_creditTick, execCreditTick, State.whenUp_up _ hup, if_pos ⟨hlive, hrate⟩]

/-- Settles O51: the queue as created, the tick with and without a rate, and the judgement of a packet within the quota, whose
policing and whose admission without a rate leave the credit. -/
theorem creditRule : Obligations.CreditRule := by
  unfold Obligations.CreditRule
  refine ⟨fun s n _ => ?_, fun s n hup hlive hrate => ?_, fun s n => exec_creditTick_of_no_rate,
    fun s n i hup hitem hlive hlen hgate hover hquota => ⟨fun hrate hfull hcap => ?_, fun hrate hok => ?_⟩⟩
  · rw [State.queue_makeQueue]
    exact ⟨rfl, rfl, rfl⟩
  · refine ⟨_, exec_creditTick_of_rate hup hlive hrate, ?_, fun m hm => s.queue_updQueue_ne _ hm,
      State.reg_congr (s.updQueue_regs _ _), State.sameMem_of_mem (s.updQueue_mem _ _)⟩
    rw [State.queue_updQueue_same]
    rfl
  · refine ⟨_, exec_packetAdmit_policed false hup hitem hlive hlen hgate hover hquota hrate (by omega), ?_, ?_,
      (s.takeItem i).rd_policed n⟩ <;> rw [State.queue_policed] <;> rfl
  · refine ⟨_, exec_packetAdmit_admitted false hup hitem hlive hlen hgate hover hquota hok (.inl hrate), ?_, ?_⟩ <;>
      rw [State.appendPacket, State.queue_updQueue_same]
    · rfl
    · exact if_pos hrate

end Sys2Proof.Machine
end

section
/-! PROOF. The emission of a point that settles unoccupied, and what it leaves in the PROBE page (R483, R484, R491). -/
namespace Sys2Proof.Machine
open Sys2Proof

/-- A point whose emission begins: STATE 3 with the synthesiser locked (R484). -/
def State.enterEmission (s : State) : State := (s.wr F.PROBE_STAT_STATE 3).wr F.PROBE_STAT_LOCKED 1

/-- The start of the first emission of a command in mode 2 goes to TX_TIME (R491). -/
def State.stampEmission (s : State) : State :=
  if s.rd F.PROBE_CFG_MODE = 2 ∧ s.probe.emitted = false then s.wr F.PROBE_TX_TIME s.nowUs else s

/-- The emission of a point begins; the command has emitted from now on. -/
def State.emitPoint (s : State) : State :=
  { s.enterEmission.stampEmission with probe := { s.enterEmission.stampEmission.probe with emitted := true } }

/-! ### The settled point emits -/

theorem exec_probeSettleDone (s : State) (listen : Option Int) (pow : Powers) :
    exec (.probeSettleDone listen pow) s = execProbeSettleDone listen pow s := (rfl)

/-- Whether a settled point is heard occupied: mode 1 does not listen (R483). -/
def State.hears (s : State) (listen : Option Int) : Bool :=
  decide (s.rd F.PROBE_CFG_MODE ≠ 1) && listen.any fun l => decide (ofField 16 (s.rd F.PROBE_OCC_THR_DBM) ≤ l)

theorem State.hears_of_below {s : State} {listen : Option Int}
    (h : ∀ x, listen = some x → x < ofField 16 (s.rd F.PROBE_OCC_THR_DBM)) : s.hears listen = false := by
  cases listen with
  | none => simp [State.hears]
  | some x => simp [State.hears, h x rfl]

/-- A point that settles is heard occupied and passed over, or it emits, in Transmit (R483, R484). -/
theorem exec_probeSettleDone_settling {s : State} (listen : Option Int) (pow : Powers) (hup : s.busUp = true)
    (hgo : s.rd F.PROBE_CMD_GO = 1) (hsettle : s.rd F.PROBE_STAT_STATE = 2) :
    exec (.probeSettleDone listen pow) s = .next (
      if s.hears listen then
        ((s.wr (F.PROBE_RESULT0_STATUS (s.rd F.PROBE_STAT_POINT)) 2).pointsFrom pow (s.rd F.PROBE_STAT_POINT + 1)).advance
      else (if s.pwr.trans = some .rxToTx then s.arrive 4 else s).emitPoint) := by
  have probing : s.probing = true := by simp [State.probing, State.on, hgo]
  rw [exec_probeSettleDone, execProbeSettleDone, State.whenUp_up _ hup, if_pos ⟨probing, hsettle⟩]
  rfl

theorem exec_probeSettleDone_emits {s : State} {listen : Option Int} (pow : Powers) (hup : s.busUp = true)
    (hgo : s.rd F.PROBE_CMD_GO = 1) (hsettle : s.rd F.PROBE_STAT_STATE = 2) (hquiet : s.hears listen = false)
    (htrans : s.pwr.trans = none) : exec (.probeSettleDone listen pow) s = .next s.emitPoint := by
  rw [exec_probeSettleDone_settling listen pow hup hgo hsettle, hquiet, htrans]
  simp

/-! ### What the emission leaves -/

theorem State.sameRegsBut_enterEmission (s : State) : s.sameRegsBut [0x14058] s.enterEmission :=
  State.sameRegsBut_wr _ (State.sameRegsBut_wr _ (s.sameRegsBut_refl _) (by decide)) (by decide)

@[simp] theorem State.enterEmission_probe (s : State) : s.enterEmission.probe = s.probe := by
  simp [State.enterEmission]

@[simp] theorem State.nowUs_enterEmission (s : State) : s.enterEmission.nowUs = s.nowUs := by
  simp [State.nowUs, State.enterEmission]

theorem State.sameRegsBut_stampEmission (s : State) : s.sameRegsBut [0x14064] s.stampEmission := by
  unfold State.stampEmission
  split
  · exact State.sameRegsBut_wr _ (s.sameRegsBut_refl _) (by decide)
  · exact s.sameRegsBut_refl _

@[simp] theorem State.stampEmission_mem (s : State) : s.stampEmission.mem = s.mem := by
  unfold State.stampEmission
  split <;> simp

theorem State.nowUs_lt (s : State) : s.nowUs < 2 ^ 32 := Nat.mod_lt _ (by decide)

/-- TX_TIME is as wide as the time it records, so that the whole of it reads back. -/
theorem State.rd_txTime_stampEmission_first {s : State} (hmode : s.rd F.PROBE_CFG_MODE = 2) (h : s.probe.emitted = false) :
    s.stampEmission.rd F.PROBE_TX_TIME = s.nowUs := by
  rw [State.stampEmission, if_pos ⟨hmode, h⟩, State.rd_wr_same _ _ _ (by decide) (by decide)]
  exact Nat.mod_eq_of_lt s.nowUs_lt

theorem State.stampEmission_later {s : State} (h : s.probe.emitted = true) : s.stampEmission = s :=
  if_neg fun first => by simp [h] at first

/-- The emission begins in two stages, of which the second records its start. -/
theorem State.reg_emitPoint (s : State) (a : Nat) : s.emitPoint.reg a = s.enterEmission.stampEmission.reg a := by
  rw [State.emitPoint, State.reg_mk]

theorem State.rd_state_emitPoint (s : State) : s.emitPoint.rd F.PROBE_STAT_STATE = 3 := by
  rw [State.rd_of_reg ((s.reg_emitPoint _).trans (s.enterEmission.sameRegsBut_stampEmission _ (by decide))), State.enterEmission,
    State.rd_wr_apart _ _ _ _ (by decide) (by decide) (by decide) (by decide)]
  exact s.rd_wr_same _ _ (by decide) (by decide)

theorem State.rd_txTime_emitPoint_first {s : State} (hmode : s.rd F.PROBE_CFG_MODE = 2) (h : s.probe.emitted = false) :
    s.emitPoint.rd F.PROBE_TX_TIME = s.nowUs := by
  have mode : s.enterEmission.rd F.PROBE_CFG_MODE = 2 :=
    (State.rd_of_reg (s.sameRegsBut_enterEmission _ (by decide))).trans hmode
  rw [State.rd_of_reg (s.reg_emitPoint _), State.rd_txTime_stampEmission_first mode (by simpa using h), State.nowUs_enterEmission]

theorem State.rd_txTime_emitPoint_later {s : State} (h : s.probe.emitted = true) :
    s.emitPoint.rd F.PROBE_TX_TIME = s.rd F.PROBE_TX_TIME := by
  have unstamped : s.enterEmission.stampEmission = s.enterEmission := State.stampEmission_later (by simpa using h)
  rw [State.rd_of_reg (s.reg_emitPoint _), unstamped]
  exact State.rd_of_reg (s.sameRegsBut_enterEmission _ (by decide))

theorem State.sameRegsBut_emitPoint (s : State) : s.sameRegsBut [0x14058, 0x14064] s.emitPoint := fun a ha => by
  rw [List.mem_cons, not_or, ← List.mem_singleton] at ha
  exact (s.reg_emitPoint a).trans ((s.enterEmission.sameRegsBut_stampEmission a ha.2).trans (s.sameRegsBut_enterEmission a ha.1))

theorem State.emitPoint_mem (s : State) : s.emitPoint.mem = s.mem := by
  simp [State.emitPoint, State.enterEmission]

/-- Settles O49: in mode 2 the settled point emits, and TX_TIME takes the time at the first emission and stays at a later one. -/
theorem probeTxTime : Obligations.ProbeTxTime := by
  unfold Obligations.ProbeTxTime
  intro s l pow hup hgo hsettle hmode hquiet htrans
  exact ⟨s.emitPoint, exec_probeSettleDone_emits pow hup hgo hsettle (State.hears_of_below hquiet) htrans, s.rd_state_emitPoint, rfl,
    State.rd_txTime_emitPoint_first hmode, State.rd_txTime_emitPoint_later, s.nowUs_lt, s.sameRegsBut_emitPoint,
    State.sameMem_of_mem s.emitPoint_mem⟩

end Sys2Proof.Machine
end
